-- ==== Sys2Proof/Word.lean ====
section
/-! DEFINITION. The words the manual speaks of: 32-bit register words and bytes, and the two readings of a 32-bit code. -/

namespace Sys2Proof

/-- A 32-bit register word (R8). -/
abbrev Word := BitVec 32

/-- A byte of memory (R8). -/
abbrev Byte := BitVec 8

/-- An address of the 40-bit station address space (R8, R58), or of a 52-bit system-wide space (R61). -/
abbrev Addr := Nat

end Sys2Proof
end

