-- ==== Sys2Proof/Syntax.lean ====
section
/-! DEFINITION. The commands of the block: `Instr` has one constructor per row of spec/opcode_table.json. What the outside
world supplies with a command (an address, a value, a tick, a measured or received quantity) is an operand. -/

namespace Sys2Proof

/-- A master of the station (R39). -/
inductive Master where
  /-- Tweed port `p`. -/
  | tweed (p : Nat)
  /-- Ethernet endpoint of port `p`, session `s`. -/
  | eth (p s : Nat)
  /-- The SPI target port. -/
  | spi
  /-- Signal box core `c` of die `d`. -/
  | core (d c : Nat)
deriving DecidableEq, Repr

/-- What the modulators of a unit's three paths bring to a loop tick: their levels over the loop decimator's window (R153 to R155), the
overload detectors' findings at the same modulator clocks (R163), newest clock first, and the common-mode detectors' over the period that
ends at the tick (R136). A clock that is not given has level 0 and no finding. -/
structure Sample where
  /-- Levels of VS. -/
  vs : List Int := []
  /-- Levels of IS. -/
  is : List Int := []
  /-- Levels of SH. -/
  sh : List Int := []
  /-- The VS overload detector fired. -/
  ovV : List Bool := []
  /-- The IS overload detector fired. -/
  ovI : List Bool := []
  /-- The SH overload detector fired. -/
  ovS : List Bool := []
  /-- The VSP/VSN common mode left its window. -/
  cmV : Bool := false
  /-- The current pair's common mode left its window. -/
  cmI : Bool := false
deriving DecidableEq, Repr

/-- The shared resources of R35, each with its die (and its port, siding or channel where there are several). -/
inductive Res where
  /-- The six aux modulators of a die. -/
  | aux (d : Nat)
  /-- The points bus of a die. -/
  | points (d : Nat)
  /-- The calibration bus of a die. -/
  | cal (d : Nat)
  /-- The assignment of siding `s` of a die. -/
  | siding (d s : Nat)
  /-- The Twill path of a die to DDR5 channel `c`. -/
  | twill (d c : Nat)
  /-- The NVM controller of a die. -/
  | nvm (d : Nat)
  /-- The sixteen snapshot slots of a die. -/
  | snap (d : Nat)
deriving DecidableEq, Repr

/-- A token request (R36, R38): who asks, at which rank, and the unit to whose next loop tick the work is bound, if any. -/
structure Req where
  /-- The requester's number; requesters of one rank rotate by it. -/
  who : Nat
  /-- Rank 1 to 6. -/
  rank : Nat
  /-- The unit whose guard instant withdraws the request (R38). -/
  bound : Option Nat := none
  /-- Grants of this token lost so far (R37). -/
  losses : Nat := 0
  /-- The instant of the request, as a Line tick count. -/
  at_ : Nat := 0
deriving DecidableEq, Repr

/-- A timetable instruction (R223). -/
inductive TIns where
  | halt
  | set (ovr rsh rate value : Nat)
  | sweep (a : Nat)
  | list (count a : Nat)
  | play (rep a : Nat)
  | stream (n : Nat)
  | dwell (n : Nat)
  | openB (m : Nat)
  | closeB (m : Nat)
  | mode (mo law : Nat)
  | range (irng vrng aren seti setv setar wait : Nat)
  | junction (kind stat op bin th neg slot flag disp : Nat)
  | loop (count : Nat)
  | next
  | mark (clr : Nat)
  | rewind (count : Nat)
  | call (a : Nat)
  | ret
  | waitev (slot timeout disp : Nat)
  | signal (ev delay : Nat)
  | therm (sensor wait : Nat)
  | connect (cl : Nat)
  | isolate
deriving DecidableEq, Repr

/-- The site of a prediction (R32): a junction of an engine, a range prediction of a unit, a feed-forward of a unit. -/
inductive PredSite where
  | junction (e : Nat)
  | range (u : Nat)
  | ff (u : Nat)
deriving DecidableEq, Repr

/-- A Tweed frame (R386): its header's fields and its payload's words, lowest first. HCRC and CRC are not part of it: with
a received frame a command says whether they hold. -/
structure Frame where
  /-- 0 TIME, 1 CTRL, 2 MGMT, 3 DATA. -/
  lane : Nat := 0
  /-- Frame type of the lane (R387). -/
  ty : Nat := 0
  /-- For the station at the far end of the link only. -/
  loc : Bool := false
  /-- Multicast to group DEST[5:0]. -/
  group : Bool := false
  /-- Broadcast. -/
  bcast : Bool := false
  /-- Hops remaining. -/
  hops : Nat := 16
  /-- Destination station or group. -/
  dest : Nat := 0
  /-- Origin station. -/
  src : Nat := 0
  /-- Link sequence number of the lane. -/
  seq : Nat := 0
  /-- A requester's tag. -/
  tag : Nat := 0
  /-- Payload words. -/
  words : List Nat := []
deriving DecidableEq, Repr

/-- What the head's station shows with an outer update (R47, R50, R129, R144): the consist's state and the indices of its ranges in force
at the update's due tick. No word of R387 carries them (log entry 20). -/
structure Shown where
  /-- STATE and LOOP of the consist. -/
  st : Nat
  /-- Current range in force. -/
  ir : Nat
  /-- Voltage range in force. -/
  vr : Nat
  /-- The consist's loop has closed since the update before (R129). -/
  shut : Bool := false
  /-- The consist's faults have been cleared since the update before (R144). -/
  clr : Bool := false
deriving DecidableEq, Repr

/-- A follower's report, with the state that its station shows and what it raises on the consist (R50, R51, R56): no word of R387 carries it (log entry 20). -/
structure Reported where
  /-- The REPORT frame. -/
  frame : Frame
  /-- The follower's state. -/
  st : Nat
  /-- The code of a fault raised at the follower since the report before, 0 for none (R51). -/
  fault : Nat := 0
  /-- An operator cause qualified at the follower's station since then: 1 interlock, 2 ABORT, 3 fixture, 0 none (R51). -/
  cause : Nat := 0
deriving DecidableEq, Repr

/-- What the stations of the remote members answer to a coupling (R48, R49): the RESULT, and how deep their consists nest (log
entry 20). -/
structure FarAns where
  /-- RESULT, 0 where they agree. -/
  res : Nat
  /-- Levels of nesting under the members there. -/
  depth : Nat
deriving DecidableEq, Repr

/-- How a frame arrived: whole, with a bad header CRC, or with a bad frame CRC (R386). -/
inductive Crc where
  /-- Both CRCs hold. -/
  | good
  /-- HCRC fails. -/
  | badHeader
  /-- The frame's CRC fails, or an error terminate block ends it. -/
  | badFrame
deriving DecidableEq, Repr

/-- Where a datagram comes from (R414): IPv4 address and UDP port. -/
structure Src where
  /-- IPv4 address. -/
  ip : Nat
  /-- UDP port. -/
  port : Nat
deriving DecidableEq, Repr

/-- What a follower is told of its consist when it is coupled (R54 to R56): the head's station, the consist, the member index,
whether it is a series consist, the head's LOST_N, what R48 asks of its range counts, the outer period in Line ticks. -/
structure Follow where
  /-- Head station. -/
  stn : Nat
  /-- Consist unit number. -/
  consist : Nat
  /-- Member index. -/
  idx : Nat
  /-- Series consist. -/
  ser : Bool
  /-- LOST_N of the head. -/
  lostN : Nat
  /-- The consist's range counts, less 1: current and voltage. -/
  ni : Nat
  /-- Voltage range count, less 1. -/
  nv : Nat
  /-- Outer period in Line ticks. -/
  per : Nat
deriving DecidableEq, Repr

/-- The commands (spec/opcode_table.json): each constructor carries what the outside world supplies with the command. `m` is a
master, `u` a unit, `d` a die, `e` an engine (die * 8 + engine), `q` a queue (die * 64 + queue), `c` a capture or DDR5 channel, `p` a
port, `sd` a siding of a die, `n` a loop tick, `t` an instant (a Line tick count), `r` an instant in sub-ticks, `ecc` the
error-correction findings in the command's reads (address, uncorrectable). -/
inductive Instr where
  /-- REGISTER_WRITE (R446): A master writes a register field that has no row of its own; the write takes effect at the unit's next guarded loop tick, or at once for fields no tick uses. -/
  | registerWrite (m : Master) (stn : Option Nat) (addr : Nat) (size : Nat) (val : Nat)
  /-- ACCESS_ERROR (R9): A misaligned or wrong-size access to the register region, or an access outside every mapped range, has no effect and the transport reports an access error. -/
  | accessError (m : Master) (addr : Nat) (size : Nat)
  /-- LOOP_TICK (R70): At a unit's loop tick the force path selects the target, slews the reference and hands it to the period's computation; watch, range and bin logic run at the same tick. -/
  | loopTick (u : Nat) (n : Nat) (smp : List (Nat × Sample))
  /-- GUARD_INSTANT (R26): Twenty nanoseconds before a loop tick, any work due at that tick that has not completed is judged late. -/
  | guardInstant (u : Nat) (late : Bool) (stepLate : Bool)
  /-- CAPTURE_DONE (R149): After POST further entries, the capture becomes DONE. -/
  | captureDone (c : Nat)
  /-- LATE_FAULT (R122): The run of late periods reaches LATE_RUN and the unit takes FLT_LATE. -/
  | lateFault (u : Nat)
  /-- FE_FAULT (R135): FE_RUN reaches FE_TIME and the unit takes FLT_FE. -/
  | feFault (u : Nat)
  /-- SENSE_FAULT (R136): SLW_RUN reaches SLW_N and the unit takes FLT_SENSE. -/
  | senseFault (u : Nat)
  /-- FROZEN_FAULT (R137): A frozen run reaches FRZ_N while the drive spread exceeds FRZ_D, and the unit takes FLT_FROZEN. -/
  | frozenFault (u : Nat)
  /-- CEIL_FAULT (R340): A ceiling run reaches CEIL_N and the unit takes FLT_CEIL, with action ISOLATE. -/
  | ceilFault (u : Nat)
  /-- FAULT_CLEAR (R143): U_FAULT_CLR CLR clears the fault registers and runs, moving the unit toward ISOLATED, unless a cause persists. -/
  | faultClear (m : Master) (u : Nat)
  /-- METRO_SOURCE_LOST (R24): The active metronome source is lost, so the metronome enters holdover and REF_LOST is set. -/
  | metroSourceLost
  /-- METRO_SOURCE_SWITCH (R24): Under AUTO, the metronome switches to the next available source without inserting or removing a tick. -/
  | metroSourceSwitch
  /-- METRO_SOURCE_RETURN (R24): Under a forced SRC, the lost source returns and the metronome leaves holdover. -/
  | metroSourceReturn
  /-- REFCLK_CLASSIFY (R23): The metronome classifies REFCLK as 10 MHz or 100 MHz, or treats it as absent. -/
  | refclkClassify (cls : Nat)
  /-- PREDICTION_CONFIRM (R32): A prediction is confirmed, so the speculation tags clear and the tagged work commits at its tick. -/
  | predictionConfirm (site : PredSite)
  /-- PREDICTION_REFUTE (R32): A prediction is refuted, so the tagged work is discarded, MISPREDICT increments and the correct path runs. -/
  | predictionRefute (site : PredSite)
  /-- TOKEN_REQUEST (R36): A requester asks for a shared-resource token, which is granted at once if free or else held pending by rank. -/
  | tokenRequest (res : Res) (req : Req)
  /-- TOKEN_RELEASE (R37): A token is released and granted to the pending request of highest rank, or round-robin among equal ranks. -/
  | tokenRelease (res : Res) (who : Nat)
  /-- DIE_FENCE (R68): The boot die fences a die whose Twill port has not acknowledged for 10 µs; its ISO_N is asserted and its members depart. -/
  | dieFence (d : Nat)
  /-- COUPLE (R48): U_COUPLE COUPLE checks the member list and couples the units into a consist, or reports a RESULT. -/
  | couple (m : Master) (u : Nat)
  /-- UNCOUPLE (R49): U_COUPLE UNCOUPLE returns each member of an isolated consist to its own uncoupled registers. -/
  | uncouple (m : Master) (u : Nat)
  /-- COUPLE_COMPLETE (R49): A coupling with remote members completes when they answer, or fails with RESULT 12 after 1 ms. -/
  | coupleComplete (u : Nat) (far : FarAns) (follow : Option Follow)
  /-- OUTER_TICK (R54): At each outer tick, the head station sends every follower an update carrying a due time. -/
  | outerTick (u : Nat) (t : Nat)
  /-- FOLLOWER_SILENCE (R56): LOST_N outer periods pass with no report from a follower, and the follower has departed. -/
  | followerSilence (u : Nat) (idx : Nat)
  /-- HEAD_SILENCE (R56): A follower that receives no update for LOST_N outer periods raises FLT_REMOTE_LOST on itself. -/
  | headSilence (u : Nat)
  /-- SNAP_LOWEST_READ (R62): A read of a snapshot object's lowest word takes a slot and copies the whole object atomically. -/
  | snapLowestRead (m : Master) (stn : Option Nat) (addr : Nat) (ecc : List (Nat × Bool))
  /-- SNAP_HIGHER_READ (R63): A read of a higher word returns that word of the copy; a read of the highest word releases the slot. -/
  | snapHigherRead (m : Master) (stn : Option Nat) (addr : Nat)
  /-- SNAP_SLOT_TIMEOUT (R64): A snapshot slot is released 20 µs after its last access or 50 µs after it was granted. -/
  | snapSlotTimeout (d : Nat) (who : Nat) (t : Nat)
  /-- REF_PUSH (R77): A U_REF_PUSH write enqueues one host entry, or is ignored or dropped, setting its flags. -/
  | refPush (m : Master) (u : Nat) (val : Nat)
  /-- REF_FLUSH (R79): U_REF_CMD FLUSH discards, at the next tick, the entries present when the write completed. -/
  | refFlush (m : Master) (u : Nat)
  /-- DRV_OT_TRIP (R92): The DRV buffer exceeds its trip temperature, so it enters LIMIT and FLT_DRV_OT is raised. -/
  | drvOtTrip (u : Nat)
  /-- DRV_OT_RELEASE (R92): The DRV buffer cools below its release point, DRV_OT clears and the buffer resumes its mode. -/
  | drvOtRelease (u : Nat)
  /-- POWER_ON_RESET_ASSERT (R421): VMAIN or VIO falls below its falling threshold and reset asserts, taking the station to COLD. -/
  | powerOnResetAssert
  /-- POWER_ON_RESET_RELEASE (R421): Reset is released 10 ms after both supplies are in range, and the straps are sampled. `fl0` and `fl1`
say of each head die's flash: bit 0 it has an SFDP table, bit 1 the table declares 8D-8D-8D; CAP and SECT above (R362). -/
  | powerOnResetRelease (bootsel : Bool) (stnmode : Bool) (fl0 : Nat) (fl1 : Nat)
  /-- POINTS_INIT (R98): 100 µs after reset release, the die shifts all-zeros to every position, latches it and reads it back. -/
  | pointsInit (d : Nat) (rbs : List Nat)
  /-- LOOP_CLOSE (R125): U_LOOP_CMD CLOSE closes the loop bumplessly from the hold value. -/
  | loopClose (m : Master) (u : Nat) (mode : Nat) (law : Nat)
  /-- LOOP_OPEN (R123): U_LOOP_CMD OPEN opens the loop and loads the hold value. -/
  | loopOpen (m : Master) (u : Nat) (mode : Nat) (law : Nat)
  /-- LOOP_SWITCH (R127): U_LOOP_CMD SWITCH applies the new mode and law set and closes bumplessly, all at one tick. -/
  | loopSwitch (m : Master) (u : Nat) (mode : Nat) (law : Nat)
  /-- LOOP_LOAD (R106): U_LOOP_CMD LOAD copies the selected law-set image into the live set and zeroes the law states. -/
  | loopLoad (m : Master) (u : Nat) (mode : Nat) (law : Nat)
  /-- CAP_ARM (R149): MUS_CAP_CMD ARM checks the capture and starts it writing entries, or refuses with a RESULT. -/
  | capArm (m : Master) (c : Nat)
  /-- CAP_STOP (R149): MUS_CAP_CMD STOP returns the capture to IDLE at once. -/
  | capStop (m : Master) (c : Nat)
  /-- CAP_FORCE (R150): MUS_CAP_CMD FORCE triggers the capture at its next captured entry. -/
  | capForce (m : Master) (c : Nat)
  /-- MEAS_OUTPUT (R157): At each multiple of 4·D metronome ticks, a measurement decimator produces an output for bins, LEAK and the C32 window. -/
  | measOutput (u : Nat) (path : Nat) (x : Nat) (lv : List Int) (ovr : List Bool)
  /-- C32_READ (R176): A read of a C32 data register returns the value and clears that path's NEW. -/
  | c32Read (m : Master) (g : Nat) (path : Nat)
  /-- AUX_CONVERSION_DONE (R177): An aux modulator conversion completes, its result is delivered to the requester and the token is released. -/
  | auxConversionDone (d : Nat) (who : Nat) (q : Int) (fwd : Int) (t : Nat)
  /-- POINTS_LATCH (R191): Once the points token is granted, a WRITE or BCAST frame is shifted out and latched at λ. -/
  | pointsLatch (d : Nat) (t : Nat)
  /-- POINTS_READBACK (R192): The READ of the latched position completes and is compared with the pattern written. -/
  | pointsReadback (d : Nat) (t : Nat) (rb : Nat)
  /-- AUTORANGE_DOWN (R199): The sample stays below DN_TH for DN_N ticks after holdoff, and a down change is decided. -/
  | autorangeDown (u : Nat)
  /-- ARMING_EXPIRE (R200): An unconfirmed SH arming lasts TTL periods and is refuted, returning SH to TRACK. -/
  | armingExpire (u : Nat)
  /-- CHANGE_DESIGNATE (R201): SH, once settled on the change's shadow setting, is designated; IRNG_F becomes h and MAKE is requested. -/
  | changeDesignate (u : Nat) (n : Nat)
  /-- CHANGE_RETARGET (R203): At the first loop tick after the MAKE latch, IS takes b's sense input and gain and its decimator restarts. -/
  | changeRetarget (u : Nat) (n : Nat)
  /-- CHANGE_BREAK (R203): S_make after the MAKE latch, the BREAK pattern is requested. -/
  | changeBreak (u : Nat) (n : Nat)
  /-- CHANGE_RETURN (R203): IS, settled on the new range, is designated again; PHASE becomes IDLE and U_RANGE_CHG increments. -/
  | changeReturn (u : Nat) (n : Nat)
  /-- RANGE_SEL_WRITE (R207): A write to U_RANGE_SEL walks, latches, records or holds a range change according to the loop state. -/
  | rangeSelWrite (m : Master) (u : Nat) (val : Nat)
  /-- TT_BIND (R210): A TT_BIND write binds an engine to a unit, or is refused with BIND_ERR. -/
  | ttBind (m : Master) (e : Nat) (unit : Nat) (valid : Bool)
  /-- TT_START (R214): TT_CMD START starts the engine at its first step tick, or refuses with a RESULT. -/
  | ttStart (m : Master) (e : Nat)
  /-- TT_STOP (R215): TT_CMD STOP halts the engine at the next guarded tick with WHY 2. -/
  | ttStop (m : Master) (e : Nat)
  /-- TT_RESET (R213): TT_CMD RESET returns a HALTED or FAULTED engine to IDLE. -/
  | ttReset (m : Master) (e : Nat)
  /-- TT_STEP (R217): At its step tick, the engine executes the run of instructions that make up one step and applies their effects in order. -/
  | ttStep (e : Nat)
  /-- HALT (R239): HALT halts the engine with WHY 1 and closes its open bins. -/
  | ttHalt (e : Nat)
  /-- SET (R224): SET pushes one reference entry due at the step tick, with an optional slew override. -/
  | ttSet (e : Nat) (ovr : Nat) (rsh : Nat) (rate : Nat) (value : Nat)
  /-- SWEEP (R231): SWEEP reads a descriptor and plays its LIN or LOG points, opening and closing bins at each point. -/
  | ttSweep (e : Nat) (a : Nat)
  /-- SWEEP_POINT (R231): At each point's first tick, the point's entry is pushed and the previous point's bins close; they reopen after SETTLE. -/
  | ttSweepPoint (e : Nat)
  /-- LIST (R232): LIST plays COUNT table entries, each with its own dwell and bin actions. -/
  | ttList (e : Nat) (count : Nat) (a : Nat)
  /-- LIST_ENTRY (R232): At an entry's first tick, the previous entry's closes, this entry's opens and its push are made. -/
  | ttListEntry (e : Nat)
  /-- PLAY (R233): PLAY checks a waveform segment and plays it REPEAT times. -/
  | ttPlay (e : Nat) (rep : Nat) (a : Nat)
  /-- PLAY_PASS (R233): A pass of the segment pushes one entry per tick, the last one carrying END. -/
  | ttPlayPass (e : Nat)
  /-- STREAM (R263): STREAM plays host ring entries from RP, one per tick, until N entries or an entry with LAST. -/
  | ttStream (e : Nat) (n : Nat)
  /-- STREAM_RESUME (R264): Under STRETCH, a stalled stream resumes once its missing entry is present. -/
  | ttStreamResume (e : Nat)
  /-- DWELL (R225): DWELL advances the step tick by N periods. -/
  | ttDwell (e : Nat) (n : Nat)
  /-- OPEN (R226): OPEN opens the bins named in BMASK at the step tick. -/
  | ttOpen (e : Nat) (bmask : Nat)
  /-- CLOSE (R226): CLOSE closes the bins named in BMASK at the step tick, emitting records. -/
  | ttClose (e : Nat) (bmask : Nat)
  /-- MODE (R227): MODE writes the mode and law set with the loop open, or issues SWITCH with the loop closed. -/
  | ttMode (e : Nat) (mode : Nat) (law : Nat)
  /-- RANGE (R228): RANGE applies AR_EN, IRNG and VRNG as host writes, and with WAIT waits for the ranges to settle. -/
  | ttRange (e : Nat) (irng : Nat) (vrng : Nat) (aren : Nat) (seti : Nat) (setv : Nat) (setar : Nat) (wait : Nat)
  /-- JUNCTION (R255): JUNCTION branches on an event, bin statistic or flag, evaluated directly or predicted. -/
  | ttJunction (e : Nat) (kind : Nat) (stat : Nat) (op : Nat) (bin : Nat) (th : Nat) (neg : Nat) (slot : Nat) (flag : Nat) (disp : Nat) (predict : Bool)
  /-- LOOP (R234): LOOP pushes a loop level with its count. -/
  | ttLoop (e : Nat) (count : Nat)
  /-- NEXT (R234): NEXT decrements the innermost loop level and repeats it or pops it. -/
  | ttNext (e : Nat)
  /-- MARK (R266): MARK sets or releases the stream ring's mark. -/
  | ttMark (e : Nat) (clr : Nat)
  /-- REWIND (R266): REWIND sets RP to the mark, or falls through after its count and releases the mark. -/
  | ttRewind (e : Nat) (count : Nat)
  /-- CALL (R235): CALL pushes the return address and the loop depth, and jumps to its target. -/
  | ttCall (e : Nat) (a : Nat)
  /-- RET (R235): RET discards the loop levels opened since the CALL and returns to the saved address. -/
  | ttRet (e : Nat)
  /-- WAITEV (R249): WAITEV waits on a watch slot, satisfied by a latched or a new event, or ends by timeout. -/
  | ttWaitev (e : Nat) (slot : Nat) (timeout : Nat) (disp : Nat)
  /-- SIGNAL (R252): SIGNAL raises a local or Line event due at the step tick plus DELAY. -/
  | ttSignal (e : Nat) (ev : Nat) (delay : Nat)
  /-- THERM (R236): THERM requests one sensor conversion at rank 4, and with WAIT waits for the result. -/
  | ttTherm (e : Nat) (sensor : Nat) (wait : Nat)
  /-- CONNECT (R237): The timetable CONNECT requests a connect if the unit is isolated, optionally closes the loop, and waits. -/
  | ttConnect (e : Nat) (cl : Nat)
  /-- ISOLATE (R238): The timetable ISOLATE requests isolation of the unit and waits until it is ISOLATED. -/
  | ttIsolate (e : Nat)
  /-- WAIT_CONDITION (R217): A waiting instruction's condition holds at tick w, and the engine resumes with S = w + 1. -/
  | ttWaitCondition (e : Nat)
  /-- WAITEV_TIMEOUT (R249): A WAITEV sees no event within TIMEOUT periods and continues at its timeout target. -/
  | ttWaitevTimeout (e : Nat)
  /-- LINE_FILL_DONE (R212): A prefetch-window line arrives from DDR5, and a stalled engine resumes. -/
  | ttLineFillDone (e : Nat) (line : Nat) (data : Bool) (ue : Bool)
  /-- EV_RAISE (R242): STN_EV_RAISE GO checks the event and due tick and schedules or sends the event, or refuses with a RESULT. -/
  | evRaise (m : Master) (ev : Nat) (nowF : Bool)
  /-- EVENT_SCHEDULE (R243): An event reaches the station scheduler and is held, joined, dropped as late, or dropped on a full scheduler. -/
  | eventSchedule (ev : Nat) (due : Nat) (t : Nat)
  /-- EVENT_ACT (R241): A pending event acts at its due tick on every die; it sets STN_EV_SEEN and drives trigger outputs. -/
  | eventAct (ev : Nat) (due : Nat)
  /-- TRIG_EDGE_QUALIFY (R247): A trigger input edge holds for FILT + 1 samples and raises its local event 32 ticks later. -/
  | trigEdgeQualify (k : Nat) (level : Bool) (q : Nat)
  /-- TRIG_PULSE_END (R247): WIDTH × 16 ticks after the latest action of its event, a trigger output is driven low. -/
  | trigPulseEnd (k : Nat) (t : Nat)
  /-- TRIG_DIR_WRITE (R247): A write that changes a trigger pin's DIR takes effect at once, cutting a pulse or discarding a qualification. -/
  | trigDirWrite (m : Master) (k : Nat) (val : Nat)
  /-- WATCH_EVENT_SEEN (R250): An event is seen at a watch slot not being waited on, and the slot's POLICY applies. -/
  | watchEventSeen (e : Nat) (k : Nat)
  /-- JUMP_REQUEST (R256): TT_JUMP REQ asks the engine to continue at the armed target, or is ignored with a RESULT. -/
  | jumpRequest (m : Master) (e : Nat) (brk : Bool)
  /-- JUMP_TARGET_WRITE (R256): A write of TT_JUMP_TGT's high word makes the target pair take effect. -/
  | jumpTargetWrite (m : Master) (e : Nat) (val : Nat)
  /-- JUMP_TAKE (R259): At the next jump point, the jump discards pushed entries, applies the due closes, cuts the stacks and continues at the target. -/
  | jumpTake (e : Nat)
  /-- SR_WP_WRITE (R261): A write to TT_SR_WP advances the stream ring's write count; any other write while a STREAM plays is ignored. -/
  | srWpWrite (m : Master) (e : Nat) (val : Nat)
  /-- RECORD_PLACE (R271): A record engine places a record whole in its queue or staging buffer and advances WP. -/
  | recordPlace (d : Nat)
  /-- SPILL_MOVE (R275): Holding the Twill token, a staged packet moves to the log ring in DDR5. -/
  | spillMove (q : Nat)
  /-- QUEUE_ENABLE (R272): A Q_CFG write of EN from 0 to 1 checks the configuration and enables the queue, or sets BADCFG. -/
  | queueEnable (m : Master) (q : Nat) (val : Nat)
  /-- QUEUE_DISABLE (R272): A Q_CFG write of EN = 0 disables the queue and discards its contents. -/
  | queueDisable (m : Master) (q : Nat) (val : Nat)
  /-- HEAD_COPY (R276): A read of Q_HEAD word 0 copies the head packet into the reading master's snapshot slot. -/
  | headCopy (m : Master) (q : Nat) (ecc : List (Nat × Bool))
  /-- HEAD_POP (R277): A read of the copied packet's last word releases the slot and pops the packet if it is still at RP. -/
  | headPop (m : Master) (q : Nat)
  /-- DROP_REST (R278): Q_CMD DROP_REST acts as the master's read of the last word, popping the copied packet. -/
  | dropRest (m : Master) (q : Nat)
  /-- QUEUE_FLUSH (R279): Q_CMD FLUSH sets RP to WP. -/
  | queueFlush (m : Master) (q : Nat)
  /-- QUEUE_RELEASE (R279): A Q_RELEASE write advances RP by a valid whole-packet amount, or is ignored with REL_IGN. -/
  | queueRelease (m : Master) (q : Nat) (val : Nat)
  /-- SCRUB_PASS (R287): The patrol scrub reads every installed DDR5 byte once per PERIOD hours. -/
  | scrubPass (c : Nat) (ecc : List (Nat × Bool))
  /-- DDR_TRAIN (R289): DDR_CMD TRAIN retrains a channel, whose capacity is 0 while training runs. -/
  | ddrTrain (m : Master) (c : Nat)
  /-- DDR_TRAIN_DONE (R288): Training of a DDR5 channel completes, or fails, and the installed capacity is set. -/
  | ddrTrainDone (c : Nat) (ok : Bool)
  /-- CAL_VISIT (R306): CAL_CMD VISIT starts an extra calibration visit at once. -/
  | calVisit (m : Master) (d : Nat) (ch : Nat)
  /-- ROTA_VISIT (R310): The rota scheduler starts the next visit every PERIOD / n seconds. -/
  | rotaVisit (d : Nat) (t : Nat)
  /-- SIDING_TOKEN_TIMEOUT (R307): No siding token is granted within 1 s, and the visit ends CAL_SKIP with reason 6. -/
  | sidingTokenTimeout (d : Nat) (sd : Nat) (t : Nat)
  /-- TAKEOVER_START (R298): With the siding token held, the siding starts shadowing the channel's sense pins and states. -/
  | takeoverStart (d : Nat) (sd : Nat)
  /-- HANDOVER (R300): At a boundary tick within tolerance, DRV and sense pass to the siding, and the channel becomes SIDED. -/
  | handover (d : Nat) (sd : Nat) (n : Nat) (own : Sample) (other : Sample)
  /-- TAKEOVER_TIMEOUT (R299): No handover tick comes within WAIT, and the takeover is abandoned with reason 9 or 11. -/
  | takeoverTimeout (d : Nat) (sd : Nat) (t : Nat)
  /-- CAL_STEP (R304): A 20 ms calibration step applies its source and averages 16 outputs per converter. -/
  | calStep (d : Nat) (sd : Nat) (outs : List (Int × Int × Int)) (ovl : Bool)
  /-- SIDING_RETURN (R301): At the return tick the channel's own converters and buffer take over again and pending corrections apply. -/
  | sidingReturn (d : Nat) (sd : Nat) (n : Nat) (own : Sample) (other : Sample)
  /-- RETURN_TIMEOUT (R301): The return tolerance fails for WAIT, so the corrections are discarded and the visit ends CAL_REJECT. -/
  | returnTimeout (d : Nat) (sd : Nat) (t : Nat)
  /-- CAL_STANDIN (R311): CAL_CMD STANDIN makes a siding serve a channel, with or without a tolerance check. -/
  | calStandin (m : Master) (d : Nat) (ch : Nat) (sd : Nat) (force : Bool)
  /-- CAL_RETURN (R311): CAL_CMD RETURN detaches or returns the stand-in siding. -/
  | calReturn (m : Master) (d : Nat) (ch : Nat)
  /-- CAL_EXT_STDV (R312): CAL_CMD EXT_STDV calibrates CAL_AREFX against a voltage standard at CALS. -/
  | calExtStdv (m : Master) (d : Nat)
  /-- CAL_EXT_RANGE (R313): CAL_CMD EXT_RANGE takes one point of a two-point range calibration and computes ROFF and RGAIN at point 1. -/
  | calExtRange (m : Master) (d : Nat) (point : Nat)
  /-- CAL_FACTORY_STORE (R314): CAL_CMD FACTORY_STORE writes the die's sets to slot F, spending one counted rewrite. -/
  | calFactoryStore (m : Master) (d : Nat)
  /-- CAL_STORE (R316): CAL_CMD STORE stores the correction sets to slot A or B. -/
  | calStore (m : Master) (d : Nat)
  /-- STORE_DUE (R316): CAL_STORE_CFG.HOURS have passed since the last store, and a store runs. -/
  | storeDue (d : Nat) (t : Nat)
  /-- NVM_PAGE_DONE (R315): An NVM page program completes and releases the NVM token. -/
  | nvmPageDone (d : Nat) (ok : Bool)
  /-- ILK_OPENING (R322): ILK0 or ILK1 reads open for 10 µs, asserting ILK_OPEN and taking units off their loads. -/
  | ilkOpening (t : Nat) (i0 : Bool) (i1 : Bool) (both : Bool)
  /-- ILK_CLOSING (R322): Both interlock inputs read closed for 50 ms, releasing ILK_OPEN. -/
  | ilkClosing (t : Nat)
  /-- ILK_DISCREPANCY (R322): The two interlock inputs differ for 100 ms, setting DISC. -/
  | ilkDiscrepancy (t : Nat) (i0 : Bool)
  /-- KEY_PRESS (R324): A qualified press of START or KEY0–KEY3 raises its local event when enabled. -/
  | keyPress (k : Nat) (t : Nat)
  /-- KEY_RELEASE (R324): A qualified key release updates STN_PANEL. -/
  | keyRelease (k : Nat) (t : Nat)
  /-- ABORT_PRESS (R324): A qualified ABORT press asserts the ABORT line and takes units off their loads. -/
  | abortPress (t : Nat)
  /-- ABORT_RELEASE (R324): A qualified ABORT release deasserts the ABORT line. -/
  | abortRelease (t : Nat)
  /-- FIX_ABSENT (R325): A qualified fixture absence refuses connects and takes the mapped units off their loads. -/
  | fixAbsent (k : Nat) (t : Nat)
  /-- FIX_PRESENT (R325): A qualified fixture presence is recorded. -/
  | fixPresent (k : Nat) (t : Nat)
  /-- FIXMASK_WRITE (R325): A FIXMASK write that names an absent input acts as an absence at the unit's next tick. -/
  | fixmaskWrite (m : Master) (u : Nat) (val : Nat)
  /-- CONN_CONNECT (R327): U_CONN_CMD CONNECT moves an isolated unit to CHECKING, or refuses with a RESULT. -/
  | connConnect (m : Master) (u : Nat)
  /-- CONN_ISOLATE (R332): U_CONN_CMD ISOLATE takes the unit off its load with a T_SAFE deadline. -/
  | connIsolate (m : Master) (u : Nat)
  /-- CHECK_LATCH_REQUEST (R328): ISO_SETTLE after ISO_N release, the connect pattern is requested at rank 1. -/
  | checkLatchRequest (u : Nat) (n : Nat)
  /-- CHECK_SETTLED (R328): SETTLE_max after the connect latch, the check begins driving ±A. -/
  | checkSettled (u : Nat) (n : Nat)
  /-- CHECK_RESULT (R329): After N periods the contact check is evaluated and the unit enters CONNECTED_OPEN or takes FLT_CONTACT. -/
  | checkResult (u : Nat)
  /-- UNIT_SAFING (R332): An affected unit enters SAFING at its first loop tick whose guard instant falls 100 ns after the cause, and its ramp starts. -/
  | unitSafing (u : Nat) (n : Nat)
  /-- ISOLATION_REQUEST (R333): After the ramp settles within U_SAFE_TH, or at the deadline tick, the Interlocking requests the safe-pattern latch. -/
  | isolationRequest (u : Nat)
  /-- ISOLATION_COMPLETE (R333): After the isolation readback, the unit becomes ISOLATED or FAULTED, isolated, at its next loop tick. -/
  | isolationComplete (u : Nat) (n : Nat)
  /-- ISO_BACKSTOP (R335): T_SAFE after ILK_OPEN or ABORT, the hardwired backstop asserts the die's ISO_N. -/
  | isoBackstop (d : Nat) (t : Nat)
  /-- CEIL_COMMIT (R341): A new ILK_CEIL_GEN value commits the staged ceilings and spends one count, or is refused. -/
  | ceilCommit (m : Master) (d : Nat) (gen : Nat)
  /-- THERM_PASS (R345): Every PERIOD ms, the thermal supervisor converts every enabled sensor. -/
  | thermPass (d : Nat) (t : Nat)
  /-- THERM_EMERGENCY (R345): Every 1 ms, the supervisor converts each sensor at STOP or above. -/
  | thermEmergency (d : Nat) (t : Nat)
  /-- TH_CONVERT (R345): TH_CMD GO requests one conversion of a sensor at rank 6. -/
  | thConvert (m : Master) (d : Nat) (sensor : Nat)
  /-- COMP_UPDATE (R354): Each compensation period, T_d is measured and the REF and OSC tables are re-evaluated. -/
  | compUpdate (d : Nat)
  /-- OSC_COMP_APPLY (R355): A new OSC value enters the metronome at the next tick that is a multiple of 4,096. -/
  | oscCompApply (t : Nat)
  /-- CENSUS_TIMEOUT (R360): A die that has not answered 20 ms after reset release is fenced. -/
  | censusTimeout (d : Nat) (t : Nat)
  /-- IMAGE_READ_DONE (R370): One read of the image completes; it is verified, or its records, or its deferred records, are applied. -/
  | imageReadDone (err : Bool) (ecc : List (Nat × Bool))
  /-- LEAVE_BOOTING (R357): With ceilings and calibration loaded, the station leaves BOOTING for DARK or RUN and START records are issued. -/
  | leaveBooting
  /-- IMG_LOAD_MEMORY (R373): STN_IMG_LOAD memory boots a HELD station from an image in an aperture. -/
  | imgLoadMemory (m : Master)
  /-- IMG_LOAD_FLASH_A (R373): STN_IMG_LOAD flash A boots a HELD station from flash slot A. -/
  | imgLoadFlashA (m : Master)
  /-- IMG_LOAD_FLASH_B (R373): STN_IMG_LOAD flash B boots a HELD station from flash slot B. -/
  | imgLoadFlashB (m : Master)
  /-- ATTEST (R375): STN_ATT_CMD GO starts an attestation report signed by the chosen die. -/
  | attest (m : Master) (signer : Nat)
  /-- ATTEST_DONE (R376): The signed attestation report completes and DONE is set. -/
  | attestDone
  /-- BIND_WRITE (R379): A write to STN_BIND that changes the binding spends one count and writes an audit entry. -/
  | bindWrite (m : Master) (val : Nat)
  /-- RELIEF_WRITE (R359): A write to STN_RELIEF.EN changes the relief-boot enable as a counted setting. -/
  | reliefWrite (m : Master) (val : Nat)
  /-- KEY_PROGRAM (R380): STN_KEY_CMD PROGRAM moves a BLANK key slot to ACTIVE with the staged digest. -/
  | keyProgram (m : Master) (slot : Nat)
  /-- KEY_REVOKE (R380): STN_KEY_CMD REVOKE moves a key slot to REVOKED. -/
  | keyRevoke (m : Master) (slot : Nat)
  /-- XSPI_READ (R364): STN_XSPI_CMD READ copies flash to memory. -/
  | xspiRead (m : Master) (head : Nat)
  /-- XSPI_PROGRAM (R364): STN_XSPI_CMD PROGRAM copies memory to flash. -/
  | xspiProgram (m : Master) (head : Nat)
  /-- XSPI_ERASE (R364): STN_XSPI_CMD ERASE erases whole flash sectors. -/
  | xspiErase (m : Master) (head : Nat)
  /-- XSPI_DONE (R382): A flash operation completes, and a FLASH audit entry is queued for image-slot changes. -/
  | xspiDone (ok : Bool)
  /-- AUD_NOTE (R381): A write to STN_AUD_NOTE queues a NOTE audit entry. -/
  | audNote (m : Master) (val : Nat)
  /-- AUDIT_WRITE (R382): A queued audit entry is written to NVM with its chain value. -/
  | auditWrite
  /-- PORT_MODE_WRITE (R384): A write that changes a port's MODE takes the port DOWN, after which it trains in the new mode. -/
  | portModeWrite (m : Master) (p : Nat) (mode : Nat)
  /-- PORT_UP (R385): After block lock and 64 valid link words, a port becomes UP. -/
  | portUp (p : Nat)
  /-- PORT_DOWN (R385): Lost block lock, or 8 µs without a link word, takes a port DOWN and discards its lane state. -/
  | portDown (p : Nat) (t : Nat) (lock : Bool)
  /-- LINK_WORD (R390): A received link word returns frame credits and acknowledges SEQ for a lane. -/
  | linkWord (p : Nat) (lane : Nat) (credits : Nat) (ack : Nat) (t : Nat)
  /-- LINK_WORD_SEND (R385): An UP port sends a link word at least every 1 µs. -/
  | linkWordSend (p : Nat) (lane : Nat) (t : Nat)
  /-- GO_BACK_RESEND (R391): When ACK has not advanced for 2 µs, all unacknowledged frames are resent. -/
  | goBackResend (p : Nat) (lane : Nat) (t : Nat)
  /-- SYNC (R403): A received SYNC selects the upstream port and updates the offset that steers the metronome. -/
  | sync (p : Nat) (f : Frame) (crc : Crc) (r : Nat)
  /-- SYNC_SEND (R403): A station with Line time sends a SYNC on every UP port at each multiple of 4,096 ticks. -/
  | syncSend (t : Nat)
  /-- DELAY_EXCHANGE (R403): Every 1 ms, each UP port sends a DELAY_REQ to its peer. -/
  | delayExchange (p : Nat) (t : Nat)
  /-- DELAY_REQ (R403): A received DELAY_REQ is answered with a DELAY_RSP carrying t2 and t3. -/
  | delayReq (p : Nat) (f : Frame) (crc : Crc) (r : Nat)
  /-- DELAY_RSP (R403): A received DELAY_RSP updates the port's link delay. -/
  | delayRsp (p : Nat) (f : Frame) (crc : Crc) (r : Nat)
  /-- TIME_STEP (R404): A DARK station steps its count to Line time at a tick that is a multiple of 4,096. -/
  | timeStep (t : Nat)
  /-- LINE_LOCKED (R404): After 16 consecutive SYNCs with |e| ≤ 1 ns, the station is LOCKED. -/
  | lineLocked
  /-- LINE_TIME_LOST (R406): No SYNC arrives for 100 µs, so LOCKED clears and LOCK_LOST is set. -/
  | lineTimeLost (t : Nat)
  /-- MASTER_TAKEOVER (R399): A candidate with no lower SYNC for 1 ms becomes Line master. -/
  | masterTakeover (t : Nat)
  /-- EVENT (R243): A received EVENT frame is scheduled if its Line event is enabled, and is forwarded. -/
  | event (p : Nat) (f : Frame) (crc : Crc) (t : Nat)
  /-- OUTER (R55): A follower receives an outer update and applies it at its due tick, or drops it as late. -/
  | outer (p : Nat) (f : Frame) (crc : Crc) (t : Nat) (head : Shown)
  /-- REPORT (R56): The head station receives a follower's measurement report for the consist feedback. -/
  | report (p : Nat) (r : Reported) (crc : Crc) (t : Nat)
  /-- RD_REQ (R397): A read request is served as 32-bit accesses and answered with RD_RSP. -/
  | rdReq (p : Nat) (f : Frame) (crc : Crc) (t : Nat) (ecc : List (Nat × Bool))
  /-- RD_RSP (R397): A read response completes the requester's pending read. -/
  | rdRsp (p : Nat) (f : Frame) (crc : Crc) (t : Nat)
  /-- WR_REQ (R397): A write request is served as 32-bit accesses and answered with WR_RSP unless it is group or broadcast. -/
  | wrReq (p : Nat) (f : Frame) (crc : Crc) (t : Nat)
  /-- WR_RSP (R397): A write response completes the requester's pending write. -/
  | wrRsp (p : Nat) (f : Frame) (crc : Crc) (t : Nat)
  /-- ACCESS_TIMEOUT (R397): No response to a Line request within 2 ms, and the issuer reports TIMEOUT. -/
  | accessTimeout (tag : Nat) (t : Nat)
  /-- NOTICE (R281): A queue notice message is received and delivered locally. -/
  | notice (p : Nat) (f : Frame) (crc : Crc) (t : Nat)
  /-- ANNOUNCE (R400): An ANNOUNCE is forwarded upstream with its serial recorded, or answered by the master with an ASSIGN. -/
  | announce (p : Nat) (f : Frame) (crc : Crc) (t : Nat)
  /-- ANNOUNCE_SEND (R400): An unannounced station sends an ANNOUNCE every 10 ms. -/
  | announceSend (t : Nat)
  /-- ASSIGN (R400): An ASSIGN is forwarded by serial record, or gives the station its number or DUP, with routes learned. -/
  | assign (p : Nat) (f : Frame) (crc : Crc) (t : Nat)
  /-- HELLO (R401): The master receives a HELLO from an announced station. -/
  | hello (p : Nat) (f : Frame) (crc : Crc) (t : Nat)
  /-- HELLO_SEND (R401): Every announced non-master station sends HELLO to the master every 1 ms. -/
  | helloSend (t : Nat)
  /-- HELLO_TIMEOUT (R401): After 3 ms without a HELLO from a station, the master broadcasts LOST naming it. -/
  | helloTimeout (stn : Nat) (t : Nat)
  /-- LOST (R401): A received LOST counts in TW_LOST_CNT, departs followers, and makes a named station re-announce. -/
  | lost (p : Nat) (f : Frame) (crc : Crc) (t : Nat)
  /-- ETH_OPEN (R414): A datagram OPEN binds an Ethernet session to its source, or is answered BUSY. -/
  | ethOpen (p : Nat) (sess : Nat) (src : Src) (seq : Nat) (note : Bool) (t : Nat)
  /-- ETH_CLOSE (R414): A datagram CLOSE releases an Ethernet session. -/
  | ethClose (p : Nat) (sess : Nat) (src : Src) (seq : Nat) (t : Nat)
  /-- ETH_READ (R414): A datagram READ is served as a system-wide read and answered. -/
  | ethRead (p : Nat) (sess : Nat) (src : Src) (seq : Nat) (addr : Nat) (count : Nat) (t : Nat) (ecc : List (Nat × Bool))
  /-- ETH_WRITE (R414): A datagram WRITE is served as a system-wide write and answered, unless it repeats the last SEQ. -/
  | ethWrite (p : Nat) (sess : Nat) (src : Src) (seq : Nat) (addr : Nat) (data : List Nat) (t : Nat)
  /-- ETH_SESSION_IDLE (R414): A session idle for 10 s may be taken by another source. -/
  | ethSessionIdle (p : Nat) (sess : Nat) (t : Nat)
  /-- ARP_REQUEST (R412): An ARP request for ETH_IP is answered. -/
  | arpRequest (p : Nat) (target : Nat) (ip : Nat) (mac : Nat) (t : Nat)
  /-- ICMP_ECHO (R412): An ICMP echo request is answered. -/
  | icmpEcho (p : Nat) (target : Nat)
  /-- PTP_MESSAGE (R413): A PTP message updates the slave-only clock and the PTP-derived Line count. -/
  | ptpMessage (p : Nat) (t : Nat) (ofs : Int) (ns : Nat) (lock : Bool)
  /-- SPI_READ (R415): An SPI target frame with RD = 1 reads words and returns STATUS and data. -/
  | spiRead (start : Option (Nat × Nat)) (ecc : List (Nat × Bool))
  /-- SPI_WRITE (R415): An SPI target frame with RD = 0 writes words and returns STATUS. -/
  | spiWrite (start : Option (Nat × Nat)) (val : Nat)
  /-- SPI_CS_RISE (R415): CS_N rises and ends the SPI frame, discarding any partly sent data word. -/
  | spiCsRise
  /-- BUILT_IN_SELF_TEST_DONE (R360): A die's built-in self-test ends and reports pass or fail; a failing die is fenced with its BIST_FAIL bit set, and its Interlocking is live from that moment. -/
  | builtInSelfTestDone (d : Nat) (fail : Nat)
  /-- MUSLIN_EXTENSION_MOVE (R151): Holding the Twill path token at rank 6, a Muslin entry in the 4 KiB staging buffer is written to the DDR5 ring, freeing staging space. -/
  | muslinExtensionMove (c : Nat)
  /-- FRAME_BOUNDARY (R389): A Tweed port finishes sending a frame or link word and picks the next ready frame by TIME, CTRL share and MGMT/DATA deficit round robin; a fully forwarded frame returns its credit. -/
  | frameBoundary (p : Nat) (t : Nat) (phase : Nat)
deriving DecidableEq, Repr

end Sys2Proof
end

