-- ==== Sys2Proof/Decode.lean ====
section
/-! DEFINITION. The command that a table word spells. The table gives its rows no bits, so no word spells one. -/

namespace Sys2Proof

/-- The command of a word of spec/opcode_table.json: its rows give no bits. -/
def decodeTableWord (_nbits _w : Nat) : Option Instr := none

end Sys2Proof
end

