-- ==== Sys2Proof/Config.lean ====
section
/-! DEFINITION. What the spec leaves open: the free values, as constants without a body, and the
signatures made with a private key that the spec does not give. -/

namespace Sys2Proof

/-- A free value by draw number: nothing constrains it (notes/assumptions/1.md). -/
opaque Config.freeValue : Nat → Nat

/-- The ECDSA signature a head die's identity key makes over a digest (R374 to R376): die, digest. -/
opaque Config.ecdsaSign : Nat → Nat → List Nat

end Sys2Proof
end

