-- ==== Sys2Proof/Machine/Arith.lean ====
section
/-! DEFINITION. Exact arithmetic of the manual: rounding half away from zero, saturation, two's-complement readings and
bit fields. Values are computed exactly on `Int` and narrowed at the end. -/

namespace Sys2Proof.Machine

/-- The 32-bit two's-complement reading of a word (R1). -/
def sx32 (n : Nat) : Int := if n % 2 ^ 32 < 2 ^ 31 then (n % 2 ^ 32 : Nat) else ((n % 2 ^ 32 : Nat) : Int) - 2 ^ 32

/-- The two's-complement reading of the low `w` bits of `n`. -/
def sxw (w n : Nat) : Int := if n % 2 ^ w < 2 ^ (w - 1) then (n % 2 ^ w : Nat) else ((n % 2 ^ w : Nat) : Int) - 2 ^ w

/-- The `w`-bit word that stands for an integer, modulo 2^w. -/
def toW (w : Nat) (x : Int) : Nat := (x % (2 ^ w : Nat)).toNat

/-- The 32-bit word that stands for a code (R1). -/
def u32 (x : Int) : Nat := toW 32 x

/-- `a / d`, rounded half away from zero (R82, R109, R182). -/
def rdiv (a : Int) (d : Nat) : Int :=
  if 0 ≤ a then ((2 * a.toNat + d) / (2 * d) : Nat) else - (((2 * a.natAbs + d) / (2 * d) : Nat) : Int)

/-- The sums of `k` values `q` apart, as an impulse response: each is the response `h` shifted by a multiple of `q` (R156, R158). -/
def comb (k q : Nat) (h : List Nat) : List Nat :=
  (List.range (h.length + (k - 1) * q)).map (fun j => ((List.range k).filter (fun i => decide (i * q ≤ j))).foldl (fun a i => a + h.getD (j - i * q) 0) 0)

/-- The impulse response of a sinc filter of order `n` and ratio `d`: `n` running sums of `d` levels (R155, R156). -/
def sincH (n d : Nat) : List Nat := Nat.repeat (comb d 1) n [1]

/-- The impulse response of a measurement filter: sinc, and with the post-FIR five 4-point sums of the outputs of ratio D/4 (R156, R158). -/
def filterH (n d : Nat) (fir : Bool) : List Nat := if fir then Nat.repeat (comb 4 (d / 4)) 5 (sincH n (d / 4)) else sincH n d

/-- y of R154: the sum over j of h(j) · m(x - j), the levels newest first. -/
def filterSum (h : List Nat) (m : List Int) : Int := m.zipIdx.foldl (fun a p => a + h.getD p.2 0 * p.1) 0

/-- `a / d`, truncated toward zero (R173). -/
def tdiv (a : Int) (d : Nat) : Int :=
  if 0 ≤ a then (a.toNat / d : Nat) else - ((a.natAbs / d : Nat) : Int)

/-- Saturation to 0x8000_0000 .. 0x7FFF_FFFF (R109). -/
def sat32 (x : Int) : Int := max (-(2 ^ 31)) (min x (2 ^ 31 - 1))

/-- Saturation of a measurement to ±(2^31 − 1) (R3). -/
def satM (x : Int) : Int := max (-(2 ^ 31 - 1)) (min x (2 ^ 31 - 1))

/-- The symmetric clamp to ±`l` (R84, R89). -/
def clampTo (l x : Int) : Int := max (-l) (min x l)

/-- |x| as an integer. -/
def iabs (x : Int) : Int := x.natAbs

/-- The bits `[hi:lo]` of a word. -/
def bits (n hi lo : Nat) : Nat := n / 2 ^ lo % 2 ^ (hi - lo + 1)

/-- Bit `i` of a word. -/
def bit (n i : Nat) : Bool := n / 2 ^ i % 2 == 1

/-- 1 for `true`, 0 for `false`. -/
def b2n (b : Bool) : Nat := if b then 1 else 0

/-- `n` with bit `i` set. -/
def setBit (n i : Nat) : Nat := if bit n i then n else n + 2 ^ i

/-- `n` with bit `i` cleared. -/
def clrBit (n i : Nat) : Nat := if bit n i then n - 2 ^ i else n

/-- Increment that stops at `m`. -/
def satInc (m n : Nat) : Nat := if n < m then n + 1 else m

/-- Addition that stops at `m`. -/
def satAdd (m a b : Nat) : Nat := min m (a + b)

/-- The least multiple of `p` that is at least `x` (`x` where `p` is 0). -/
def ceilTo (p x : Nat) : Nat := if p = 0 then x else (x + p - 1) / p * p

/-- Whether a list of bits has bit `i` of `n` set, over the indices below `k`: the set indices. -/
def bitIdx (k n : Nat) : List Nat := (List.range k).filter (fun i => bit n i)

/-- The number of set bits of `n` below bit `k`. -/
def popCount (k n : Nat) : Nat := (bitIdx k n).length

/-- Metronome ticks in `ns` nanoseconds, rounded up (R22: 245.76 MHz). -/
def ticksOfNs (ns : Nat) : Nat := (ns * 24576 + 99999) / 100000

/-- Metronome ticks in `us` microseconds, rounded up (R22: 245.76 MHz). -/
def ticksOfUs (us : Nat) : Nat := (us * 24576 + 99) / 100

/-- `n` bytes of a number, lowest first. -/
def bytesOf : Nat → Nat → List Nat
  | 0, _ => []
  | n + 1, v => v % 256 :: bytesOf n (v / 256)

/-- `n` 32-bit words of a number, lowest first. -/
def wordsOf : Nat → Nat → List Nat
  | 0, _ => []
  | n + 1, v => v % 2 ^ 32 :: wordsOf n (v / 2 ^ 32)

end Sys2Proof.Machine
end

