-- ==== Sys2Proof/Machine/State.lean ====
section
/-! DEFINITION. The state of the station, as plain data: the register file (every field of every register table), memory,
and the state the rules name that no register shows (queues, law states, changes and checks in progress, tokens,
schedulers). Also the closed reasons for a stop, and the state right after reset. -/

namespace Sys2Proof.Machine

/-- Why the machine stops. No command of this block stops it: every rule of the spec gives a command an effect. The type is
kept closed for the host's interface. -/
inductive Fault where
  /-- Raised by nothing (safe: the model never stops where the hardware goes on). -/
  | none
deriving DecidableEq, Repr

/-- Why a command has no meaning. -/
inductive Refusal where
  /-- A command of the table that has no meaning yet (safe). -/
  | notModelled (mnemonic : String)
deriving DecidableEq, Repr

/-- A table of values by key; an unlisted key has a default that the reader names. -/
abbrev Tab (κ α : Type) := List (κ × α)

/-- The blocks the register map divides into (R44, R58, R59). -/
inductive Blk where
  | stn | die | unit | cap | c32 | eng | queue | sens | port | cset | eth
deriving DecidableEq, Repr

/-- Access types (R11). -/
inductive Acc where
  | rw | ro | wo | w1c | rc | snap | lck | cnt | cmd
deriving DecidableEq, Repr

/-- A register field: its block, bit position within the block, width, instances, access type and reset value. -/
structure Fld where
  blk : Blk
  pos : Nat
  width : Nat
  stride : Nat := 0
  count : Nat := 1
  acc : Acc
  reset : Nat
deriving DecidableEq, Repr

/-- The place of a stored field: block, instance of the block, bit position. -/
structure RegKey where
  blk : Blk
  inst : Nat
  pos : Nat
deriving DecidableEq, Repr

/-- An entry of the reference queue (R76). -/
structure RefEntry where
  value : Int
  ovr : Option Nat := none
  last : Bool := false
  src : Nat := 0
  /-- Speculation tag (R30): derived from a prediction that has not been confirmed. -/
  tag : Bool := false
deriving DecidableEq, Repr

/-- A write or command of a unit window that waits for its tick (R11, R123, R143, R327, R446). -/
inductive PendAct where
  /-- A word write at a byte offset of the window. -/
  | word (off val : Nat)
  /-- U_LOOP_CMD: command, new mode, new law. -/
  | loop (cmd mode law : Nat)
  /-- U_FAULT_CLR. -/
  | clear
  /-- U_CONN_CMD. -/
  | conn (cmd : Nat)
  /-- A write of U_RANGE_SEL with the mask of fields written: IRNG, VRNG, AR_EN. -/
  | range (irng vrng : Nat) (ar : Nat)
  /-- A fault to be raised at the unit's next guarded tick, with its action (R192, R352). -/
  | fault (code act : Nat)
deriving DecidableEq, Repr

/-- A pending action, and whether a guard instant has passed since it arrived. -/
structure Pend where
  act : PendAct
  ready : Bool := false
deriving DecidableEq, Repr

/-- The clock of a unit: its last loop tick, the rate in force, and the guard instant before its next tick. -/
structure ClockS where
  ticked : Bool := false
  last : Nat := 0
  /-- No loop tick before this count (R404: a step of the count leaves a whole period before the next tick). -/
  floor : Nat := 0
  guarded : Bool := false
  late : Bool := false
  stepLate : Bool := false
deriving DecidableEq, Repr

/-- The reference queue beside its registers (R70 to R88). -/
structure RefS where
  q : List RefEntry := []
  /-- Entries present at the guard instant. -/
  ready : Nat := 0
  /-- Entries a FLUSH discards at the next tick. -/
  flush : Nat := 0
  /-- The override of the present target. -/
  ovr : Option Nat := none
  /-- The slewed reference and target before the tick's slew step. -/
  rBefore : Int := 0
  tBefore : Int := 0
  /-- The tick whose slew step has been made (R70). -/
  slewAt : Option Nat := none
deriving DecidableEq, Repr

/-- The work of a period: what is committed at the next tick unless it is late. -/
structure Work where
  /-- Drive code after the clamp. -/
  drive : Int := 0
  limited : Bool := false
  win : Nat := 0
  /-- Law states to commit, by law * 8 + section. -/
  z : Tab Nat (Int × Int) := []
  /-- Share-law states and correction to commit. -/
  zs : Int × Int := (0, 0)
  corr : Int := 0
  /-- Whether a law computed it. -/
  closed : Bool := false
  /-- Muslin nodes of the period (R146). -/
  nodes : Tab Nat Int := []
  /-- Speculation tag (R30). -/
  tag : Bool := false
deriving DecidableEq, Repr

/-- The loop engine of a unit. -/
structure LawS where
  z : Tab Nat (Int × Int) := []
  zs : Int × Int := (0, 0)
  work : Option Work := none
  /-- The hold value while the bumpless initialisation is not committed (R125, R126). -/
  init : Option Int := none
  /-- The predicted reference of R114 with the table block it was made for, and whether it has been confirmed. -/
  pred : Option (Int × Nat) := none
  predOk : Bool := false
  /-- Setpoints converted to the ranges in force (R187), before and after the clamp to the ceiling codes (R339). -/
  c1 : Int := 2147483647
  c2 : Int := -2147483647
  c3 : Int := 2147483647
  sp1 : Int := 2147483647
  sp2 : Int := -2147483647
  sp3 : Int := 2147483647
  cv : Int := 2147483647
  ci : Int := 2147483647
  cp : Int := 2147483647
  /-- The derating factor waiting for a boundary (R104). -/
  derate : Option Nat := none
  /-- The last period's traced nodes, its tick, its lateness and its compliance. -/
  nodes : Tab Nat Int := []
  nodeTick : Nat := 0
  prevCompl : Bool := false
  /-- The last loop tick at which COMPLIANCE was committed 1 (R166). -/
  complAt : Option Nat := none
deriving DecidableEq, Repr

/-- The samples latched at the last tick. -/
structure SmpS where
  v : Int := 0
  iRaw : Int := 0
  iFb : Int := 0
  /-- IS path sample, designated or not. -/
  isv : Int := 0
  sh : Int := 0
  /-- Last committed SH sample (R197). -/
  shC : Int := 0
  ovV : Bool := false
  ovI : Bool := false
  ovS : Bool := false
  cmV : Bool := false
  cmI : Bool := false
  /-- The designated sample and the VS sample are settled (R195, R204). -/
  setI : Bool := false
  setV : Bool := false
  setS : Bool := false
  /-- A path value came from a siding. -/
  sided : Bool := false
deriving DecidableEq, Repr

/-- A run of equal samples of the frozen detector (R137): last sample, length, least and greatest drive. -/
structure FrzRun where
  some : Bool := false
  x : Int := 0
  len : Nat := 0
  lo : Int := 0
  hi : Int := 0
deriving DecidableEq, Repr

/-- The watch and the ceiling check of a unit (R132 to R137, R340), with which of their faults stands raised. -/
structure WatchS where
  fv : FrzRun := {}
  fi : FrzRun := {}
  rFe : Bool := false
  rSlw : Bool := false
  rFrz : Bool := false
  rLate : Bool := false
  rCeil : Bool := false
  cv : Nat := 0
  ci : Nat := 0
  cp : Nat := 0
deriving DecidableEq, Repr

/-- What a unit was before the first fault of a tick acted, so that the strongest action of the tick applies (R141). -/
structure PreFault where
  state : Nat
  loop : Nat
  win : Nat
  compl : Nat
  hold : Nat
  olsrc : Nat
  t : Nat
  r : Nat
  ovr : Option Nat
  q : List RefEntry
  ready : Nat
  ramp : Bool
deriving DecidableEq, Repr

/-- The faults of the present tick (R140, R141). -/
structure FltS where
  tick : Nat := 0
  any : Bool := false
  act : Nat := 0
  lost : Bool := false
  pre : Option PreFault := none
  firstNow : Bool := false
  /-- The action lost feedback leaves for t + 1 (R138). -/
  later : Option Nat := none
  /-- The tick of the last record, and the codes recorded at it (R140). -/
  recAt : Option Nat := none
  recs : List Nat := []
deriving DecidableEq, Repr

/-- How a ramp to zero ends (R67, R142). -/
inductive RampEnd where
  | isolated | faultedConnected | faultedIsolated
deriving DecidableEq, Repr

/-- Taking a unit off its load (R88, R332, R333). -/
structure SafeS where
  /-- The ramp to zero is active. -/
  ramp : Bool := false
  /-- The ramp is complete. -/
  rampDone : Bool := false
  /-- No ramp: immediate isolation (R141). -/
  direct : Bool := false
  fin : RampEnd := .isolated
  deadline : Option Nat := none
  /-- Consecutive forced-quantity samples within U_SAFE_TH. -/
  inTh : Nat := 0
  /-- Isolation has been requested, its pattern latched, its readback done. -/
  req : Bool := false
  latched : Bool := false
  rb : Bool := false
  rbAt : Nat := 0
  /-- Unit state the isolation leads to once complete. -/
  started : Nat := 0
  /-- Ramp step of an open-loop drive waits this many ticks (R138). -/
  wait : Nat := 0
  /-- The open-loop ramp starts from the hold value loaded at this tick (R88, R94). -/
  fromHold : Bool := false
  /-- The unit was FAULTED out of CHECKING: its buffer drives until its safe pattern is latched (R330). -/
  out : Bool := false
  /-- The tick at which the unit became isolated (R337). -/
  isoAt : Option Nat := none
  /-- A follower's SAFING or FAULTED mirrors its consist's, whose output it goes on following (R50, R55). -/
  mirr : Bool := false
  /-- An operator cause waits for UNIT_SAFING: cause number and its instant. -/
  cause : Option (Nat × Nat) := none
  causeDl : Nat := 0
  /-- The cause acts at the unit's next tick: its number and the deadline (R332). -/
  due : Option (Nat × Nat) := none
deriving DecidableEq, Repr

/-- The contact check (R328, R329). -/
structure ChkS where
  /-- 0 none, 1 waiting for ISO_SETTLE, 2 latch requested, 3 latched, 4 driving. -/
  phase : Nat := 0
  start : Nat := 0
  lam : Nat := 0
  /-- Check ticks taken since k0. -/
  k : Nat := 0
  n : Nat := 0
  a : Int := 0
  sp : Int := 0
  sm : Int := 0
  cm : Bool := false
  ovr : Bool := false
  /-- Members of a consist whose latch is outstanding. -/
  wait : Nat := 0
  heldIso : Bool := false
  /-- The isolate request that is held came from the bound engine (R213). -/
  heldOwn : Bool := false
deriving DecidableEq, Repr

/-- The range logic (R195 to R208). -/
structure RngS where
  /-- Range changes begun so far. -/
  begun : Nat := 0
  /-- Entry whose setting IS converts, and the tick from which it does. -/
  isSet : Nat := 0
  isAt : Nat := 0
  /-- A setting of IS that takes effect at the next tick (R205). -/
  isNext : Option Nat := none
  shAt : Nat := 0
  vsAt : Nat := 0
  /-- A setting of SH that takes effect at the next tick. -/
  shNext : Option Nat := none
  /-- ARMED on an entry, since a tick. -/
  arm : Option (Nat × Nat) := none
  armNext : Option Nat := none
  /-- Change in progress: from, to, h, PGA-only, decision tick. -/
  a : Nat := 0
  b : Nat := 0
  h : Nat := 0
  pga : Bool := false
  active : Bool := false
  decided : Nat := 0
  designated : Nat := 0
  makeWait : Nat := 0
  lamM : Option Nat := none
  retarget : Option Nat := none
  brkReq : Bool := false
  brkWait : Nat := 0
  lamB : Option Nat := none
  lastRet : Nat := 0
  everRet : Bool := false
  walk : Option Nat := none
  heldI : Option Nat := none
  heldV : Option Nat := none
  /-- A change made with the loop open whose latch is awaited: current and voltage range, latch instant. -/
  openI : Nat := 0
  openV : Nat := 0
  openWait : Nat := 0
  openLam : Option Nat := none
  openOn : Bool := false
  /-- Previous settled designated sample and its range (R200). -/
  prevX : Option (Int × Nat) := none
  /-- A change decided at the last tick acts, and shows in U_RANGE_STAT, from the next one (R198). -/
  tell : Bool := false
  /-- IS returns to the designation once settled after an abandonment (R205). -/
  reIs : Bool := false
deriving DecidableEq, Repr

/-- The closed contents of a bin, as a junction tests them (R173, R254). -/
structure BinC where
  count : Nat
  sum : Int
  mn : Int
  mx : Int
  lastv : Int
  ovr : Nat
  under : Nat
  compl : Nat
  rng : Nat
  qty : Nat
deriving DecidableEq, Repr

/-- A bin beside its registers (R164 to R172). -/
structure BinS where
  /-- The last closed contents: COUNT, SUM, MIN, MAX, LAST, OVR, UNDERRUN, COMPL, the range identity at opening and the quantity
  (R173, R254); none while the bin has never closed. -/
  closed : Option BinC := none
  a : Nat := 0
  src : Nat := 0
  rOpen : Nat := 0
  /-- The correction set in force when this bin number last closed (R169). -/
  cal : Option (List (Nat × Nat × Nat)) := none
  calOpen : List (Nat × Nat × Nat) := []
deriving DecidableEq, Repr

/-- A measurement decimator beside its registers: the setting in force and the last restart (R156 to R160). -/
structure MdecS where
  d : Nat := 1228800
  n : Nat := 3
  fir : Bool := false
  restart : Option Nat := none
  /-- The last output: its instant, its corrected value before LEAK, and its over-range flag. -/
  lastOut : Option (Nat × Int × Bool) := none
  /-- An output whose instant is the unit's next loop tick: instant, filter sum, over-range flag (R160). -/
  pendOut : Option (Nat × Int × Bool) := none
deriving DecidableEq, Repr

/-- An outer update that waits at a follower for its due tick (R54, R55): the due tick, the consist output, the share target, and what
the head's station tells with it of the consist: its state (a code of R66, or 7 for FAULTED, isolated) and its ranges in force. -/
structure Upd where
  due : Nat
  out : Int
  share : Int
  head : Shown
deriving DecidableEq, Repr

/-- A consist or a coupled member (R46 to R57). -/
structure ConsS where
  /-- Members: index, unit, station, remote, weight. -/
  mem : List (Nat × Nat × Nat × Bool × Nat) := []
  /-- Last report of a follower by member index, and outer periods without one. -/
  rep : Tab Nat Int := []
  silent : Tab Nat Nat := []
  /-- The followers heard in the outer period in course; the state that each follower's station told with its last report. -/
  heard : List Nat := []
  fst : Tab Nat Nat := []
  /-- A coupling with remote members awaiting answers. -/
  wait : Bool := false
  /-- Bit m: member m departed and has not been coupled again (R57, R411). -/
  gone : Nat := 0
  /-- The last outer tick. -/
  outAt : Option Nat := none
  /-- As member: the consist output and share target last handed down. -/
  cOut : Int := 0
  share : Int := 0
  /-- As follower: of a series consist; the head's LOST_N; the outer period in Line ticks; updates waiting for their due tick; one has been
  heard in the outer period in course; outer periods without one; the loss has been raised. -/
  ser : Bool := false
  lostN : Nat := 4
  per : Nat := 0
  upds : List Upd := []
  upHeard : Bool := false
  noUpd : Nat := 0
  lost : Bool := false
  /-- What stood in the unit's own registers before each coupling it is under, innermost last: U_DRV_HOLD, OLSRC, the ranges in force,
  SH's entry, the designation, U_FAULT.ISOLATED (R49). -/
  kept : List (List Nat) := []
deriving DecidableEq, Repr

/-- The period that has ended, as Muslin traces it (R145 to R147): the tick at which it began, lateness, the values of the 16 selections,
and WIN and COMPLIANCE as committed at its end. -/
structure TraceS where
  tick : Nat := 0
  late : Bool := false
  vals : List Int := []
  win : Nat := 0
  compl : Bool := false
deriving DecidableEq, Repr

/-- The registers of a die that its units use at loop ticks, as they stood at a unit's last guard instant (R446): ILK_CFG, CAL_TKO and
CAL_TKO_TOL. -/
structure DieCfg where
  tsafe : Nat
  settle : Nat
  smin : Nat
  tol : Nat
deriving DecidableEq, Repr

/-- Everything of a unit that its window does not show. -/
structure UnitS where
  clk : ClockS := {}
  pend : List Pend := []
  ref : RefS := {}
  law : LawS := {}
  smp : SmpS := {}
  wat : WatchS := {}
  flt : FltS := {}
  safe : SafeS := {}
  chk : ChkS := {}
  rng : RngS := {}
  bins : Tab Nat BinS := []
  mdec : Tab Nat MdecS := []
  cons : ConsS := {}
  /-- A bin of the unit closed at the last tick (R19). -/
  closedBin : Bool := false
  /-- The last tick has been judged and a fault it called for is still to be taken; its other effects follow (R124). -/
  tail : Bool := false
  /-- Correction words waiting for a boundary: word index and value (R297). -/
  calPend : List (Nat × Nat) := []
  /-- An accepted result waits with them (CAL_LAST.OUTCOME 3). -/
  calOut : Bool := false
  /-- When the converter blocks last changed by a visit (R305). -/
  blockAt : Option Nat := none
  /-- An EXT_RANGE point in course: quantity, range, point, true value, outputs so far; and point 0: quantity, range, true value,
  mean (R313). -/
  ext : Option (Nat × Nat × Nat × Int × List Int) := none
  ext0 : Option (Nat × Nat × Int × Int) := none
  /-- The visit or stand-in whose shadow compares this channel's converters with its siding's (R298, R301). -/
  shadow : Option Nat := none
  /-- Record sequence counter (R270). -/
  recSeq : Nat := 0
  /-- The unit's safe pattern is latched and read back. -/
  safeLatched : Bool := true
  /-- The siding whose converters and buffer serve this channel: while SIDED, or while attached (R298, R311). -/
  sid : Option Nat := none
  /-- The temperature detector of its own DRV buffer is beyond the trip point (R92). -/
  ot : Bool := false
  /-- The modulator input of the DAC that drives the unit's DRV pin, as set at the last committed tick (R89, R295): 24 bits, signed. -/
  dac : Int := 0
  /-- The period that has ended at the last tick and is still to be entered in captures, and COMPLIANCE of the one before it (R150). -/
  trc : Option TraceS := none
  trcCompl : Bool := false
  /-- The reference compensation in force at the unit's converters, and a new value that waits for a boundary (R355). -/
  refIn : Int := 0
  refNew : Option Int := none
  /-- The registers of its die that its ticks use, as they stood at the last guard instant (R446). -/
  dcfg : Option DieCfg := none
deriving DecidableEq, Repr

/-- A loop level of a timetable engine (R234, R265). -/
structure LoopLv where
  remain : Nat
  forever : Bool
  start : Nat
  gap : Bool := false
deriving DecidableEq, Repr

/-- A sweep in play (R229 to R231): its descriptor, the next point and the LOG magnitudes. -/
structure SweepS where
  log : Bool
  dual : Bool
  ovr : Option Nat
  bmask : Nat
  points : Nat
  start : Int
  stop : Int
  dwell : Nat
  settle : Nat
  ratio : Nat
  rratio : Nat
  j : Nat := 0
  mag : Nat := 0
deriving DecidableEq, Repr

/-- A list in play (R232): entries left, table address of the next entry, closes due at the end of the last one. -/
structure ListS where
  left : Nat
  addr : Nat
  /-- The address of the LIST (R216). -/
  pc : Nat := 0
  close : Nat := 0
  /-- Bins the present entry opened. -/
  opened : Nat := 0
deriving DecidableEq, Repr

/-- A segment in play (R233): its header, the pass, and the place within the pass. -/
structure PlayS where
  addr : Nat
  count : Nat
  fmt : Nat
  hold : Nat
  ovr : Option Nat
  scale : Option Int
  offset : Int
  /-- The address of the PLAY (R216). -/
  pc : Nat := 0
  /-- Passes left; `none` for an unlimited PLAY. -/
  left : Option Nat
  /-- The present pass has begun; sample index and repeats of it left. -/
  on : Bool := false
  idx : Nat := 0
  rep : Nat := 0
deriving DecidableEq, Repr

/-- A stream in play (R263, R264). -/
structure StreamS where
  left : Option Nat
  stretch : Bool
  stalled : Bool := false
  /-- The missing entry was found present at the last guard instant (R264). -/
  found : Bool := false
  /-- The address of the STREAM (R216). -/
  pc : Nat := 0
deriving DecidableEq, Repr

/-- The condition a waiting instruction waits for (R217). -/
inductive WaitC where
  | connect (cl : Bool) (asked : Bool)
  | isolate
  | range (i v : Option Nat)
  | therm
  | event (slot timeout target : Nat) (count : Nat)
deriving DecidableEq, Repr

/-- What the engine plays between its step ticks. -/
inductive Act where
  | none
  | sweep (s : SweepS)
  | list (s : ListS)
  | play (s : PlayS)
  | stream (s : StreamS)
  | wait (c : WaitC)
deriving DecidableEq, Repr

/-- How a step ends (R217). -/
inductive StepEnd where
  /-- The step is still being executed. -/
  | running
  /-- S advances by a count of periods. -/
  | dwell (n : Nat)
  /-- An activity begins at S. -/
  | act (a : Act)
  | halt
  | err (code : Nat)
deriving DecidableEq, Repr

/-- The effects of one step, all due at its step tick (R218). -/
structure StepAcc where
  count : Nat := 0
  close : Nat := 0
  opn : Nat := 0
  mode : Option (Nat × Nat) := none
  /-- The address of the last MODE (R216). -/
  modePc : Nat := 0
  rI : Option Nat := none
  rV : Option Nat := none
  rA : Option Nat := none
  entry : Option RefEntry := none
  therm : List Nat := []
  signals : List (Nat × Nat) := []
  /-- A connect (with CL or not) or an isolation the step asks for (R237, R238). -/
  conn : Option Bool := none
  iso : Bool := false
  /-- Junctions evaluated in the step, committed with it: address, taken, and the slot whose PEND it clears (R255). -/
  juncs : List (Nat × Bool × Option Nat) := []
  /-- A bin-statistic junction of the step found no data (R254). -/
  empty : Bool := false
  /-- The closes are those of a RESTART (R251). -/
  rest : Bool := false
  /-- NEXTs of the step that found their level's gap bit set (R265). -/
  gaps : Nat := 0
  /-- Slots whose PEND a latched WAITEV of the step clears, with the restart records it leaves (R249). -/
  evs : List (Nat × Nat × Nat × Nat) := []
  fin : StepEnd := .running
  /-- Speculation tag (R30): a junction prediction that the effects derive from has not been confirmed. -/
  tag : Bool := false
deriving DecidableEq, Repr

/-- What a late step returns to (R220). -/
structure EngBack where
  pc : Nat
  acc : StepAcc
  loops : List LoopLv
  calls : List (Nat × Nat)
  act : Act
  mark : Nat
  marked : Nat
  rp : Nat
  rewind : Nat
  rewinding : Bool
  rewForever : Bool
deriving DecidableEq, Repr

/-- A junction prediction that awaits confirmation (R255). -/
structure JPred where
  addr : Nat
  taken : Bool
  target : Nat
  cond : TIns
  /-- The step's effects, stacks and program counter at the junction. -/
  acc : StepAcc
  loops : List LoopLv
  calls : List (Nat × Nat)
  snap : EngBack
  /-- The waits of the step that precede the junction. -/
  parts : Nat
deriving DecidableEq, Repr

/-- Everything of a timetable engine that its registers do not show. -/
structure EngS where
  /-- Loop ticks of the bound unit until the step tick, or until the next point, entry or pass. -/
  togo : Nat := 0
  /-- A TT_CMD command that waits for its tick, and whether a guard instant has passed since. -/
  cmd : Option (Nat × Bool) := none
  /-- The step in preparation, and the step prepared for the next tick. -/
  acc : StepAcc := {}
  ready : Option StepAcc := none
  back : Option EngBack := none
  /-- The waits of the step whose condition may hold at the step tick itself, in order: the engine as it waits there, with the effects of the
  step so far (R217). -/
  parts : List EngBack := []
  /-- The queue was empty at the guard instant of the step tick, so that an entry chosen there is the next one to be popped (R219). -/
  canPush : Bool := false
  /-- The correct path after a refuted prediction runs without prediction (R34, R255). -/
  noPred : Bool := false
  loops : List LoopLv := []
  calls : List (Nat × Nat) := []
  act : Act := .none
  /-- Ticks until the bins of a mask open (R231). -/
  openIn : Option (Nat × Nat) := none
  pred : Option JPred := none
  /-- The predictor entries, by address[8:3]; an unlisted one holds `pinit`. -/
  ptab : Tab Nat Nat := []
  pinit : Nat := 1
  /-- Restart records by slot: address, loop depth, call depth (R249). -/
  recs : Tab Nat (Nat × Nat × Nat) := []
  thermOut : Bool := false
  thermDone : Bool := false
  /-- A jump request, and whether it arrived before the present guard instant (R258). -/
  jump : Option Bool := none
  tgtLow : Nat := 0
  /-- Writes of watch slots that wait for the unit's tick (R248): slot, value, and whether a guard instant has passed since. -/
  slotW : List (Nat × Nat × Bool) := []
  /-- Events that acted since the unit's last tick, and slots that saw theirs at the last tick and have not been handled (R246, R248, R250). -/
  seen : List Nat := []
  seenNow : List Nat := []
  /-- The condition of the present wait held at the last tick (R217). -/
  waitOk : Bool := false
  rewinding : Bool := false
  rewForever : Bool := false
  /-- Code and data lines in the prefetch window with the bytes they were filled with, and the line whose absence stalls the engine
  (R212). -/
  code : Tab Nat (List Nat) := []
  data : Tab Nat (List Nat) := []
  need : Option (Nat × Bool) := none
  /-- The address of the instruction that needs the line (R216). -/
  needPc : Nat := 0
  /-- The slot whose RESTART is due at the next tick (R251), and what a jump at the same tick would have found: the engine, the closes due,
  and whether the tick is a jump point (R260). -/
  restart : Option Nat := none
  cut : Option (EngBack × Nat × Bool) := none
  /-- What a RESTART or a jump does at its tick J whatever becomes of the target's step (R251, R259): the bins to close, and whether as
  RESTARTED. -/
  jx : Option (Nat × Bool) := none
  /-- The tick that a START with AT waits for (R214). -/
  startAt : Option Nat := none
  /-- The entry of a late step stands in the queue: the second execution does not push it again (R220). -/
  kept : Bool := false
  /-- The stream entry last played carried END (R257). -/
  segEnd : Bool := true
  /-- A STREAM entry at the next tick was found missing at the guard instant (R263). -/
  missing : Bool := false
  /-- Flags of the STREAM entry pushed at the guard instant: END 1, LAST 2. -/
  sflags : Nat := 0
  /-- The present step is the target of a jump that takes effect at the next tick (R259). -/
  jumping : Bool := false
  /-- Register words that wait for a tick of the bound unit (R446): offset, value, and whether a guard instant has passed since. -/
  pendW : List (Nat × Nat × Bool) := []
deriving DecidableEq, Repr

/-- Why a points operation is made (R191 to R193). -/
inductive PtsWhy where
  | make (u : Nat)
  | brk (u : Nat)
  | openChg (u : Nat)
  | connect (u : Nat)
  | safe (u : Nat) (err : Bool)
  | abandon (u : Nat)
  | mirror (u : Nat)
  | image
deriving DecidableEq, Repr

/-- A points operation: the position, the pattern, its requester and why. -/
structure PtsOp where
  ch : Nat
  pat : Nat
  rank : Nat
  why : PtsWhy
  losses : Nat := 0
deriving DecidableEq, Repr

/-- The points bus of a die (R189 to R192). -/
structure PtsS where
  cur : Option PtsOp := none
  latched : Bool := false
  lam : Nat := 0
  q : List PtsOp := []
  /-- One above the last channel granted, by rank (R36). -/
  last : Tab Nat Nat := []
  /-- Where the operation on the bus was granted on arrival: the instant, and the last channels granted before it; requests of that
  same instant are decided together (R36). -/
  since : Option Nat := none
  old : Tab Nat Nat := []
  /-- The instant at which the operation on the bus was granted (R191). -/
  granted : Nat := 0
  /-- The instant at which the power-up sequence took the bus (R98, R193). -/
  initAt : Option Nat := none
deriving DecidableEq, Repr

/-- A token arbiter: holders with the instance each holds, requests pending in order of arrival, one above the last requester granted
by rank (R36, R37). Requests of one instant are decided together: the instant, the requests, and what stood before the first of them. -/
structure ArbS where
  hold : List Req := []
  inst : List Nat := []
  pend : List Req := []
  last : Tab Nat Nat := []
  since : Option Nat := none
  arr : List Req := []
  hold0 : List Req := []
  inst0 : List Nat := []
  pend0 : List Req := []
  last0 : Tab Nat Nat := []
deriving DecidableEq, Repr

/-- A record between its close and its placing (R268 to R271): the queue it is routed to, its order, and the words of its
128-byte form. -/
structure Rec where
  q : Nat
  unit : Nat
  bin : Nat
  tick : Nat
  words : List Nat
deriving DecidableEq, Repr

/-- A Muslin capture beside its registers (R148 to R151). -/
structure CapS where
  seq : Nat := 0
  /-- Loop periods until the next captured entry. -/
  dec : Nat := 0
  /-- The trigger condition has held. -/
  trig : Bool := false
  post : Nat := 0
  gap : Bool := false
  /-- The trigger condition has held in the period in course, and in the one that begins at the unit's next tick (R150). -/
  trigN : Bool := false
  trigE : Bool := false
  /-- An ARM waits for the unit's next loop tick. -/
  arm : Bool := false
  /-- Entries in the staging buffer of DDR5 mode, oldest first: ring index and words. -/
  stage : List (Nat × List Nat) := []
  /-- Register words that wait for a tick of the unit (R446): offset, value, and whether a guard instant has passed since. -/
  pendW : List (Nat × Nat × Bool) := []
deriving DecidableEq, Repr
/-- What a Tweed port holds of its link beside its registers (R385 to R391, R403). -/
structure PortS where
  /-- Valid link words received while training, and the instant of the last one. -/
  words : Nat := 0
  wordAt : Nat := 0
  /-- Frames waiting to be sent, with the port and number under which a forwarded one arrived. -/
  q : List (Frame × Option (Nat × Nat)) := []
  /-- The second copy of a CTRL frame. -/
  dup : Option Frame := none
  /-- Frames of MGMT and DATA to be sent again. -/
  again : List Frame := []
  /-- Credits held, by lane. -/
  cred : Tab Nat Nat := []
  /-- Last SEQ sent, by lane; frames unacknowledged, oldest first; the instant from which ACK has not advanced, by lane. -/
  txSeq : Tab Nat Nat := []
  unack : List Frame := []
  ackAt : Tab Nat Nat := []
  /-- Last SEQ accepted in order, by lane; for CTRL the last taken. -/
  rxSeq : Tab Nat Nat := []
  /-- The SEQ of a CTRL frame of which one bad copy has arrived. -/
  badCtrl : Option Nat := none
  /-- Credits to return, by lane. -/
  ret : Tab Nat Nat := []
  /-- Deficits of MGMT and DATA, and the lane whose turn it is (R389). -/
  dM : Nat := 0
  dD : Nat := 0
  turn : Nat := 2
  /-- CTRL frames sent in the last 100 µs: instant and bytes. -/
  used : List (Nat × Nat) := []
  /-- The frame that went out last, and the last link word sent: lane, credits, ACK. -/
  sent : Option Frame := none
  /-- It was ended with an error terminate block (R386). -/
  cut : Bool := false
  sentWord : Option (Nat × Nat × Nat) := none
  sentWordAt : Nat := 0
  /-- The last SYNC heard: MASTER, hop count, instant. -/
  sync : Option (Nat × Nat × Nat) := none
  /-- The transmit time t1 of the last DELAY_REQ, in sub-ticks, its instant, and the last 8 measured delays. -/
  reqT1 : Option Nat := none
  reqAt : Option Nat := none
  delays : List Int := []
deriving DecidableEq, Repr

/-- A request of this station to another that awaits its response (R397): the master it is for, its tag, the instant it was sent, the
station, and for what follows it the next address, the bytes still to be read or written, the bytes read. -/
structure LineReq where
  m : Master
  tag : Nat
  write : Bool
  at_ : Nat
  stn : Nat
  addr : Nat := 0
  left : Nat := 0
  got : List Nat := []
  data : List Nat := []
deriving DecidableEq, Repr

/-- A datagram that an Ethernet port sent (R414). -/
structure Dgram where
  op : Nat
  rsp : Bool
  session : Nat
  status : Nat
  seq : Nat
  data : List Nat
  /-- The endpoint it goes to. -/
  peer : Option Src := none
deriving DecidableEq, Repr

/-- An Ethernet session (R414). -/
structure SessS where
  owner : Option Src := none
  note : Bool := false
  /-- The last executed SEQ with its response. -/
  last : Option (Nat × Dgram) := none
  /-- Instant of the last datagram; idle for 10 s. -/
  at_ : Nat := 0
  idle : Bool := false
  /-- The OP and SEQ of a request that waits for another station. -/
  wait : Option (Nat × Nat) := none
  /-- The last datagram sent in the session. -/
  sent : Option Dgram := none
deriving DecidableEq, Repr

/-- The SPI target frame in course (R415). -/
structure SpiS where
  on : Bool := false
  ignored : Bool := false
  rd : Bool := false
  inc : Bool := false
  addr : Nat := 0
  words : Nat := 0
deriving DecidableEq, Repr

/-- Everything of the Line that its registers do not show (R397 to R406). -/
structure LineS where
  /-- Number under which the next forwarded frame is remembered, and the next tag. -/
  fwd : Nat := 0
  tag : Nat := 0
  reqs : List LineReq := []
  /-- The last NOTICE received (R281). -/
  notice : List Nat := []
  /-- Instants of the last ANNOUNCE and HELLO sent. -/
  annAt : Option Nat := none
  helloAt : Option Nat := none
  /-- The number was assigned since power-on; announcing has stopped (DUP); the routes have been set for announcing. -/
  assigned : Bool := false
  stopped : Bool := false
  learned : Bool := false
  /-- ANNOUNCE records: serial and arrival port, oldest first (R400). -/
  recs : List (Nat × Nat) := []
  /-- The master's table: serial and number (R400); last HELLO by station (R401). -/
  table : List (Nat × Nat) := []
  hello : Tab Nat Nat := []
  /-- The offset e at the last upstream SYNC, in sub-ticks; consecutive SYNCs within 1 ns. -/
  ofs : Int := 0
  okRun : Nat := 0
  /-- The station has been LOCKED since its power-on reset; PTP has been locked since then. -/
  everLocked : Bool := false
  everPtp : Bool := false
  /-- The count has been stepped to the Line time now followed; the instant the image was applied. -/
  stepped : Bool := false
  appliedAt : Option Nat := none
  /-- Instants of the last SYNC of the MASTER followed or a lower one, and of one lower than this station's number. -/
  syncAt : Option Nat := none
  lowAt : Option Nat := none
  /-- The count of the last SYNC sent. -/
  sentAt : Option Nat := none
  /-- The LINE_LAT that the last SYNC carried, in µs. -/
  lat : Option Nat := none
  /-- ARP cache of each Ethernet port: address, MAC and instant, oldest first (R412). -/
  arp : Tab Nat (List (Nat × Nat × Nat)) := []
deriving DecidableEq, Repr

/-- A queue beside its registers (R272 to R275, R283): read and write counts, each with its inverted copy, the staged packets,
and whether its storage is the log ring. -/
structure QueS where
  wp : Nat := 0
  wpN : Nat := 2 ^ 64 - 1
  rp : Nat := 0
  rpN : Nat := 2 ^ 64 - 1
  stage : List (List Nat) := []
  ring : Bool := false
deriving DecidableEq, Repr

/-- A snapshot slot that holds a copy (R62 to R64): the holder, the object, its copy, when the slot was granted and last
accessed, and for a Q_HEAD copy the queue's GEN and read count. -/
structure SlotS where
  who : Nat
  blk : Blk
  inst : Nat
  off : Nat
  words : List Nat
  granted : Nat
  last : Nat
  /-- The index of the highest word of the copy, whose reading releases the slot (R64, R277). -/
  top : Nat
  head : Option (Nat × Nat) := none
deriving DecidableEq, Repr

/-- A request of another station or of an Ethernet session in course of being served (R397, R414): where it came from, the address and
the number of bytes still to be accessed, the bytes read. -/
structure Job where
  eth : Bool
  /-- The Tweed port it entered by, or the session (port * 4 + session). -/
  from_ : Nat
  frame : Frame := {}
  seq : Nat := 0
  addr : Nat
  left : Nat
  got : List Nat := []
  /-- A write: the bytes still to be written; no response is sent where it is quiet. -/
  write : Bool := false
  data : List Nat := []
  quiet : Bool := false
deriving DecidableEq, Repr

/-- A master's access to DDR5 that waits for the Twill path's token (R18, R35): the bytes it touches, the value it writes (none: a read),
the request it belongs to, and what error correction finds in it. -/
structure MemWait where
  m : Master
  addr : Nat
  n : Nat
  val : Option Nat := none
  job : Option Job := none
  ecc : List (Nat × Bool) := []
deriving DecidableEq, Repr

/-- A lowest-word read that waits for a snapshot slot (R62), of an access by itself or within a request. -/
structure SnapWait where
  m : Master
  blk : Blk
  inst : Nat
  off : Nat
  job : Option Job := none
deriving DecidableEq, Repr

/-- A temperature sensor beside its registers (R346 to R351). -/
structure ThS where
  /-- The sensor is unhealthy, and its run of healthy readings since. -/
  bad : Bool := false
  good : Nat := 0
  /-- Its last healthy reading, and whether its latest reading was healthy. -/
  lastValid : Option Int := none
  lastOk : Bool := false
  /-- The first reading at STOP, until the next one: instant and reported value. -/
  stop : Option (Nat × Int) := none
  /-- Readings of the last 10 s: instant and measured value (R307). -/
  hist : List (Nat × Int) := []
deriving DecidableEq, Repr

/-- A calibration visit, a stand-in or a voltage-standard measurement made through a siding (R298 to R312). -/
structure VisitS where
  u : Nat := 0
  /-- 0 visit, 1 stand-in, 2 voltage standard. -/
  kind : Nat := 0
  /-- 0 none, 1 first checks, 2 the siding's token is awaited, 3 shadow, 4 checks before the first step, 5 steps, 6 return shadow,
  7 serving as a stand-in. -/
  phase : Nat := 0
  /-- The channel has been taken over; the visit was started by CAL_CMD; the stand-in needs no tolerance. -/
  taken : Bool := false
  cmd : Bool := false
  force : Bool := false
  /-- The instant of the token request, or the start of the shadow. -/
  at_ : Nat := 0
  /-- Conversions outstanding: internal sensors 0 to 3, and 4 for CALREF; a temperature has moved; the measured ratio. -/
  need : List Nat := []
  /-- Range changes of the unit begun when the visit began (R307). -/
  begun : Nat := 0
  hot : Bool := false
  ratio : Nat := 0
  /-- Loop ticks of the shadow, the last 64 sample differences (voltage, current), newest first, and whether the tolerance failed
  at a boundary. -/
  periods : Nat := 0
  diffs : List (Int × Int) := []
  tolBad : Bool := false
  /-- Steps to come, by kind and index; the grant of the present one; the values of the steps made. -/
  steps : List (Nat × Nat) := []
  stepAt : Option Nat := none
  got : Tab (Nat × Nat) (Int × Int × Int) := []
  /-- New correction words, newest first; the least reason of an implausible one, 0 for none; the results are accepted; the
  outcome has been written. -/
  words : List (Nat × Nat) := []
  bad : Nat := 0
  ok : Bool := false
  told : Bool := false
deriving DecidableEq, Repr

/-- A siding: the unit it last served, whether its last own visit ended CAL_REJECT, and when it was last visited (R307). -/
structure SidS where
  lastU : Option Nat := none
  rejected : Bool := false
  visitAt : Nat := 0
deriving DecidableEq, Repr

/-- The contents of a calibration slot (R315): header programmed, digest good, commit word, and its data. -/
structure CalSlotS where
  header : Bool := false
  digest : Bool := false
  commit : Bool := false
  seq : Nat := 0
  time : Nat := 0
  arefx : Nat := 0
  ratio : Nat := 0
  sets : Tab RegKey Nat := []
deriving DecidableEq, Repr

/-- A store that is running (R316): the slot (0 A, 1 B, 2 F), the data copied, the next page program, retries made. -/
structure StoreS where
  slot : Nat
  data : CalSlotS
  page : Nat := 0
  retry : Nat := 0
  /-- Started by CAL_CMD, whose BUSY it ends. -/
  cmd : Bool := false
deriving DecidableEq, Repr

/-- An NVM copy of a die's ceilings (R341): commit sequence number, GEN, the ceiling words by unit-window index. -/
structure CeilCopyS where
  seq : Nat := 0
  gen : Nat := 0
  words : List Nat := []
  /-- The SHA-384 digest of the data, and the commit word, 0 where it is not written. -/
  digest : Nat := 0
  commit : Nat := 0
  /-- A write of the copy has begun and is not complete. -/
  begun : Bool := false
deriving DecidableEq, Repr

/-- An audit entry waiting to be written (R381, R382). -/
structure AudPend where
  kind : Nat
  die : Nat
  arg : Nat
  ext : List Nat := []
  time : Nat
  line : Bool
deriving DecidableEq, Repr

/-- A written audit entry (R381). -/
structure AudEntry where
  seq : Nat
  time : Nat
  info : Nat
  chain : Nat
deriving DecidableEq, Repr

/-- An audit log (R381): the next SEQ, the chain value of the last entry written since manufacture, the entries retained. -/
structure AudS where
  next : Nat := 1
  chain : Option Nat := none
  ring : List AudEntry := []
deriving DecidableEq, Repr

/-- A change of a counted setting held back by thermal shut-down (R378). -/
inductive HeldCnt where
  | bind (v : Nat)
  | relief (v : Nat)
  | key (op slot : Nat)
  | ceil (d gen : Nat)
  | slotF (d : Nat)
deriving DecidableEq, Repr

/-- What the station keeps without power (R315, R341, R381), and what waits to be written there. -/
structure NvS where
  /-- Calibration slots by die * 3 + k; ceiling copies by die * 2 + k; audit logs by head die. -/
  slots : Tab Nat CalSlotS := []
  ceils : Tab Nat CeilCopyS := []
  aud : Tab Nat AudS := []
  /-- Counts recorded by the last CNT_CHANGE entry of each setting and die (R378). -/
  cntSeen : Tab Nat Nat := []
  /-- The key slots in each head die's OTP, by head die * 4 + slot: state and digest (R380). -/
  keys : Tab Nat (Nat × Nat) := []
deriving DecidableEq, Repr


/-- Everything of a die that its registers do not show. -/
structure DieS where
  /-- The die is fenced (R68). -/
  fenced : Bool := false
  /-- ISO_N is asserted again at the next tick of a unit of the die (R335). -/
  isoDue : Option Nat := none
  /-- The instant ISO_N was last released (R328). -/
  isoAt : Nat := 0
  /-- The instants at which the hardwired backstop acts on ILK_OPEN and on ABORT (R335). -/
  ilkBack : Option Nat := none
  /-- As a head die: it asserts ILK_OPEN, as before the first qualified closing; it asserts ABORT (R320). -/
  ilkA : Bool := true
  abA : Bool := false
  abortBack : Option Nat := none
  pts : PtsS := {}
  /-- The token arbiters of the die (R35). -/
  aux : ArbS := {}
  /-- Running aux conversions: the requester and the instant of its grant (R177). -/
  auxAt : List (Nat × Nat) := []
  cal : ArbS := {}
  sid0 : ArbS := {}
  sid1 : ArbS := {}
  twill0 : ArbS := {}
  twill1 : ArbS := {}
  nvm : ArbS := {}
  snap : ArbS := {}
  /-- Records closed and not yet placed, oldest first. -/
  recs : List Rec := []
  /-- Snapshot slots that hold a copy, and reads that wait for a slot. -/
  slots : List SlotS := []
  snapWait : List SnapWait := []
  /-- A calibration store and a ceiling copy being written, with the copy and the next page program (R316, R341). -/
  store : Option StoreS := none
  ceilW : Option (Nat × Nat) := none
  /-- An NVM write was abandoned in thermal shut-down: calibration store, ceiling copy (R353). -/
  abandoned : List Nat := []
  /-- The thermal supervisor's conversions not yet requested (kind and sensor), the start of its last pass and of its last
  emergency round; sensors whose compensation conversion is outstanding; a new OSC value waiting (R345, R354, R355). -/
  thQ : List (Nat × Nat) := []
  passAt : Option Nat := none
  emergAt : Option Nat := none
  compW : List Nat := []
  /-- The start of the present compensation period (R345). -/
  compAt : Option Nat := none
  osc : Option Int := none
  /-- The rota: the last channel or siding visited, the start of that visit, the siding it used (R310). -/
  rotaCh : Option Nat := none
  rotaAt : Option Nat := none
  rotaSid : Nat := 1
  /-- The AREFX-to-bandgap ratio of the last accepted visit, in units of 2^-30; 0 for none (R307). -/
  calRatio : Nat := 0
  /-- The instant of the last calibration store (R316). -/
  storedAt : Nat := 0
  /-- The DDR_CFG value the channel of a head die was last trained with (R370). -/
  ddrCfg : Option Nat := none
deriving DecidableEq, Repr

/-- The answer the transport gave the last access (R9, R60): the master, the STATUS code of R388, and the data. -/
structure Ans where
  m : Option Master := none
  status : Nat := 0
  data : List Nat := []
deriving DecidableEq, Repr

/-- A flash operation that is running (R364): 1 READ, 2 PROGRAM, 3 ERASE; head die, flash address, station address, bytes. -/
structure XspiS where
  op : Nat
  head : Nat
  faddr : Nat
  maddr : Nat
  len : Nat
deriving DecidableEq, Repr

/-- The lid inputs (R322): the instants from which ILK0 and ILK1 can have read open, and from which they can have read closed, without a
break, and from which the two can have differed. They are known from the rows alone (notes/assumptions/99.md). -/
structure LidS where
  open0 : Nat := 0
  open1 : Nat := 0
  shut0 : Nat := 0
  shut1 : Nat := 0
  apart : Nat := 0
deriving DecidableEq, Repr

/-- What stood in OTP before the last change of a counted setting (R378): the instant of the change, STN_BIND, STN_RELIEF.EN, and the head
dies' key slots. -/
structure BurnS where
  at_ : Nat
  bound : Nat
  num : Nat
  relief : Nat
  keys : Tab Nat (Nat × Nat)
deriving DecidableEq, Repr

/-- The start-up sequence (R357 to R373). -/
structure BootS where
  /-- Dies whose self-test has ended, whose Interlocking is live from then on (R358); the boot die has no working signal box (R361). -/
  live : List Nat := []
  noRom : Bool := false
  /-- The station was provisioned when read 1 judged the image (R367); a master has written its memory source since (R373). -/
  prov : Bool := false
  touched : Bool := false
  /-- Dies whose self-test has ended, and the dies fenced since reset release with their causes, for the audit log (R360). -/
  answered : List Nat := []
  fences : List (Nat × Nat) := []
  /-- The next read of the image, 1 to 3; 0 while none is due (R370). -/
  read : Nat := 0
  /-- The source being read (1 flash A, 2 flash B, 3 memory), its address, the header with the section table as first read, the
  candidates that remain, and whether one has been refused (R363). -/
  src : Nat := 0
  base : Nat := 0
  hdr : List Nat := []
  cand : List Nat := []
  tried : Bool := false
  /-- Engines named by START records, in order (R369). -/
  start : List Nat := []
  /-- Consists with remote members are coupled when the station first enters RUN (R370). -/
  remote : Bool := false
  xspi : Option XspiS := none
  /-- The words of the attestation report being formed, with the signer (R375). -/
  att : Option (Nat × List Nat) := none
deriving DecidableEq, Repr

/-- The hardware: everything but the queue of waiting commands. -/
structure Hw where
  /-- Power-on reset is asserted (R69 COLD, R421). -/
  cold : Bool := false
  /-- The Line tick count (R25). -/
  now : Nat := 0
  /-- The counter the free values are drawn with; the model's own field. -/
  free : Nat := 0
  regs : Tab RegKey Nat := []
  /-- Memory: addresses strictly rising, no byte equal to 0, which an unlisted address reads as. -/
  mem : List Host.Cell := []
  /-- Bytes written by the command in course, newest first; empty between commands. -/
  wrq : List Host.Cell := []
  /-- What DDR5's error correction finds in the command in course (R287): address, and whether it is uncorrectable; empty between
  commands. -/
  ecc : List (Nat × Bool) := []
  units : Tab Nat UnitS := []
  engs : Tab Nat EngS := []
  dies : Tab Nat DieS := []
  caps : Tab Nat CapS := []
  ques : Tab Nat QueS := []
  /-- Sensors by die * 12 + n. -/
  ths : Tab Nat ThS := []
  /-- Sidings by die * 2 + s; visits under the same number, stand-ins under 16 more. -/
  sids : Tab Nat SidS := []
  visits : Tab Nat VisitS := []
  /-- Pending events of the scheduler: number and due tick (R243). -/
  evs : List (Nat × Nat) := []
  /-- The instant each trigger output in a pulse is driven low, and the qualified level of each trigger input (R247). -/
  trigEnd : Tab Nat Nat := []
  trigLvl : Tab Nat Bool := []
  /-- Trigger inputs that were outputs and whose first level is still to be taken; the tick at which each input last qualified. -/
  trigNew : List Nat := []
  trigAt : Tab Nat Nat := []
  /-- The Tweed ports, the Line, the Ethernet sessions by port * 4 + session, the SPI target frame. -/
  ports : Tab Nat PortS := []
  line : LineS := {}
  /-- Sources of the metronome that have been lost and have not returned: bit 1 Line time, 2 REFCLK, 3 fallback oscillator (R24). -/
  metLost : Nat := 0
  sess : Tab Nat SessS := []
  spi : SpiS := {}
  /-- Requests whose read of a snapshot object has been granted its slot, with the word read. -/
  jobs : List (Job × Nat) := []
  /-- Accesses of masters to DDR5 that wait for their token (R18, R35). -/
  memQ : List MemWait := []
  /-- A discrepancy of the lid inputs bars a closing until both have read open together (R322). -/
  discLock : Bool := false
  /-- The lid inputs, and the instants from which START (0), ABORT (1), KEY0 to KEY3 (2 to 5) and FIX0 to FIX7 (8 to 15) can have left their
  qualified levels (R322, R324). -/
  lid : LidS := {}
  keyAt : Tab Nat Nat := []
  /-- The last change of a counted setting (R378). -/
  burn : Option BurnS := none
  ans : Ans := {}
  nv : NvS := {}
  /-- Audit entries waiting in the buffer, and entries lost since the last OVERFLOW entry (R382). -/
  audQ : List AudPend := []
  audLost : Nat := 0
  /-- Counted settings held back by thermal shut-down. -/
  heldCnt : List HeldCnt := []
  /-- The start-up sequence. -/
  boot : BootS := {}
deriving DecidableEq, Repr

/-- The state of the block: the hardware and the commands that wait, first in first out. -/
structure State where
  hw : Hw := {}
  pending : List Instr := []
deriving DecidableEq, Repr

/-- The station right after reset: every register at its reset value (notes/assumptions/3.md for those the spec does not
state), memory with nothing listed, nothing pending. -/
def State.reset : State := {}

end Sys2Proof.Machine
end

