-- ==== Sys2Proof/Machine/RegMap.lean ====
section
/-! DEFINITION. The register map: one named field for every field of every register table of the spec, with its
block, bit position, width, instances, access type (R11) and reset value (R8, R10, R44, R58, R59). A reset value the spec
does not state ("from image", "from NVM", "per part", ...) stands as notes/assumptions/3.md names it. -/

namespace Sys2Proof.Machine

/-- STN_METRO_CTRL_SRC (RW, spec/01_station.md): Metronome source; encoding in rule R23. -/
def STN_METRO_CTRL_SRC : Fld := { blk := .stn, pos := 0xC00 * 8 + 0, width := 2, acc := .rw, reset := 0 }

/-- STN_METRO_STAT_ACT_SRC (RO, spec/01_station.md): Source in use: 1 Line time, 2 REFCLK, 3 fallback oscillator. -/
def STN_METRO_STAT_ACT_SRC : Fld := { blk := .stn, pos := 0xC04 * 8 + 0, width := 2, acc := .ro, reset := 3 }

/-- STN_METRO_STAT_LOCK (RO, spec/01_station.md): 1: synthesiser locked to ACT_SRC. -/
def STN_METRO_STAT_LOCK : Fld := { blk := .stn, pos := 0xC04 * 8 + 2, width := 1, acc := .ro, reset := 0 }

/-- STN_METRO_STAT_REFF (RO, spec/01_station.md): REFCLK class: 0 10 MHz, 1 100 MHz; valid when REF_OK is 1. -/
def STN_METRO_STAT_REFF : Fld := { blk := .stn, pos := 0xC04 * 8 + 3, width := 1, acc := .ro, reset := 0 }

/-- STN_METRO_STAT_REF_OK (RO, spec/01_station.md): 1: REFCLK present and classified. -/
def STN_METRO_STAT_REF_OK : Fld := { blk := .stn, pos := 0xC04 * 8 + 4, width := 1, acc := .ro, reset := 0 }

/-- STN_METRO_STAT_HOLDOVER (RO, spec/01_station.md): 1: in holdover. -/
def STN_METRO_STAT_HOLDOVER : Fld := { blk := .stn, pos := 0xC04 * 8 + 5, width := 1, acc := .ro, reset := 0 }

/-- STN_METRO_STAT_REF_LOST (W1C, spec/01_station.md): Set when the active source is lost. -/
def STN_METRO_STAT_REF_LOST : Fld := { blk := .stn, pos := 0xC04 * 8 + 6, width := 1, acc := .w1c, reset := 0 }

/-- STN_METRO_STAT_SWITCHED (W1C, spec/01_station.md): Set when AUTO changes source. -/
def STN_METRO_STAT_SWITCHED : Fld := { blk := .stn, pos := 0xC04 * 8 + 7, width := 1, acc := .w1c, reset := 0 }

/-- STN_METRO_STAT_SWITCH_COUNT (RO, spec/01_station.md): Source changes since power-on, saturating at 0xFFFF. -/
def STN_METRO_STAT_SWITCH_COUNT : Fld := { blk := .stn, pos := 0xC04 * 8 + 16, width := 16, acc := .ro, reset := 0 }

/-- DIE_SPEC_CNT_COUNT (RO, spec/01_station.md): Events of kind k on this die, wrapping modulo 2^32. -/
def DIE_SPEC_CNT_COUNT : Fld := { blk := .die, pos := 0x400 * 8 + 0, width := 32, stride := 32, count := 6, acc := .ro, reset := 0 }

/-- DIE_SPEC_BLOCK_COUNT (RO, spec/01_station.md): Tagged values stopped at a commit port, wrapping modulo 2^32. -/
def DIE_SPEC_BLOCK_COUNT : Fld := { blk := .die, pos := 0x418 * 8 + 0, width := 32, acc := .ro, reset := 0 }

/-- DIE_TOKEN_LATE_COUNT (RO, spec/01_station.md): Period-bound token requests withdrawn at their guard instant, wrapping modulo 2^32. -/
def DIE_TOKEN_LATE_COUNT : Fld := { blk := .die, pos := 0x41C * 8 + 0, width := 32, acc := .ro, reset := 0 }

/-- U_ID_UNIT (RO, spec/02_units.md): Unit number (R42). -/
def U_ID_UNIT : Fld := { blk := .unit, pos := 0x0 * 8 + 0, width := 10, acc := .ro, reset := 0 }

/-- U_ID_KIND (RO, spec/02_units.md): 0 working channel, 1 siding, 2 consist. -/
def U_ID_KIND : Fld := { blk := .unit, pos := 0x0 * 8 + 10, width := 2, acc := .ro, reset := 0 }

/-- U_ID_DIE (RO, spec/02_units.md): Die of a channel or siding; for a consist, the lead's die while coupled, else 0. -/
def U_ID_DIE : Fld := { blk := .unit, pos := 0x0 * 8 + 12, width := 3, acc := .ro, reset := 0 }

/-- U_ID_CHAN (RO, spec/02_units.md): Channel 0–31, or siding s; 0 for a consist. -/
def U_ID_CHAN : Fld := { blk := .unit, pos := 0x0 * 8 + 15, width := 5, acc := .ro, reset := 0 }

/-- U_ID_FLOAT (RO, spec/02_units.md): 1: stage declared floating in the image's consists section; for a consist, 1 if all members are floating. -/
def U_ID_FLOAT : Fld := { blk := .unit, pos := 0x0 * 8 + 20, width := 1, acc := .ro, reset := 0 }

/-- U_STATE_STATE (RO, spec/02_units.md): Unit state, encoded as in R66. -/
def U_STATE_STATE : Fld := { blk := .unit, pos := 0x4 * 8 + 0, width := 3, acc := .ro, reset := 0 }

/-- U_STATE_LOOP (RO, spec/02_units.md): 1: loop closed, including a loop closed through a siding. -/
def U_STATE_LOOP : Fld := { blk := .unit, pos := 0x4 * 8 + 3, width := 1, acc := .ro, reset := 0 }

/-- U_STATE_COMPLIANCE (RO, spec/02_units.md): 1: winning law is a limit law, committed at the last tick. -/
def U_STATE_COMPLIANCE : Fld := { blk := .unit, pos := 0x4 * 8 + 4, width := 1, acc := .ro, reset := 0 }

/-- U_STATE_WIN (RO, spec/02_units.md): Winning law: 0 primary, 1–3 limit laws. -/
def U_STATE_WIN : Fld := { blk := .unit, pos := 0x4 * 8 + 5, width := 2, acc := .ro, reset := 0 }

/-- U_STATE_SIDED_BY (RO, spec/02_units.md): Serving siding, 0 S0 or 1 S1; valid when STATE is SIDED. -/
def U_STATE_SIDED_BY : Fld := { blk := .unit, pos := 0x4 * 8 + 7, width := 1, acc := .ro, reset := 0 }

/-- U_STATE_COUPLED (RO, spec/02_units.md): 1: this unit is a coupled member. -/
def U_STATE_COUPLED : Fld := { blk := .unit, pos := 0x4 * 8 + 8, width := 1, acc := .ro, reset := 0 }

/-- U_FLAGS_COEF_LOCKED (W1C, spec/02_units.md): LCK write ignored while CLOSED (R11). -/
def U_FLAGS_COEF_LOCKED : Fld := { blk := .unit, pos := 0x8 * 8 + 0, width := 1, acc := .w1c, reset := 0 }

/-- U_FLAGS_CEIL (W1C, spec/02_units.md): A reference was clamped to a ceiling. -/
def U_FLAGS_CEIL : Fld := { blk := .unit, pos := 0x8 * 8 + 1, width := 1, acc := .w1c, reset := 0 }

/-- U_FLAGS_COUPLED_WR (W1C, spec/02_units.md): Write to a coupled member ignored (R50). -/
def U_FLAGS_COUPLED_WR : Fld := { blk := .unit, pos := 0x8 * 8 + 2, width := 1, acc := .w1c, reset := 0 }

/-- U_FLAGS_FAULT (W1C, spec/02_units.md): A fault was raised; the code is in the supervision block. -/
def U_FLAGS_FAULT : Fld := { blk := .unit, pos := 0x8 * 8 + 3, width := 1, acc := .w1c, reset := 0 }

/-- U_MEMBER_OF_CONSIST (RO, spec/02_units.md): Unit number of the consist this unit belongs to. -/
def U_MEMBER_OF_CONSIST : Fld := { blk := .unit, pos := 0xC * 8 + 0, width := 10, acc := .ro, reset := 0 }

/-- U_MEMBER_OF_STN (RO, spec/02_units.md): Head station of that consist. -/
def U_MEMBER_OF_STN : Fld := { blk := .unit, pos := 0xC * 8 + 10, width := 12, acc := .ro, reset := 0 }

/-- U_MEMBER_OF_FOLLOWER (RO, spec/02_units.md): 1: STN is another station. -/
def U_MEMBER_OF_FOLLOWER : Fld := { blk := .unit, pos := 0xC * 8 + 22, width := 1, acc := .ro, reset := 0 }

/-- U_MEMBER_OF_VALID (RO, spec/02_units.md): 1: this unit is a coupled member. -/
def U_MEMBER_OF_VALID : Fld := { blk := .unit, pos := 0xC * 8 + 23, width := 1, acc := .ro, reset := 0 }

/-- U_MEMBER_OF_INDEX (RO, spec/02_units.md): This unit's U_MEMBER index in the consist. -/
def U_MEMBER_OF_INDEX : Fld := { blk := .unit, pos := 0xC * 8 + 24, width := 3, acc := .ro, reset := 0 }

/-- U_CONSIST_CFG_TYPE (RW, spec/02_units.md): 0 parallel, 1 series. -/
def U_CONSIST_CFG_TYPE : Fld := { blk := .unit, pos := 0x10 * 8 + 0, width := 1, acc := .rw, reset := 0 }

/-- U_CONSIST_CFG_DEPART (RW, spec/02_units.md): Policy on departure: 0 SHARE, 1 SAFE (R57). -/
def U_CONSIST_CFG_DEPART : Fld := { blk := .unit, pos := 0x10 * 8 + 1, width := 1, acc := .rw, reset := 0 }

/-- U_CONSIST_CFG_OUT_DIV (RW, spec/02_units.md): Outer period in consist loop periods, 1–255; 0 acts as 1. -/
def U_CONSIST_CFG_OUT_DIV : Fld := { blk := .unit, pos := 0x10 * 8 + 8, width := 8, acc := .rw, reset := 0x40 }

/-- U_CONSIST_CFG_LOST_N (RW, spec/02_units.md): Outer periods without traffic before departure, 1–255; 0 acts as 1. -/
def U_CONSIST_CFG_LOST_N : Fld := { blk := .unit, pos := 0x10 * 8 + 16, width := 8, acc := .rw, reset := 4 }

/-- U_COUPLE_OP (CMD, spec/02_units.md): Write 1 COUPLE, 2 UNCOUPLE; read: last operation. -/
def U_COUPLE_OP : Fld := { blk := .unit, pos := 0x14 * 8 + 0, width := 2, acc := .cmd, reset := 0 }

/-- U_COUPLE_BUSY (RO, spec/02_units.md): 1: operation running. -/
def U_COUPLE_BUSY : Fld := { blk := .unit, pos := 0x14 * 8 + 2, width := 1, acc := .ro, reset := 0 }

/-- U_COUPLE_RESULT (RO, spec/02_units.md): Result of the last operation, encoded below. -/
def U_COUPLE_RESULT : Fld := { blk := .unit, pos := 0x14 * 8 + 4, width := 4, acc := .ro, reset := 0 }

/-- U_MEMBER_UNIT (RW, spec/02_units.md): Member unit number in its station. -/
def U_MEMBER_UNIT : Fld := { blk := .unit, pos := 0x18 * 8 + 0, width := 10, stride := 32, count := 8, acc := .rw, reset := 0 }

/-- U_MEMBER_STN (RW, spec/02_units.md): Member's station; ignored when REMOTE is 0. -/
def U_MEMBER_STN : Fld := { blk := .unit, pos := 0x18 * 8 + 10, width := 12, stride := 32, count := 8, acc := .rw, reset := 0 }

/-- U_MEMBER_REMOTE (RW, spec/02_units.md): 1: member is a follower in station STN. -/
def U_MEMBER_REMOTE : Fld := { blk := .unit, pos := 0x18 * 8 + 22, width := 1, stride := 32, count := 8, acc := .rw, reset := 0 }

/-- U_MEMBER_VALID (RW, spec/02_units.md): 1: entry in use. -/
def U_MEMBER_VALID : Fld := { blk := .unit, pos := 0x18 * 8 + 23, width := 1, stride := 32, count := 8, acc := .rw, reset := 0 }

/-- U_MEMBER_WEIGHT (RW, spec/02_units.md): Share weight w, 1–255. -/
def U_MEMBER_WEIGHT : Fld := { blk := .unit, pos := 0x18 * 8 + 24, width := 8, stride := 32, count := 8, acc := .rw, reset := 0 }

/-- U_CONSIST_STAT_COUPLED (RO, spec/02_units.md): 1: coupled. -/
def U_CONSIST_STAT_COUPLED : Fld := { blk := .unit, pos := 0x38 * 8 + 0, width := 1, acc := .ro, reset := 0 }

/-- U_CONSIST_STAT_DEPTH (RO, spec/02_units.md): Consist depth, 1–4. -/
def U_CONSIST_STAT_DEPTH : Fld := { blk := .unit, pos := 0x38 * 8 + 1, width := 3, acc := .ro, reset := 0 }

/-- U_CONSIST_STAT_DEPARTED (W1C, spec/02_units.md): Bit m: member m departed; clearing is allowed only while the consist is ISOLATED. -/
def U_CONSIST_STAT_DEPARTED : Fld := { blk := .unit, pos := 0x38 * 8 + 4, width := 8, acc := .w1c, reset := 0 }

/-- U_CONSIST_STAT_REMOTE (RO, spec/02_units.md): Bit m: member m is a follower. -/
def U_CONSIST_STAT_REMOTE : Fld := { blk := .unit, pos := 0x38 * 8 + 12, width := 8, acc := .ro, reset := 0 }

/-- U_CONSIST_STAT_W (RO, spec/02_units.md): Sum of the weights of the members present, 0–2,040 (R46, R57). -/
def U_CONSIST_STAT_W : Fld := { blk := .unit, pos := 0x38 * 8 + 20, width := 11, acc := .ro, reset := 0 }

/-- U_FOLLOW_LATE_COUNT (RO, spec/02_units.md): Outer updates dropped as late at this unit as follower, wrapping modulo 2^32. -/
def U_FOLLOW_LATE_COUNT : Fld := { blk := .unit, pos := 0x3C * 8 + 0, width := 32, acc := .ro, reset := 0 }

/-- DIE_SNAP_STAT_HELD (RO, spec/02_units.md): Bit i: slot i held. -/
def DIE_SNAP_STAT_HELD : Fld := { blk := .die, pos := 0x420 * 8 + 0, width := 16, acc := .ro, reset := 0 }

/-- DIE_SNAP_STAT_WAITING (RO, spec/02_units.md): Slot requests now pending, 0–23. -/
def DIE_SNAP_STAT_WAITING : Fld := { blk := .die, pos := 0x420 * 8 + 16, width := 5, acc := .ro, reset := 0 }

/-- DIE_SNAP_MISS_COUNT (RO, spec/02_units.md): Higher-word reads without a slot, wrapping modulo 2^32. -/
def DIE_SNAP_MISS_COUNT : Fld := { blk := .die, pos := 0x424 * 8 + 0, width := 32, acc := .ro, reset := 0 }

/-- STN_STATE_STATE (RO, spec/02_units.md): 1 BOOTING, 2 HELD, 3 RUN, 4 SAFE, 5 DARK; 0, 6 and 7 not used. -/
def STN_STATE_STATE : Fld := { blk := .stn, pos := 0x40 * 8 + 0, width := 3, acc := .ro, reset := 1 }

/-- STN_STATE_DARK_B (RO, spec/02_units.md): 1: not joined to a Line that is configured. -/
def STN_STATE_DARK_B : Fld := { blk := .stn, pos := 0x40 * 8 + 3, width := 1, acc := .ro, reset := 0 }

/-- STN_STATE_ILK_OPEN (RO, spec/02_units.md): 1: ILK0 or ILK1 open. -/
def STN_STATE_ILK_OPEN : Fld := { blk := .stn, pos := 0x40 * 8 + 4, width := 1, acc := .ro, reset := 0 }

/-- STN_STATE_RELIEF (RO, spec/02_units.md): 1: boot die is die 1. -/
def STN_STATE_RELIEF : Fld := { blk := .stn, pos := 0x40 * 8 + 5, width := 1, acc := .ro, reset := 0 }

/-- U_MODE_MODE (LCK, spec/03_force.md): 0 force-voltage, 1 force-current; law sets in "The control engine: laws, arbitration and the period". -/
def U_MODE_MODE : Fld := { blk := .unit, pos := 0x40 * 8 + 0, width := 1, acc := .lck, reset := 0 }

/-- U_MODE_LAW (LCK, spec/03_force.md): Law set, 0–3. -/
def U_MODE_LAW : Fld := { blk := .unit, pos := 0x40 * 8 + 1, width := 2, acc := .lck, reset := 0 }

/-- U_MODE_OLSRC (RW, spec/03_force.md): Open-loop drive source: 0 HOLD, 1 REF (R93); set to 0 whenever the loop opens. -/
def U_MODE_OLSRC : Fld := { blk := .unit, pos := 0x40 * 8 + 3, width := 1, acc := .rw, reset := 0 }

/-- U_MODE_POL (RO, spec/03_force.md): 1: drive code negated before the DAC. -/
def U_MODE_POL : Fld := { blk := .unit, pos := 0x40 * 8 + 4, width := 1, acc := .ro, reset := 0 }

/-- U_REF_PUSH_VALUE (WO, spec/03_force.md): Pushes one entry with this value and no override (R75, R77). -/
def U_REF_PUSH_VALUE : Fld := { blk := .unit, pos := 0x44 * 8 + 0, width := 32, acc := .wo, reset := 0 }

/-- U_REF_TARGET_CODE (RO, spec/03_force.md): Target T at the last tick, after the ceiling clamp. -/
def U_REF_TARGET_CODE : Fld := { blk := .unit, pos := 0x48 * 8 + 0, width := 32, acc := .ro, reset := 0 }

/-- U_REF_SLEWED_CODE (RO, spec/03_force.md): Slewed reference r_s at the last tick. -/
def U_REF_SLEWED_CODE : Fld := { blk := .unit, pos := 0x4C * 8 + 0, width := 32, acc := .ro, reset := 0 }

/-- U_REF_STAT_LEVEL (RO, spec/03_force.md): Entries in the queue, 0–32. -/
def U_REF_STAT_LEVEL : Fld := { blk := .unit, pos := 0x50 * 8 + 0, width := 6, acc := .ro, reset := 0 }

/-- U_REF_STAT_OWNER (RO, spec/03_force.md): 0 host, 1 timetable. -/
def U_REF_STAT_OWNER : Fld := { blk := .unit, pos := 0x50 * 8 + 6, width := 1, acc := .ro, reset := 0 }

/-- U_REF_STAT_UNDERRUN (W1C, spec/03_force.md): Under-run reported by the bound engine. -/
def U_REF_STAT_UNDERRUN : Fld := { blk := .unit, pos := 0x50 * 8 + 7, width := 1, acc := .w1c, reset := 0 }

/-- U_REF_STAT_HOST_IGN (W1C, spec/03_force.md): A host push was ignored, or discarded while the unit was isolated (R75, R88, R72). -/
def U_REF_STAT_HOST_IGN : Fld := { blk := .unit, pos := 0x50 * 8 + 8, width := 1, acc := .w1c, reset := 0 }

/-- U_REF_STAT_FULL (W1C, spec/03_force.md): A host push found the queue full. -/
def U_REF_STAT_FULL : Fld := { blk := .unit, pos := 0x50 * 8 + 9, width := 1, acc := .w1c, reset := 0 }

/-- U_REF_STAT_RAMPING (RO, spec/03_force.md): 1: r_s ≠ T at the last tick. -/
def U_REF_STAT_RAMPING : Fld := { blk := .unit, pos := 0x50 * 8 + 10, width := 1, acc := .ro, reset := 0 }

/-- U_REF_STAT_OVR_ACT (RO, spec/03_force.md): 1: a slew override is in force. -/
def U_REF_STAT_OVR_ACT : Fld := { blk := .unit, pos := 0x50 * 8 + 11, width := 1, acc := .ro, reset := 0 }

/-- U_REF_STAT_SAFE_RAMP (RO, spec/03_force.md): 1: ramp to zero active. -/
def U_REF_STAT_SAFE_RAMP : Fld := { blk := .unit, pos := 0x50 * 8 + 12, width := 1, acc := .ro, reset := 0 }

/-- U_REF_CMD_FLUSH (CMD, spec/03_force.md): Write 1: flush (R79). Read: 1 while the flush waits for its tick. -/
def U_REF_CMD_FLUSH : Fld := { blk := .unit, pos := 0x54 * 8 + 0, width := 1, acc := .cmd, reset := 0 }

/-- U_REF_DROP_COUNT (RO, spec/03_force.md): Host pushes dropped on a full queue, wrapping modulo 2^32. -/
def U_REF_DROP_COUNT : Fld := { blk := .unit, pos := 0x58 * 8 + 0, width := 32, acc := .ro, reset := 0 }

/-- U_SLEW_RISE_RATE (RW, spec/03_force.md): Step per loop period toward more positive codes. -/
def U_SLEW_RISE_RATE : Fld := { blk := .unit, pos := 0x60 * 8 + 0, width := 32, acc := .rw, reset := 0x100000 }

/-- U_SLEW_FALL_RATE (RW, spec/03_force.md): Step per loop period toward more negative codes. -/
def U_SLEW_FALL_RATE : Fld := { blk := .unit, pos := 0x64 * 8 + 0, width := 32, acc := .rw, reset := 0x100000 }

/-- U_SLEW_CAP_RATE (RW, spec/03_force.md): Upper bound on every effective rate (R87). -/
def U_SLEW_CAP_RATE : Fld := { blk := .unit, pos := 0x68 * 8 + 0, width := 32, acc := .rw, reset := 0xffffffff }

/-- U_SLEW_SAFE_RATE (RW, spec/03_force.md): Rate of the ramp to zero (R88). -/
def U_SLEW_SAFE_RATE : Fld := { blk := .unit, pos := 0x6C * 8 + 0, width := 32, acc := .rw, reset := 0x100000 }

/-- U_CEIL_EFF_CODE (RO, spec/03_force.md): Ceiling code C for the present mode and range (R84). -/
def U_CEIL_EFF_CODE : Fld := { blk := .unit, pos := 0x70 * 8 + 0, width := 32, acc := .ro, reset := 0 }

/-- U_DRV_LIM_CODE (RW, spec/03_force.md): Symmetric drive clamp L; values above 0x7FFF_FFFF act as 0x7FFF_FFFF. -/
def U_DRV_LIM_CODE : Fld := { blk := .unit, pos := 0x74 * 8 + 0, width := 32, acc := .rw, reset := 0x7fffffff }

/-- U_DRV_HOLD_CODE (RW, spec/03_force.md): Open-loop hold value; loaded by the device as R94 states. -/
def U_DRV_HOLD_CODE : Fld := { blk := .unit, pos := 0x78 * 8 + 0, width := 32, acc := .rw, reset := 0 }

/-- U_DRV_CODE_CODE (RO, spec/03_force.md): Drive code committed at the last tick, after the clamp and before polarity. -/
def U_DRV_CODE_CODE : Fld := { blk := .unit, pos := 0x7C * 8 + 0, width := 32, acc := .ro, reset := 0 }

/-- U_DRV_STAT_BUFMODE (RO, spec/03_force.md): 0 LOW, 1 NORMAL, 2 LIMIT, 3 DETACHED. -/
def U_DRV_STAT_BUFMODE : Fld := { blk := .unit, pos := 0x80 * 8 + 0, width := 2, acc := .ro, reset := 0 }

/-- U_DRV_STAT_DRV_OT (RO, spec/03_force.md): 1: buffer above its trip point, or not yet below its release point. -/
def U_DRV_STAT_DRV_OT : Fld := { blk := .unit, pos := 0x80 * 8 + 2, width := 1, acc := .ro, reset := 0 }

/-- U_DRV_STAT_DRV_OT_SEEN (W1C, spec/03_force.md): DRV_OT has been set. -/
def U_DRV_STAT_DRV_OT_SEEN : Fld := { blk := .unit, pos := 0x80 * 8 + 3, width := 1, acc := .w1c, reset := 0 }

/-- U_DRV_STAT_LIMITED (W1C, spec/03_force.md): The drive clamp changed a committed code. -/
def U_DRV_STAT_LIMITED : Fld := { blk := .unit, pos := 0x80 * 8 + 4, width := 1, acc := .w1c, reset := 0 }

/-- U_LIM_SP1_CODE (RW, spec/04_control.md): Upper-limit setpoint SP1, stage units of the limited quantity (R103). -/
def U_LIM_SP1_CODE : Fld := { blk := .unit, pos := 0x84 * 8 + 0, width := 32, acc := .rw, reset := 0x7fffffff }

/-- U_LIM_SP2_CODE (RW, spec/04_control.md): Lower-limit setpoint SP2 (R103). -/
def U_LIM_SP2_CODE : Fld := { blk := .unit, pos := 0x88 * 8 + 0, width := 32, acc := .rw, reset := 0x80000000 }

/-- U_LIM_SP3_CODE (RW, spec/04_control.md): Power setpoint before derating (R104); negative codes act as 0. -/
def U_LIM_SP3_CODE : Fld := { blk := .unit, pos := 0x8C * 8 + 0, width := 32, acc := .rw, reset := 0x7fffffff }

/-- U_PWL_DERATE_D (RO, spec/04_control.md): Derating factor in force, 65,536 = 100% (R104). -/
def U_PWL_DERATE_D : Fld := { blk := .unit, pos := 0x90 * 8 + 0, width := 17, acc := .ro, reset := 0x10000 }

/-- U_LOOP_CTRL_RATE (LCK, spec/04_control.md): Loop rate (R128). -/
def U_LOOP_CTRL_RATE : Fld := { blk := .unit, pos := 0xA0 * 8 + 0, width := 3, acc := .lck, reset := 0 }

/-- U_LOOP_CMD_CMD (CMD, spec/04_control.md): Write 1 CLOSE, 2 OPEN, 3 SWITCH, 4 LOAD; read: last command (R123). -/
def U_LOOP_CMD_CMD : Fld := { blk := .unit, pos := 0xA4 * 8 + 0, width := 3, acc := .cmd, reset := 0 }

/-- U_LOOP_CMD_NEW_MODE (RW, spec/04_control.md): Mode for SWITCH. -/
def U_LOOP_CMD_NEW_MODE : Fld := { blk := .unit, pos := 0xA4 * 8 + 3, width := 1, acc := .rw, reset := 0 }

/-- U_LOOP_CMD_NEW_LAW (RW, spec/04_control.md): Law set for SWITCH. -/
def U_LOOP_CMD_NEW_LAW : Fld := { blk := .unit, pos := 0xA4 * 8 + 4, width := 2, acc := .rw, reset := 0 }

/-- U_LOOP_CMD_BUSY (RO, spec/04_control.md): 1: command waiting for its tick. -/
def U_LOOP_CMD_BUSY : Fld := { blk := .unit, pos := 0xA4 * 8 + 6, width := 1, acc := .ro, reset := 0 }

/-- U_LOOP_CMD_RESULT (RO, spec/04_control.md): Result, encoded below. -/
def U_LOOP_CMD_RESULT : Fld := { blk := .unit, pos := 0xA4 * 8 + 8, width := 3, acc := .ro, reset := 0 }

/-- U_LATE_COUNT_COUNT (RO, spec/04_control.md): Late periods of this unit's loop engine, wrapping modulo 2^32. -/
def U_LATE_COUNT_COUNT : Fld := { blk := .unit, pos := 0xA8 * 8 + 0, width := 32, acc := .ro, reset := 0 }

/-- U_LATE_CFG_LATE_RUN (RW, spec/04_control.md): Consecutive late periods that raise FLT_LATE; 0 acts as 1 (R122). -/
def U_LATE_CFG_LATE_RUN : Fld := { blk := .unit, pos := 0xAC * 8 + 0, width := 8, acc := .rw, reset := 4 }

/-- U_LATE_STAT_RUN (RO, spec/04_control.md): Present run of consecutive late periods. -/
def U_LATE_STAT_RUN : Fld := { blk := .unit, pos := 0xB0 * 8 + 0, width := 8, acc := .ro, reset := 0 }

/-- U_LATE_STAT_MAX (W1C, spec/04_control.md): Longest run seen, saturating at 0xFF; writing 1s clears the written bits. -/
def U_LATE_STAT_MAX : Fld := { blk := .unit, pos := 0xB0 * 8 + 8, width := 8, acc := .w1c, reset := 0 }

/-- U_LAW_CFG_NSEC (LCK, spec/04_control.md): Sections in the cascade, 1–8 (R111). -/
def U_LAW_CFG_NSEC : Fld := { blk := .unit, pos := 0xC0 * 8 + 0, width := 4, stride := 32, count := 4, acc := .lck, reset := 1 }

/-- U_LAW_CFG_EN (LCK, spec/04_control.md): 1: law enabled; reads 1 for l = 0 (R105). -/
def U_LAW_CFG_EN : Fld := { blk := .unit, pos := 0xC0 * 8 + 4, width := 1, stride := 32, count := 4, acc := .lck, reset := 0 }

/-- U_LAW_HI_CODE (LCK, spec/04_control.md): Upper output bound HI_l. -/
def U_LAW_HI_CODE : Fld := { blk := .unit, pos := 0xD0 * 8 + 0, width := 32, stride := 64, count := 4, acc := .lck, reset := 0x7fffffff }

/-- U_LAW_LO_CODE (LCK, spec/04_control.md): Lower output bound LO_l. -/
def U_LAW_LO_CODE : Fld := { blk := .unit, pos := 0xD4 * 8 + 0, width := 32, stride := 64, count := 4, acc := .lck, reset := 0x80000000 }

/-- U_LAW_TRACK_CODE (LCK, spec/04_control.md): Tracking band, unsigned (R118). -/
def U_LAW_TRACK_CODE : Fld := { blk := .unit, pos := 0xF0 * 8 + 0, width := 32, stride := 32, count := 4, acc := .lck, reset := 0x1000000 }

/-- U_LAW_COEF_VALUE (LCK, spec/04_control.md): w = 0–4: b0, b1, b2, a1, a2 in Q1.31; w = 5: packed shifts and INTEG (R108). -/
def U_LAW_COEF_VALUE : Fld := { blk := .unit, pos := 0x100 * 8 + 0, width := 32, stride := 32, count := 192, acc := .lck, reset := 0 }

/-- U_FF_PTR_EN (RW, spec/04_control.md): 1: DRIVE_FF enabled; pending until the next injection boundary (R113). -/
def U_FF_PTR_EN : Fld := { blk := .unit, pos := 0x700 * 8 + 0, width := 1, acc := .rw, reset := 0 }

/-- U_FF_PTR_BLOCK (RW, spec/04_control.md): 4 KiB block index, 0–95. -/
def U_FF_PTR_BLOCK : Fld := { blk := .unit, pos := 0x700 * 8 + 12, width := 7, acc := .rw, reset := 0 }

/-- U_LEAK_PTR_EN (RW, spec/04_control.md): 1: LEAK enabled; pending until the next injection boundary. -/
def U_LEAK_PTR_EN : Fld := { blk := .unit, pos := 0x704 * 8 + 0, width := 1, acc := .rw, reset := 0 }

/-- U_LEAK_PTR_BLOCK (RW, spec/04_control.md): 4 KiB block index, 0–95. -/
def U_LEAK_PTR_BLOCK : Fld := { blk := .unit, pos := 0x704 * 8 + 12, width := 7, acc := .rw, reset := 0 }

/-- U_TBL_STAT_FF_ACT (RO, spec/04_control.md): 1: DRIVE_FF active. -/
def U_TBL_STAT_FF_ACT : Fld := { blk := .unit, pos := 0x708 * 8 + 0, width := 1, acc := .ro, reset := 0 }

/-- U_TBL_STAT_FF_BLOCK (RO, spec/04_control.md): Active DRIVE_FF block. -/
def U_TBL_STAT_FF_BLOCK : Fld := { blk := .unit, pos := 0x708 * 8 + 1, width := 7, acc := .ro, reset := 0 }

/-- U_TBL_STAT_LEAK_ACT (RO, spec/04_control.md): 1: LEAK active. -/
def U_TBL_STAT_LEAK_ACT : Fld := { blk := .unit, pos := 0x708 * 8 + 8, width := 1, acc := .ro, reset := 0 }

/-- U_TBL_STAT_LEAK_BLOCK (RO, spec/04_control.md): Active LEAK block. -/
def U_TBL_STAT_LEAK_BLOCK : Fld := { blk := .unit, pos := 0x708 * 8 + 9, width := 7, acc := .ro, reset := 0 }

/-- U_TBL_STAT_FF_PEND (RO, spec/04_control.md): 1: U_FF_PTR write waiting for a boundary. -/
def U_TBL_STAT_FF_PEND : Fld := { blk := .unit, pos := 0x708 * 8 + 16, width := 1, acc := .ro, reset := 0 }

/-- U_TBL_STAT_LEAK_PEND (RO, spec/04_control.md): 1: U_LEAK_PTR write waiting for a boundary. -/
def U_TBL_STAT_LEAK_PEND : Fld := { blk := .unit, pos := 0x708 * 8 + 17, width := 1, acc := .ro, reset := 0 }

/-- U_TBL_STAT_BAD (W1C, spec/04_control.md): A block index above 95 was refused. -/
def U_TBL_STAT_BAD : Fld := { blk := .unit, pos := 0x708 * 8 + 18, width := 1, acc := .w1c, reset := 0 }

/-- U_LAWSET_PTR_OFFS (RW, spec/04_control.md): Offset of image 0 in coefficient SRAM, in 64-byte units (R106). -/
def U_LAWSET_PTR_OFFS : Fld := { blk := .unit, pos := 0x70C * 8 + 6, width := 13, acc := .rw, reset := 0 }

/-- U_SHARE_COEF_VALUE (LCK, spec/04_control.md): w = 0–4: b0, b1, b2, a1, a2 of the share law; w = 5: packed shifts and INTEG (R129). -/
def U_SHARE_COEF_VALUE : Fld := { blk := .unit, pos := 0x710 * 8 + 0, width := 32, stride := 32, count := 6, acc := .lck, reset := 0 }

/-- U_SHARE_LIM_CODE (LCK, spec/04_control.md): Bound on the share correction, unsigned. -/
def U_SHARE_LIM_CODE : Fld := { blk := .unit, pos := 0x728 * 8 + 0, width := 32, acc := .lck, reset := 0x4000000 }

/-- U_SHARE_CORR_CODE (RO, spec/04_control.md): Share correction committed at the last tick. -/
def U_SHARE_CORR_CODE : Fld := { blk := .unit, pos := 0x72C * 8 + 0, width := 32, acc := .ro, reset := 0 }

/-- U_FAULT_FIRST (RO, spec/05_supervision.md): First fault code since the last clear (R140). -/
def U_FAULT_FIRST : Fld := { blk := .unit, pos := 0x600 * 8 + 0, width := 8, acc := .ro, reset := 0 }

/-- U_FAULT_LAST (RO, spec/05_supervision.md): Most recent fault code. -/
def U_FAULT_LAST : Fld := { blk := .unit, pos := 0x600 * 8 + 8, width := 8, acc := .ro, reset := 0 }

/-- U_FAULT_ACTION (RO, spec/05_supervision.md): Strongest action applied: 0 none or Record, 1 HOLD, 2 ZERO, 3 ISOLATE, with a ramp or, for immediate isolation and FLT_CONTACT, without one. -/
def U_FAULT_ACTION : Fld := { blk := .unit, pos := 0x600 * 8 + 16, width := 2, acc := .ro, reset := 0 }

/-- U_FAULT_ISOLATED (RO, spec/05_supervision.md): 1: the unit's output is isolated. -/
def U_FAULT_ISOLATED : Fld := { blk := .unit, pos := 0x600 * 8 + 18, width := 1, acc := .ro, reset := 0 }

/-- U_FAULT_MAP_MAP (RO, spec/05_supervision.md): Bit k: fault code k raised since the last clear. -/
def U_FAULT_MAP_MAP : Fld := { blk := .unit, pos := 0x604 * 8 + 1, width := 12, acc := .ro, reset := 0 }

/-- U_FAULT_TIME_TICK (SNAP, spec/05_supervision.md): Line tick count of the tick at which FIRST was raised. -/
def U_FAULT_TIME_TICK : Fld := { blk := .unit, pos := 0x608 * 8 + 0, width := 64, acc := .snap, reset := 0 }

/-- U_FAULT_POL_POLICY (RW, spec/05_supervision.md): 0 HOLD, 1 ZERO, 2 ISOLATE; 3 acts as 2. Read when a fault is raised. -/
def U_FAULT_POL_POLICY : Fld := { blk := .unit, pos := 0x610 * 8 + 0, width := 2, acc := .rw, reset := 2 }

/-- U_FAULT_CLR_CLR (CMD, spec/05_supervision.md): Write 1: clear (R143). Read: 1 while waiting for its tick. -/
def U_FAULT_CLR_CLR : Fld := { blk := .unit, pos := 0x614 * 8 + 0, width := 1, acc := .cmd, reset := 0 }

/-- U_FAULT_CLR_RESULT (RO, spec/05_supervision.md): 0 done, 1 refused: cause persists, 2 ignored: previous clear waiting. -/
def U_FAULT_CLR_RESULT : Fld := { blk := .unit, pos := 0x614 * 8 + 4, width := 2, acc := .ro, reset := 0 }

/-- U_FAULT_COUNT_COUNT (RO, spec/05_supervision.md): Faults raised, wrapping modulo 2^32. -/
def U_FAULT_COUNT_COUNT : Fld := { blk := .unit, pos := 0x618 * 8 + 0, width := 32, acc := .ro, reset := 0 }

/-- U_FE_CFG_EN (RW, spec/05_supervision.md): 1: following-error check enabled. -/
def U_FE_CFG_EN : Fld := { blk := .unit, pos := 0x620 * 8 + 0, width := 1, acc := .rw, reset := 0 }

/-- U_FE_CFG_FE_TIME (RW, spec/05_supervision.md): Ticks of excess error that raise FLT_FE, 1–65,535; 0 acts as 1. -/
def U_FE_CFG_FE_TIME : Fld := { blk := .unit, pos := 0x620 * 8 + 16, width := 16, acc := .rw, reset := 0x400 }

/-- U_FE_LIMIT_CODE (RW, spec/05_supervision.md): Unsigned limit on |e_FE|, in stage units of the winning law's quantity. -/
def U_FE_LIMIT_CODE : Fld := { blk := .unit, pos := 0x624 * 8 + 0, width := 32, acc := .rw, reset := 0x8000000 }

/-- U_SENSE_CFG_EN (RW, spec/05_supervision.md): 1: sense-lead watch enabled. -/
def U_SENSE_CFG_EN : Fld := { blk := .unit, pos := 0x628 * 8 + 0, width := 1, acc := .rw, reset := 1 }

/-- U_SENSE_CFG_SLW_N (RW, spec/05_supervision.md): Consecutive flagged ticks that raise FLT_SENSE, 1–255; 0 acts as 1. -/
def U_SENSE_CFG_SLW_N : Fld := { blk := .unit, pos := 0x628 * 8 + 8, width := 8, acc := .rw, reset := 4 }

/-- U_FRZ_CFG_EN (RW, spec/05_supervision.md): 1: frozen detector enabled. -/
def U_FRZ_CFG_EN : Fld := { blk := .unit, pos := 0x62C * 8 + 0, width := 1, acc := .rw, reset := 1 }

/-- U_FRZ_CFG_FRZ_N (RW, spec/05_supervision.md): Run length in ticks, 2–65,535; 0 and 1 act as 2. -/
def U_FRZ_CFG_FRZ_N : Fld := { blk := .unit, pos := 0x62C * 8 + 16, width := 16, acc := .rw, reset := 0x40 }

/-- U_FRZ_D_CODE (RW, spec/05_supervision.md): Unsigned drive spread above which a frozen run raises FLT_FROZEN. -/
def U_FRZ_D_CODE : Fld := { blk := .unit, pos := 0x630 * 8 + 0, width := 32, acc := .rw, reset := 0x100000 }

/-- U_SUP_STAT_FE_RUN (RO, spec/05_supervision.md): Present following-error run (R135). -/
def U_SUP_STAT_FE_RUN : Fld := { blk := .unit, pos := 0x634 * 8 + 0, width := 16, acc := .ro, reset := 0 }

/-- U_SUP_STAT_SLW_RUN (RO, spec/05_supervision.md): Present sense-lead run, saturating at 0xFF. -/
def U_SUP_STAT_SLW_RUN : Fld := { blk := .unit, pos := 0x634 * 8 + 16, width := 8, acc := .ro, reset := 0 }

/-- U_SUP_STAT_SLW_NOW (RO, spec/05_supervision.md): 1: the sense-lead watch flagged the last tick. -/
def U_SUP_STAT_SLW_NOW : Fld := { blk := .unit, pos := 0x634 * 8 + 24, width := 1, acc := .ro, reset := 0 }

/-- U_SUP_STAT_CM_V (RO, spec/05_supervision.md): 1: the VS pair's common mode was outside its window at the last tick. -/
def U_SUP_STAT_CM_V : Fld := { blk := .unit, pos := 0x634 * 8 + 25, width := 1, acc := .ro, reset := 0 }

/-- U_SUP_STAT_CM_I (RO, spec/05_supervision.md): 1: the current pair's common mode was outside its window at the last tick. -/
def U_SUP_STAT_CM_I : Fld := { blk := .unit, pos := 0x634 * 8 + 26, width := 1, acc := .ro, reset := 0 }

/-- U_FRZ_STAT_FRZ_RUN (RO, spec/05_supervision.md): Longer of the present frozen runs, saturating at 0xFFFF. -/
def U_FRZ_STAT_FRZ_RUN : Fld := { blk := .unit, pos := 0x638 * 8 + 0, width := 16, acc := .ro, reset := 0 }

/-- DIE_FAULT_SUM_UNITS (RO, spec/05_supervision.md): w = 0: bit c set while channel c has a nonzero U_FAULT.FIRST; w = 1: bits [1:0] for S0 and S1, other bits reserved. -/
def DIE_FAULT_SUM_UNITS : Fld := { blk := .die, pos := 0x430 * 8 + 0, width := 32, stride := 32, count := 2, acc := .ro, reset := 0 }

/-- MUS_CAP_UNIT_UNIT (RW, spec/05_supervision.md): Unit traced. -/
def MUS_CAP_UNIT_UNIT : Fld := { blk := .cap, pos := 0x0 * 8 + 0, width := 10, acc := .rw, reset := 0 }

/-- MUS_CAP_UNIT_DEC (RW, spec/05_supervision.md): One entry every DEC + 1 loop periods. -/
def MUS_CAP_UNIT_DEC : Fld := { blk := .cap, pos := 0x0 * 8 + 16, width := 8, acc := .rw, reset := 0 }

/-- MUS_CAP_BUF_BLOCK (RW, spec/05_supervision.md): First 4 KiB block in Muslin SRAM, 0–127. -/
def MUS_CAP_BUF_BLOCK : Fld := { blk := .cap, pos := 0x4 * 8 + 0, width := 7, acc := .rw, reset := 0 }

/-- MUS_CAP_BUF_NBLK (RW, spec/05_supervision.md): Ring length in SRAM blocks, 1–128. -/
def MUS_CAP_BUF_NBLK : Fld := { blk := .cap, pos := 0x4 * 8 + 8, width := 8, acc := .rw, reset := 1 }

/-- MUS_CAP_BUF_EXT (RW, spec/05_supervision.md): 1: ring in DDR5 (R151). -/
def MUS_CAP_BUF_EXT : Fld := { blk := .cap, pos := 0x4 * 8 + 16, width := 1, acc := .rw, reset := 0 }

/-- MUS_CAP_EXT_BASE_ADDR (RW, spec/05_supervision.md): DDR5 station address of the ring, 4 KiB aligned; bits [11:0] read 0. -/
def MUS_CAP_EXT_BASE_ADDR : Fld := { blk := .cap, pos := 0x8 * 8 + 0, width := 40, acc := .rw, reset := 0 }

/-- MUS_CAP_EXT_SIZE_NBLK (RW, spec/05_supervision.md): Ring length in DDR5 in 4 KiB blocks. -/
def MUS_CAP_EXT_SIZE_NBLK : Fld := { blk := .cap, pos := 0x10 * 8 + 0, width := 20, acc := .rw, reset := 0 }

/-- MUS_CAP_TRIG_KIND (RW, spec/05_supervision.md): Trigger kind (R150). -/
def MUS_CAP_TRIG_KIND : Fld := { blk := .cap, pos := 0x14 * 8 + 0, width := 3, acc := .rw, reset := 0 }

/-- MUS_CAP_TRIG_ARG (RW, spec/05_supervision.md): Argument (R150). -/
def MUS_CAP_TRIG_ARG : Fld := { blk := .cap, pos := 0x14 * 8 + 8, width := 9, acc := .rw, reset := 0 }

/-- MUS_CAP_TRIG_OP (RW, spec/05_supervision.md): Compare operator (R150). -/
def MUS_CAP_TRIG_OP : Fld := { blk := .cap, pos := 0x14 * 8 + 20, width := 2, acc := .rw, reset := 0 }

/-- MUS_CAP_TA_CODE (RW, spec/05_supervision.md): Signed compare thresholds. -/
def MUS_CAP_TA_CODE : Fld := { blk := .cap, pos := 0x18 * 8 + 0, width := 32, acc := .rw, reset := 0 }

/-- MUS_CAP_TB_CODE (RW, spec/05_supervision.md): Signed compare thresholds. -/
def MUS_CAP_TB_CODE : Fld := { blk := .cap, pos := 0x1C * 8 + 0, width := 32, acc := .rw, reset := 0 }

/-- MUS_CAP_DEPTH_PRE (RW, spec/05_supervision.md): Entries wanted before the trigger entry. -/
def MUS_CAP_DEPTH_PRE : Fld := { blk := .cap, pos := 0x20 * 8 + 0, width := 16, acc := .rw, reset := 0 }

/-- MUS_CAP_DEPTH_POST (RW, spec/05_supervision.md): Entries after the trigger entry. -/
def MUS_CAP_DEPTH_POST : Fld := { blk := .cap, pos := 0x20 * 8 + 16, width := 16, acc := .rw, reset := 0 }

/-- MUS_CAP_CMD_CMD (CMD, spec/05_supervision.md): Write 1 ARM, 2 STOP, 3 FORCE; read: last command. -/
def MUS_CAP_CMD_CMD : Fld := { blk := .cap, pos := 0x24 * 8 + 0, width := 2, acc := .cmd, reset := 0 }

/-- MUS_CAP_STAT_STATE (RO, spec/05_supervision.md): 0 IDLE, 1 ARMED, 2 TRIGGERED, 3 DONE. -/
def MUS_CAP_STAT_STATE : Fld := { blk := .cap, pos := 0x28 * 8 + 0, width := 2, acc := .ro, reset := 0 }

/-- MUS_CAP_STAT_PRE_SHORT (RO, spec/05_supervision.md): Fewer than PRE entries before the trigger entry. -/
def MUS_CAP_STAT_PRE_SHORT : Fld := { blk := .cap, pos := 0x28 * 8 + 2, width := 1, acc := .ro, reset := 0 }

/-- MUS_CAP_STAT_SEL_WR (W1C, spec/05_supervision.md): A selection write was ignored (R149). -/
def MUS_CAP_STAT_SEL_WR : Fld := { blk := .cap, pos := 0x28 * 8 + 3, width := 1, acc := .w1c, reset := 0 }

/-- MUS_CAP_STAT_RESULT (RO, spec/05_supervision.md): Result of the last ARM (R149). -/
def MUS_CAP_STAT_RESULT : Fld := { blk := .cap, pos := 0x28 * 8 + 4, width := 3, acc := .ro, reset := 0 }

/-- MUS_CAP_TIDX_INDEX (RO, spec/05_supervision.md): Ring index of the trigger entry (TIDX), or of the next entry to be written (WIDX). -/
def MUS_CAP_TIDX_INDEX : Fld := { blk := .cap, pos := 0x2C * 8 + 0, width := 28, acc := .ro, reset := 0 }

/-- MUS_CAP_WIDX_INDEX (RO, spec/05_supervision.md): Ring index of the trigger entry (TIDX), or of the next entry to be written (WIDX). -/
def MUS_CAP_WIDX_INDEX : Fld := { blk := .cap, pos := 0x30 * 8 + 0, width := 28, acc := .ro, reset := 0 }

/-- MUS_CAP_DROP_COUNT (RO, spec/05_supervision.md): Entries dropped in DDR5 mode, wrapping modulo 2^32. -/
def MUS_CAP_DROP_COUNT : Fld := { blk := .cap, pos := 0x34 * 8 + 0, width := 32, acc := .ro, reset := 0 }

/-- MUS_CAP_GEOM_ESIZE (RO, spec/05_supervision.md): Entry size in bytes, set at ARM. -/
def MUS_CAP_GEOM_ESIZE : Fld := { blk := .cap, pos := 0x38 * 8 + 0, width := 8, acc := .ro, reset := 0 }

/-- MUS_CAP_CAP_CAP (RO, spec/05_supervision.md): Ring capacity in entries, set at ARM (R148); up to 2^27 for a DDR5 ring. -/
def MUS_CAP_CAP_CAP : Fld := { blk := .cap, pos := 0x3C * 8 + 0, width := 28, acc := .ro, reset := 0 }

/-- U_TRC_SEL_NODE (RW, spec/05_supervision.md): Node number (R146). -/
def U_TRC_SEL_NODE : Fld := { blk := .unit, pos := 0x780 * 8 + 0, width := 8, stride := 32, count := 16, acc := .rw, reset := 0 }

/-- U_TRC_SEL_EN (RW, spec/05_supervision.md): 1: selection in use. -/
def U_TRC_SEL_EN : Fld := { blk := .unit, pos := 0x780 * 8 + 8, width := 1, stride := 32, count := 16, acc := .rw, reset := 0 }

/-- U_MDEC_D (RW, spec/06_measure.md): Decimation ratio, 32–16,777,216 (0 is 16,777,216); values below 32 act as 32. Pending until the next injection boundary (R159). -/
def U_MDEC_D : Fld := { blk := .unit, pos := 0x94 * 8 + 0, width := 24, stride := 32, count := 3, acc := .rw, reset := 0x12c000 }

/-- U_MDEC_N (RW, spec/06_measure.md): Sinc order, 1–5; 0 acts as 1, and 6–7 act as 5. -/
def U_MDEC_N : Fld := { blk := .unit, pos := 0x94 * 8 + 24, width := 3, stride := 32, count := 3, acc := .rw, reset := 3 }

/-- U_MDEC_FIR (RW, spec/06_measure.md): 1: post-FIR (R158). -/
def U_MDEC_FIR : Fld := { blk := .unit, pos := 0x94 * 8 + 27, width := 1, stride := 32, count := 3, acc := .rw, reset := 0 }

/-- U_BIN_SRC_QTY (RW, spec/06_measure.md): 0 voltage, 1 current, 2 power, 3 SH (R164). -/
def U_BIN_SRC_QTY : Fld := { blk := .unit, pos := 0xB4 * 8 + 0, width := 2, stride := 8, count := 4, acc := .rw, reset := 1 }

/-- U_BIN_SRC_RATE (RW, spec/06_measure.md): 0 measurement outputs, 1 loop samples. -/
def U_BIN_SRC_RATE : Fld := { blk := .unit, pos := 0xB4 * 8 + 2, width := 1, stride := 8, count := 4, acc := .rw, reset := 0 }

/-- U_BIN_SRC_XOVR (RW, spec/06_measure.md): 1: over-range samples kept out of the statistics. -/
def U_BIN_SRC_XOVR : Fld := { blk := .unit, pos := 0xB4 * 8 + 3, width := 1, stride := 8, count := 4, acc := .rw, reset := 0 }

/-- U_BIN_SRC_WHOLE (RW, spec/06_measure.md): 1: whole windows only. -/
def U_BIN_SRC_WHOLE : Fld := { blk := .unit, pos := 0xB4 * 8 + 4, width := 1, stride := 8, count := 4, acc := .rw, reset := 0 }

/-- U_BIN_SRC_RCHG (RW, spec/06_measure.md): 0 KEEP, 1 RESTART. -/
def U_BIN_SRC_RCHG : Fld := { blk := .unit, pos := 0xB4 * 8 + 5, width := 1, stride := 8, count := 4, acc := .rw, reset := 0 }

/-- U_MEAS_STAT_VS_PEND (RO, spec/06_measure.md): 1: U_MDEC_VS write waiting for a boundary. -/
def U_MEAS_STAT_VS_PEND : Fld := { blk := .unit, pos := 0xB8 * 8 + 0, width := 1, acc := .ro, reset := 0 }

/-- U_MEAS_STAT_IS_PEND (RO, spec/06_measure.md): 1: U_MDEC_IS write waiting. -/
def U_MEAS_STAT_IS_PEND : Fld := { blk := .unit, pos := 0xB8 * 8 + 1, width := 1, acc := .ro, reset := 0 }

/-- U_MEAS_STAT_SH_PEND (RO, spec/06_measure.md): 1: U_MDEC_SH write waiting. -/
def U_MEAS_STAT_SH_PEND : Fld := { blk := .unit, pos := 0xB8 * 8 + 2, width := 1, acc := .ro, reset := 0 }

/-- U_MEAS_STAT_BAD (W1C, spec/06_measure.md): A FIR setting was refused (R158). -/
def U_MEAS_STAT_BAD : Fld := { blk := .unit, pos := 0xB8 * 8 + 3, width := 1, acc := .w1c, reset := 0 }

/-- U_MEAS_STAT_OVR_V (RO, spec/06_measure.md): Over-range flag of the last VS loop sample. -/
def U_MEAS_STAT_OVR_V : Fld := { blk := .unit, pos := 0xB8 * 8 + 4, width := 1, acc := .ro, reset := 0 }

/-- U_MEAS_STAT_OVR_I (RO, spec/06_measure.md): Over-range flag of the last designated IS loop sample. -/
def U_MEAS_STAT_OVR_I : Fld := { blk := .unit, pos := 0xB8 * 8 + 5, width := 1, acc := .ro, reset := 0 }

/-- U_MEAS_STAT_OVR_SH (RO, spec/06_measure.md): Over-range flag of the last SH loop sample. -/
def U_MEAS_STAT_OVR_SH : Fld := { blk := .unit, pos := 0xB8 * 8 + 6, width := 1, acc := .ro, reset := 0 }

/-- U_MEAS_GAP_COUNT (RO, spec/06_measure.md): Output instants skipped after restarts, all paths (R160), wrapping modulo 2^32. -/
def U_MEAS_GAP_COUNT : Fld := { blk := .unit, pos := 0xBC * 8 + 0, width := 32, acc := .ro, reset := 0 }

/-- U_BIN_COUNT (SNAP, spec/06_measure.md): Samples accepted into the statistics. -/
def U_BIN_COUNT : Fld := { blk := .unit, pos := 0x500 * 8 + 0, width := 32, stride := 512, count := 4, acc := .snap, reset := 0 }

/-- U_BIN_SUM (SNAP, spec/06_measure.md): Signed sum. -/
def U_BIN_SUM : Fld := { blk := .unit, pos := 0x504 * 8 + 0, width := 64, stride := 512, count := 4, acc := .snap, reset := 0 }

/-- U_BIN_SUMSQ (SNAP, spec/06_measure.md): Unsigned sum of squares. -/
def U_BIN_SUMSQ : Fld := { blk := .unit, pos := 0x50C * 8 + 0, width := 96, stride := 512, count := 4, acc := .snap, reset := 0 }

/-- U_BIN_MIN (SNAP, spec/06_measure.md): Least sample. -/
def U_BIN_MIN : Fld := { blk := .unit, pos := 0x518 * 8 + 0, width := 32, stride := 512, count := 4, acc := .snap, reset := 0x7fffffff }

/-- U_BIN_MAX (SNAP, spec/06_measure.md): Greatest sample. -/
def U_BIN_MAX : Fld := { blk := .unit, pos := 0x51C * 8 + 0, width := 32, stride := 512, count := 4, acc := .snap, reset := 0x80000001 }

/-- U_BIN_T_FIRST (SNAP, spec/06_measure.md): Line tick count of the first accepted sample. -/
def U_BIN_T_FIRST : Fld := { blk := .unit, pos := 0x520 * 8 + 0, width := 64, stride := 512, count := 4, acc := .snap, reset := 0 }

/-- U_BIN_T_LAST (SNAP, spec/06_measure.md): Line tick count of the last accepted sample. -/
def U_BIN_T_LAST : Fld := { blk := .unit, pos := 0x528 * 8 + 0, width := 64, stride := 512, count := 4, acc := .snap, reset := 0 }

/-- U_BIN_RANGE_OPEN (SNAP, spec/06_measure.md): Range of the statistics (R167). -/
def U_BIN_RANGE_OPEN : Fld := { blk := .unit, pos := 0x530 * 8 + 0, width := 4, stride := 512, count := 4, acc := .snap, reset := 0 }

/-- U_BIN_RANGE_CLOSE (SNAP, spec/06_measure.md): Range in force at close. -/
def U_BIN_RANGE_CLOSE : Fld := { blk := .unit, pos := 0x530 * 8 + 4, width := 4, stride := 512, count := 4, acc := .snap, reset := 0 }

/-- U_BIN_STATE (SNAP, spec/06_measure.md): 0 never opened, 1 open, 2 closed; 3 not used. -/
def U_BIN_STATE : Fld := { blk := .unit, pos := 0x530 * 8 + 8, width := 2, stride := 512, count := 4, acc := .snap, reset := 0 }

/-- U_BIN_RCHG_SEEN (SNAP, spec/06_measure.md): A RESTART for a range change occurred. -/
def U_BIN_RCHG_SEEN : Fld := { blk := .unit, pos := 0x530 * 8 + 10, width := 1, stride := 512, count := 4, acc := .snap, reset := 0 }

/-- U_BIN_CAL_NEW (SNAP, spec/06_measure.md): Correction set changed since this bin last closed (R169). -/
def U_BIN_CAL_NEW : Fld := { blk := .unit, pos := 0x530 * 8 + 11, width := 1, stride := 512, count := 4, acc := .snap, reset := 0 }

/-- U_BIN_CAL_MID (SNAP, spec/06_measure.md): Correction set changed while open (R170). -/
def U_BIN_CAL_MID : Fld := { blk := .unit, pos := 0x530 * 8 + 12, width := 1, stride := 512, count := 4, acc := .snap, reset := 0 }

/-- U_BIN_SIDED (SNAP, spec/06_measure.md): A sample came from a siding. -/
def U_BIN_SIDED : Fld := { blk := .unit, pos := 0x530 * 8 + 13, width := 1, stride := 512, count := 4, acc := .snap, reset := 0 }

/-- U_BIN_RESTARTED (SNAP, spec/06_measure.md): Closed by the RESTART trigger policy. -/
def U_BIN_RESTARTED : Fld := { blk := .unit, pos := 0x530 * 8 + 14, width := 1, stride := 512, count := 4, acc := .snap, reset := 0 }

/-- U_BIN_SAT (SNAP, spec/06_measure.md): COUNT reached 0xFFFF_FFFF; later samples not accepted. -/
def U_BIN_SAT : Fld := { blk := .unit, pos := 0x530 * 8 + 15, width := 1, stride := 512, count := 4, acc := .snap, reset := 0 }

/-- U_BIN_BADSRC (SNAP, spec/06_measure.md): Source refused at opening (R164). -/
def U_BIN_BADSRC : Fld := { blk := .unit, pos := 0x530 * 8 + 16, width := 1, stride := 512, count := 4, acc := .snap, reset := 0 }

/-- U_BIN_UNDERRUN (SNAP, spec/06_measure.md): Under-run ticks, saturating at 0x7FFF. -/
def U_BIN_UNDERRUN : Fld := { blk := .unit, pos := 0x530 * 8 + 17, width := 15, stride := 512, count := 4, acc := .snap, reset := 0 }

/-- U_BIN_OVR (SNAP, spec/06_measure.md): Over-range samples offered, saturating. -/
def U_BIN_OVR : Fld := { blk := .unit, pos := 0x534 * 8 + 0, width := 16, stride := 512, count := 4, acc := .snap, reset := 0 }

/-- U_BIN_ROUT (SNAP, spec/06_measure.md): Samples on another range, or discarded by RESTART, saturating. -/
def U_BIN_ROUT : Fld := { blk := .unit, pos := 0x534 * 8 + 16, width := 16, stride := 512, count := 4, acc := .snap, reset := 0 }

/-- U_BIN_COMPL (SNAP, spec/06_measure.md): Compliance samples offered, saturating. -/
def U_BIN_COMPL : Fld := { blk := .unit, pos := 0x538 * 8 + 0, width := 32, stride := 512, count := 4, acc := .snap, reset := 0 }

/-- U_BIN_LAST (SNAP, spec/06_measure.md): Last accepted sample. -/
def U_BIN_LAST : Fld := { blk := .unit, pos := 0x53C * 8 + 0, width := 32, stride := 512, count := 4, acc := .snap, reset := 0 }

/-- U_C32_DATA_DATA (RO, spec/06_measure.md): Latest measurement output of the path; a read clears the path's NEW (R176). -/
def U_C32_DATA_DATA : Fld := { blk := .c32, pos := 0x0 * 8 + 0, width := 32, stride := 32, count := 3, acc := .ro, reset := 0 }

/-- U_C32_STAT_NEW_VS (RO, spec/06_measure.md): 1: U_C32_VS updated since last read. -/
def U_C32_STAT_NEW_VS : Fld := { blk := .c32, pos := 0xC * 8 + 0, width := 1, acc := .ro, reset := 0 }

/-- U_C32_STAT_NEW_IS (RO, spec/06_measure.md): 1: U_C32_IS updated since last read. -/
def U_C32_STAT_NEW_IS : Fld := { blk := .c32, pos := 0xC * 8 + 1, width := 1, acc := .ro, reset := 0 }

/-- U_C32_STAT_NEW_SH (RO, spec/06_measure.md): 1: U_C32_SH updated since last read. -/
def U_C32_STAT_NEW_SH : Fld := { blk := .c32, pos := 0xC * 8 + 2, width := 1, acc := .ro, reset := 0 }

/-- U_C32_STAT_OVR_VS (RO, spec/06_measure.md): Over-range flag of the value in U_C32_VS. -/
def U_C32_STAT_OVR_VS : Fld := { blk := .c32, pos := 0xC * 8 + 4, width := 1, acc := .ro, reset := 0 }

/-- U_C32_STAT_OVR_IS (RO, spec/06_measure.md): Over-range flag of the value in U_C32_IS. -/
def U_C32_STAT_OVR_IS : Fld := { blk := .c32, pos := 0xC * 8 + 5, width := 1, acc := .ro, reset := 0 }

/-- U_C32_STAT_OVR_SH (RO, spec/06_measure.md): Over-range flag of the value in U_C32_SH. -/
def U_C32_STAT_OVR_SH : Fld := { blk := .c32, pos := 0xC * 8 + 6, width := 1, acc := .ro, reset := 0 }

/-- U_C32_STAT_OVR_RUN_VS (W1C, spec/06_measure.md): U_C32_VS overwritten unread. -/
def U_C32_STAT_OVR_RUN_VS : Fld := { blk := .c32, pos := 0xC * 8 + 8, width := 1, acc := .w1c, reset := 0 }

/-- U_C32_STAT_OVR_RUN_IS (W1C, spec/06_measure.md): U_C32_IS overwritten unread. -/
def U_C32_STAT_OVR_RUN_IS : Fld := { blk := .c32, pos := 0xC * 8 + 9, width := 1, acc := .w1c, reset := 0 }

/-- U_C32_STAT_OVR_RUN_SH (W1C, spec/06_measure.md): U_C32_SH overwritten unread. -/
def U_C32_STAT_OVR_RUN_SH : Fld := { blk := .c32, pos := 0xC * 8 + 10, width := 1, acc := .w1c, reset := 0 }

/-- U_C32_STAT_VRANGE (RO, spec/06_measure.md): Voltage range of the value in U_C32_VS. -/
def U_C32_STAT_VRANGE : Fld := { blk := .c32, pos := 0xC * 8 + 16, width := 4, acc := .ro, reset := 0 }

/-- U_C32_STAT_IRANGE (RO, spec/06_measure.md): Current range of the value in U_C32_IS. -/
def U_C32_STAT_IRANGE : Fld := { blk := .c32, pos := 0xC * 8 + 20, width := 4, acc := .ro, reset := 0 }

/-- DIE_AUX_STAT_BUSY (RO, spec/06_measure.md): Bit i: aux modulator i converting. -/
def DIE_AUX_STAT_BUSY : Fld := { blk := .die, pos := 0x440 * 8 + 0, width := 6, acc := .ro, reset := 0 }

/-- DIE_AUX_STAT_PENDING (RO, spec/06_measure.md): Aux requests waiting, saturating at 0x1F. -/
def DIE_AUX_STAT_PENDING : Fld := { blk := .die, pos := 0x440 * 8 + 8, width := 5, acc := .ro, reset := 0 }

/-- DIE_AUX_WMAX_TICKS (RO, spec/06_measure.md): Longest wait of a rank 1 or 2 aux request since power-on, in metronome ticks, saturating. -/
def DIE_AUX_WMAX_TICKS : Fld := { blk := .die, pos := 0x444 * 8 + 0, width := 32, acc := .ro, reset := 0 }

/-- U_RANGE_SEL_IRNG (RW, spec/07_ranges.md): Selected current range; LCK in force-current mode (R185, R207). -/
def U_RANGE_SEL_IRNG : Fld := { blk := .unit, pos := 0x400 * 8 + 0, width := 4, acc := .rw, reset := 0 }

/-- U_RANGE_SEL_VRNG (LCK, spec/07_ranges.md): Selected voltage range. -/
def U_RANGE_SEL_VRNG : Fld := { blk := .unit, pos := 0x400 * 8 + 4, width := 2, acc := .lck, reset := 0 }

/-- U_RANGE_SEL_AR_EN (RW, spec/07_ranges.md): 1: autorange enabled (R198). -/
def U_RANGE_SEL_AR_EN : Fld := { blk := .unit, pos := 0x400 * 8 + 8, width := 1, acc := .rw, reset := 0 }

/-- U_RANGE_SEL_IGN (W1C, spec/07_ranges.md): An IRNG write was ignored under autorange. -/
def U_RANGE_SEL_IGN : Fld := { blk := .unit, pos := 0x400 * 8 + 9, width := 1, acc := .w1c, reset := 0 }

/-- U_RANGE_STAT_IRNG_F (RO, spec/07_ranges.md): Current range in force (R184). -/
def U_RANGE_STAT_IRNG_F : Fld := { blk := .unit, pos := 0x404 * 8 + 0, width := 4, acc := .ro, reset := 0 }

/-- U_RANGE_STAT_VRNG_F (RO, spec/07_ranges.md): Voltage range in force. -/
def U_RANGE_STAT_VRNG_F : Fld := { blk := .unit, pos := 0x404 * 8 + 4, width := 2, acc := .ro, reset := 0 }

/-- U_RANGE_STAT_DES (RO, spec/07_ranges.md): Designated current path: 0 IS, 1 SH. -/
def U_RANGE_STAT_DES : Fld := { blk := .unit, pos := 0x404 * 8 + 6, width := 1, acc := .ro, reset := 0 }

/-- U_RANGE_STAT_PHASE (RO, spec/07_ranges.md): 0 IDLE, 1 WAIT_SH, 2 MAKE, 3 BREAK, 4 RETURN; 5–7 not used. -/
def U_RANGE_STAT_PHASE : Fld := { blk := .unit, pos := 0x404 * 8 + 8, width := 3, acc := .ro, reset := 0 }

/-- U_RANGE_STAT_ARMED (RO, spec/07_ranges.md): 1: SH is ARMED. -/
def U_RANGE_STAT_ARMED : Fld := { blk := .unit, pos := 0x404 * 8 + 12, width := 1, acc := .ro, reset := 0 }

/-- U_RANGE_STAT_SH_SPEC (RO, spec/07_ranges.md): 1: SH samples are speculative (R197). -/
def U_RANGE_STAT_SH_SPEC : Fld := { blk := .unit, pos := 0x404 * 8 + 13, width := 1, acc := .ro, reset := 0 }

/-- U_RANGE_STAT_SH_RNG (RO, spec/07_ranges.md): Entry whose setting SH converts. -/
def U_RANGE_STAT_SH_RNG : Fld := { blk := .unit, pos := 0x404 * 8 + 16, width := 4, acc := .ro, reset := 0 }

/-- U_RANGE_STAT_TARGET (RO, spec/07_ranges.md): Range b of the change in progress. -/
def U_RANGE_STAT_TARGET : Fld := { blk := .unit, pos := 0x404 * 8 + 20, width := 4, acc := .ro, reset := 0 }

/-- U_RANGE_STAT_DN_RUN (RO, spec/07_ranges.md): Present down count (R199), saturating. -/
def U_RANGE_STAT_DN_RUN : Fld := { blk := .unit, pos := 0x404 * 8 + 24, width := 8, acc := .ro, reset := 0 }

/-- U_RTAB_PTR_OFFS (LCK, spec/07_ranges.md): Table offset in coefficient SRAM, in 64-byte units (R180). -/
def U_RTAB_PTR_OFFS : Fld := { blk := .unit, pos := 0x408 * 8 + 6, width := 13, acc := .lck, reset := 0 }

/-- U_RTAB_PTR_NI_M1 (LCK, spec/07_ranges.md): Current ranges minus 1. -/
def U_RTAB_PTR_NI_M1 : Fld := { blk := .unit, pos := 0x408 * 8 + 20, width := 4, acc := .lck, reset := 0 }

/-- U_RTAB_PTR_NV_M1 (LCK, spec/07_ranges.md): Voltage ranges minus 1. -/
def U_RTAB_PTR_NV_M1 : Fld := { blk := .unit, pos := 0x408 * 8 + 24, width := 2, acc := .lck, reset := 0 }

/-- U_AR_CFG_HORIZON (RW, spec/07_ranges.md): Projection horizon in loop periods (R200). -/
def U_AR_CFG_HORIZON : Fld := { blk := .unit, pos := 0x40C * 8 + 0, width := 8, acc := .rw, reset := 8 }

/-- U_AR_CFG_DN_N (RW, spec/07_ranges.md): Ticks below DN_TH before a down decision; 0 acts as 1. -/
def U_AR_CFG_DN_N : Fld := { blk := .unit, pos := 0x40C * 8 + 8, width := 8, acc := .rw, reset := 0x10 }

/-- U_AR_CFG_HOLDOFF (RW, spec/07_ranges.md): Periods after a return before a down decision. -/
def U_AR_CFG_HOLDOFF : Fld := { blk := .unit, pos := 0x40C * 8 + 16, width := 8, acc := .rw, reset := 0x10 }

/-- U_AR_CFG_TTL (RW, spec/07_ranges.md): Periods an unconfirmed arming lasts; 0 acts as 1. -/
def U_AR_CFG_TTL : Fld := { blk := .unit, pos := 0x40C * 8 + 24, width := 8, acc := .rw, reset := 0x40 }

/-- U_AR_LIM_LO (RW, spec/07_ranges.md): Lowest range autorange may select. -/
def U_AR_LIM_LO : Fld := { blk := .unit, pos := 0x410 * 8 + 0, width := 4, acc := .rw, reset := 0 }

/-- U_AR_LIM_HI (RW, spec/07_ranges.md): Highest range; values above NI_M1 act as NI_M1. -/
def U_AR_LIM_HI : Fld := { blk := .unit, pos := 0x410 * 8 + 4, width := 4, acc := .rw, reset := 0xf }

/-- U_SP_RNG_SP1R (RW, spec/07_ranges.md): Range of U_LIM_SP1.CODE (R187). -/
def U_SP_RNG_SP1R : Fld := { blk := .unit, pos := 0x414 * 8 + 0, width := 4, acc := .rw, reset := 0 }

/-- U_SP_RNG_SP1F (RW, spec/07_ranges.md): 1: SP1 follows the range in force, no conversion. -/
def U_SP_RNG_SP1F : Fld := { blk := .unit, pos := 0x414 * 8 + 4, width := 1, acc := .rw, reset := 1 }

/-- U_SP_RNG_SP2R (RW, spec/07_ranges.md): Range of U_LIM_SP2.CODE. -/
def U_SP_RNG_SP2R : Fld := { blk := .unit, pos := 0x414 * 8 + 8, width := 4, acc := .rw, reset := 0 }

/-- U_SP_RNG_SP2F (RW, spec/07_ranges.md): 1: SP2 follows. -/
def U_SP_RNG_SP2F : Fld := { blk := .unit, pos := 0x414 * 8 + 12, width := 1, acc := .rw, reset := 1 }

/-- U_SP_RNG_SP3IR (RW, spec/07_ranges.md): Current range of U_LIM_SP3.CODE. -/
def U_SP_RNG_SP3IR : Fld := { blk := .unit, pos := 0x414 * 8 + 16, width := 4, acc := .rw, reset := 0 }

/-- U_SP_RNG_SP3IF (RW, spec/07_ranges.md): 1: no current conversion of SP3. -/
def U_SP_RNG_SP3IF : Fld := { blk := .unit, pos := 0x414 * 8 + 20, width := 1, acc := .rw, reset := 1 }

/-- U_SP_RNG_SP3VR (RW, spec/07_ranges.md): Voltage range of U_LIM_SP3.CODE. -/
def U_SP_RNG_SP3VR : Fld := { blk := .unit, pos := 0x414 * 8 + 24, width := 2, acc := .rw, reset := 0 }

/-- U_SP_RNG_SP3VF (RW, spec/07_ranges.md): 1: no voltage conversion of SP3. -/
def U_SP_RNG_SP3VF : Fld := { blk := .unit, pos := 0x414 * 8 + 26, width := 1, acc := .rw, reset := 1 }

/-- U_TBL_RNG_LKI (RW, spec/07_ranges.md): Current range in whose units the LEAK table is built (R188). -/
def U_TBL_RNG_LKI : Fld := { blk := .unit, pos := 0x418 * 8 + 0, width := 4, acc := .rw, reset := 0 }

/-- U_TBL_RNG_LK_FOLLOW (RW, spec/07_ranges.md): 1: LEAK values used without conversion. -/
def U_TBL_RNG_LK_FOLLOW : Fld := { blk := .unit, pos := 0x418 * 8 + 4, width := 1, acc := .rw, reset := 1 }

/-- U_PTS_STAT_PAT (RO, spec/07_ranges.md): Pattern last latched at this channel's position. -/
def U_PTS_STAT_PAT : Fld := { blk := .unit, pos := 0x41C * 8 + 0, width := 16, acc := .ro, reset := 0 }

/-- U_PTS_STAT_RB (RO, spec/07_ranges.md): Pattern last read back. -/
def U_PTS_STAT_RB : Fld := { blk := .unit, pos := 0x41C * 8 + 16, width := 16, acc := .ro, reset := 0 }

/-- U_SAFE_PAT_SAFE (RO, spec/07_ranges.md): Safe pattern (R193); 0x0000 before an image is applied. -/
def U_SAFE_PAT_SAFE : Fld := { blk := .unit, pos := 0x420 * 8 + 0, width := 16, acc := .ro, reset := 0 }

/-- U_RANGE_CHG_COUNT (RO, spec/07_ranges.md): Completed range changes, wrapping modulo 2^32. -/
def U_RANGE_CHG_COUNT : Fld := { blk := .unit, pos := 0x424 * 8 + 0, width := 32, acc := .ro, reset := 0 }

/-- DIE_PB_CFG_DIV (RW, spec/07_ranges.md): PBCLK = 30.72 MHz / 2^DIV (R189). -/
def DIE_PB_CFG_DIV : Fld := { blk := .die, pos := 0x460 * 8 + 0, width := 2, acc := .rw, reset := 0 }

/-- DIE_PB_STAT_BUSY (RO, spec/07_ranges.md): 1: an operation is on the bus. -/
def DIE_PB_STAT_BUSY : Fld := { blk := .die, pos := 0x464 * 8 + 0, width := 1, acc := .ro, reset := 0 }

/-- DIE_PB_STAT_OWNER_CH (RO, spec/07_ranges.md): Position of the operation on the bus. -/
def DIE_PB_STAT_OWNER_CH : Fld := { blk := .die, pos := 0x464 * 8 + 1, width := 5, acc := .ro, reset := 0 }

/-- DIE_PB_STAT_ERR (W1C, spec/07_ranges.md): A readback mismatch occurred (R192). -/
def DIE_PB_STAT_ERR : Fld := { blk := .die, pos := 0x464 * 8 + 7, width := 1, acc := .w1c, reset := 0 }

/-- DIE_PB_STAT_ERR_CH (RO, spec/07_ranges.md): Position of the last mismatch. -/
def DIE_PB_STAT_ERR_CH : Fld := { blk := .die, pos := 0x464 * 8 + 8, width := 5, acc := .ro, reset := 0 }

/-- DIE_PB_ERR_COUNT (RO, spec/07_ranges.md): Readback mismatches, wrapping modulo 2^32. -/
def DIE_PB_ERR_COUNT : Fld := { blk := .die, pos := 0x468 * 8 + 0, width := 32, acc := .ro, reset := 0 }

/-- TT_BIND_UNIT (RW, spec/08_timetables.md): Bound unit (R210). -/
def TT_BIND_UNIT : Fld := { blk := .eng, pos := 0x0 * 8 + 0, width := 10, acc := .rw, reset := 0 }

/-- TT_BIND_VALID (RW, spec/08_timetables.md): 1: binding in use. -/
def TT_BIND_VALID : Fld := { blk := .eng, pos := 0x0 * 8 + 15, width := 1, acc := .rw, reset := 0 }

/-- TT_CMD_CMD (CMD, spec/08_timetables.md): Write 1 START, 2 STOP, 3 RESET; read: last command. -/
def TT_CMD_CMD : Fld := { blk := .eng, pos := 0x4 * 8 + 0, width := 2, acc := .cmd, reset := 0 }

/-- TT_CMD_BUSY (RO, spec/08_timetables.md): 1: command waiting for its tick. -/
def TT_CMD_BUSY : Fld := { blk := .eng, pos := 0x4 * 8 + 2, width := 1, acc := .ro, reset := 0 }

/-- TT_CMD_RESULT (RO, spec/08_timetables.md): Result of the last START (R214); 0 done. -/
def TT_CMD_RESULT : Fld := { blk := .eng, pos := 0x4 * 8 + 4, width := 3, acc := .ro, reset := 0 }

/-- TT_STAT_STATE (RO, spec/08_timetables.md): Engine state (R213). -/
def TT_STAT_STATE : Fld := { blk := .eng, pos := 0x8 * 8 + 0, width := 3, acc := .ro, reset := 0 }

/-- TT_STAT_OWNS (RO, spec/08_timetables.md): 1: engine owns the reference queue (R75). -/
def TT_STAT_OWNS : Fld := { blk := .eng, pos := 0x8 * 8 + 3, width := 1, acc := .ro, reset := 0 }

/-- TT_STAT_WHY (RO, spec/08_timetables.md): Halt cause (R215). -/
def TT_STAT_WHY : Fld := { blk := .eng, pos := 0x8 * 8 + 4, width := 3, acc := .ro, reset := 0 }

/-- TT_STAT_ERR (RO, spec/08_timetables.md): Fault cause (R216). -/
def TT_STAT_ERR : Fld := { blk := .eng, pos := 0x8 * 8 + 8, width := 4, acc := .ro, reset := 0 }

/-- TT_STAT_LDEPTH (RO, spec/08_timetables.md): Loop stack depth, 0–8. -/
def TT_STAT_LDEPTH : Fld := { blk := .eng, pos := 0x8 * 8 + 12, width := 4, acc := .ro, reset := 0 }

/-- TT_STAT_CDEPTH (RO, spec/08_timetables.md): Call stack depth, 0–4. -/
def TT_STAT_CDEPTH : Fld := { blk := .eng, pos := 0x8 * 8 + 16, width := 3, acc := .ro, reset := 0 }

/-- TT_STAT_BIND_ERR (W1C, spec/08_timetables.md): A TT_BIND write was refused. -/
def TT_STAT_BIND_ERR : Fld := { blk := .eng, pos := 0x8 * 8 + 19, width := 1, acc := .w1c, reset := 0 }

/-- TT_STAT_SLIPPED (W1C, spec/08_timetables.md): A late or stalled step occurred (R220). -/
def TT_STAT_SLIPPED : Fld := { blk := .eng, pos := 0x8 * 8 + 20, width := 1, acc := .w1c, reset := 0 }

/-- TT_CFG_ONFAULT (RW, spec/08_timetables.md): 0 HOLD, 1 ISOLATE (R216). -/
def TT_CFG_ONFAULT : Fld := { blk := .eng, pos := 0xC * 8 + 0, width := 1, acc := .rw, reset := 1 }

/-- TT_CFG_AT (RW, spec/08_timetables.md): 1: START waits for TT_START_AT (R214). -/
def TT_CFG_AT : Fld := { blk := .eng, pos := 0xC * 8 + 1, width := 1, acc := .rw, reset := 0 }

/-- TT_START_PC_ADDR (RW, spec/08_timetables.md): First instruction, read at START; bits [2:0] read 0. -/
def TT_START_PC_ADDR : Fld := { blk := .eng, pos := 0x10 * 8 + 0, width := 40, acc := .rw, reset := 0 }

/-- TT_PC_ADDR (SNAP, spec/08_timetables.md): Instruction being executed; when FAULTED, the faulting instruction. -/
def TT_PC_ADDR : Fld := { blk := .eng, pos := 0x18 * 8 + 0, width := 40, acc := .snap, reset := 0 }

/-- TT_START_AT_TICK (RW, spec/08_timetables.md): Line tick count for a START with AT, read at START. -/
def TT_START_AT_TICK : Fld := { blk := .eng, pos := 0x20 * 8 + 0, width := 64, acc := .rw, reset := 0 }

/-- TT_STEP_TICK (SNAP, spec/08_timetables.md): Line tick count of the present step tick S. -/
def TT_STEP_TICK : Fld := { blk := .eng, pos := 0x28 * 8 + 0, width := 64, acc := .snap, reset := 0 }

/-- TT_LATE_COUNT (RO, spec/08_timetables.md): Late steps (TT_LATE); periods slipped (TT_SLIP); stalled ticks (TT_STALL); each wrapping modulo 2^32. -/
def TT_LATE_COUNT : Fld := { blk := .eng, pos := 0x30 * 8 + 0, width := 32, acc := .ro, reset := 0 }

/-- TT_SLIP_COUNT (RO, spec/08_timetables.md): Late steps (TT_LATE); periods slipped (TT_SLIP); stalled ticks (TT_STALL); each wrapping modulo 2^32. -/
def TT_SLIP_COUNT : Fld := { blk := .eng, pos := 0x34 * 8 + 0, width := 32, acc := .ro, reset := 0 }

/-- TT_STALL_COUNT (RO, spec/08_timetables.md): Late steps (TT_LATE); periods slipped (TT_SLIP); stalled ticks (TT_STALL); each wrapping modulo 2^32. -/
def TT_STALL_COUNT : Fld := { blk := .eng, pos := 0x38 * 8 + 0, width := 32, acc := .ro, reset := 0 }

/-- TT_THERM_RES_TEMP (RO, spec/08_timetables.md): Temperature of the last THERM, signed, in units of 1/64 °C. -/
def TT_THERM_RES_TEMP : Fld := { blk := .eng, pos := 0x3C * 8 + 0, width := 16, acc := .ro, reset := 0 }

/-- TT_THERM_RES_VALID (RO, spec/08_timetables.md): 1: TEMP holds a completed result. -/
def TT_THERM_RES_VALID : Fld := { blk := .eng, pos := 0x3C * 8 + 16, width := 1, acc := .ro, reset := 0 }

/-- TT_THERM_RES_SUBST (RO, spec/08_timetables.md): 1: the thermal supervisor substituted the value. -/
def TT_THERM_RES_SUBST : Fld := { blk := .eng, pos := 0x3C * 8 + 17, width := 1, acc := .ro, reset := 0 }

/-- TT_THERM_RES_SENSOR (RO, spec/08_timetables.md): Sensor of the result. -/
def TT_THERM_RES_SENSOR : Fld := { blk := .eng, pos := 0x3C * 8 + 18, width := 4, acc := .ro, reset := 0 }

/-- TT_THERM_RES_DROP (W1C, spec/08_timetables.md): A THERM was not issued (R236). -/
def TT_THERM_RES_DROP : Fld := { blk := .eng, pos := 0x3C * 8 + 22, width := 1, acc := .w1c, reset := 0 }

/-- TT_LOOPCNT_REMAIN (RO, spec/08_timetables.md): Remaining count of loop level i, level 0 outermost; 0 for a forever loop or an unused level. -/
def TT_LOOPCNT_REMAIN : Fld := { blk := .eng, pos := 0x80 * 8 + 0, width := 32, stride := 32, count := 8, acc := .ro, reset := 0 }

/-- TT_JCFG_PINIT (RW, spec/09_junctions.md): Predictor value set at START (R255). -/
def TT_JCFG_PINIT : Fld := { blk := .eng, pos := 0x200 * 8 + 0, width := 2, acc := .rw, reset := 1 }

/-- TT_JSTAT_EMPTY (W1C, spec/09_junctions.md): A bin-statistic junction found no data (R254). -/
def TT_JSTAT_EMPTY : Fld := { blk := .eng, pos := 0x204 * 8 + 0, width := 1, acc := .w1c, reset := 0 }

/-- TT_JSTAT_PENDJ (RO, spec/09_junctions.md): 1: a junction prediction awaits confirmation. -/
def TT_JSTAT_PENDJ : Fld := { blk := .eng, pos := 0x204 * 8 + 1, width := 1, acc := .ro, reset := 0 }

/-- TT_JCOUNT_COUNT (RO, spec/09_junctions.md): Junctions committed (TT_JCOUNT), taken (TT_JTAKEN); wrapping modulo 2^32. -/
def TT_JCOUNT_COUNT : Fld := { blk := .eng, pos := 0x208 * 8 + 0, width := 32, acc := .ro, reset := 0 }

/-- TT_JTAKEN_COUNT (RO, spec/09_junctions.md): Junctions committed (TT_JCOUNT), taken (TT_JTAKEN); wrapping modulo 2^32. -/
def TT_JTAKEN_COUNT : Fld := { blk := .eng, pos := 0x20C * 8 + 0, width := 32, acc := .ro, reset := 0 }

/-- TT_JTA_CODE (RW, spec/09_junctions.md): Signed thresholds TA and TB of pair k. -/
def TT_JTA_CODE : Fld := { blk := .eng, pos := 0x220 * 8 + 0, width := 32, stride := 64, count := 8, acc := .rw, reset := 0 }

/-- TT_JTB_CODE (RW, spec/09_junctions.md): Signed thresholds TA and TB of pair k. -/
def TT_JTB_CODE : Fld := { blk := .eng, pos := 0x224 * 8 + 0, width := 32, stride := 64, count := 8, acc := .rw, reset := 0 }

/-- TT_JTH_CFG_RNG (RW, spec/09_junctions.md): Range in whose units TA and TB are written. -/
def TT_JTH_CFG_RNG : Fld := { blk := .eng, pos := 0x260 * 8 + 0, width := 4, stride := 32, count := 8, acc := .rw, reset := 0 }

/-- TT_JTH_CFG_FOLLOW (RW, spec/09_junctions.md): 1: no conversion (R254). -/
def TT_JTH_CFG_FOLLOW : Fld := { blk := .eng, pos := 0x260 * 8 + 4, width := 1, stride := 32, count := 8, acc := .rw, reset := 1 }

/-- TT_EVW_EV (RW, spec/09_junctions.md): Event watched (R240). -/
def TT_EVW_EV : Fld := { blk := .eng, pos := 0x280 * 8 + 0, width := 9, stride := 32, count := 8, acc := .rw, reset := 0 }

/-- TT_EVW_EN (RW, spec/09_junctions.md): 1: slot in use. -/
def TT_EVW_EN : Fld := { blk := .eng, pos := 0x280 * 8 + 9, width := 1, stride := 32, count := 8, acc := .rw, reset := 0 }

/-- TT_EVW_POLICY (RW, spec/09_junctions.md): 0 DROP, 1 LATCH1, 2 RESTART, 3 JUMP (R250). -/
def TT_EVW_POLICY : Fld := { blk := .eng, pos := 0x280 * 8 + 10, width := 2, stride := 32, count := 8, acc := .rw, reset := 0 }

/-- TT_EVW_PEND (RO, spec/09_junctions.md): 1: one trigger latched. -/
def TT_EVW_PEND : Fld := { blk := .eng, pos := 0x280 * 8 + 12, width := 1, stride := 32, count := 8, acc := .ro, reset := 0 }

/-- TT_EVW_REC (RO, spec/09_junctions.md): 1: a restart record exists (R249). -/
def TT_EVW_REC : Fld := { blk := .eng, pos := 0x280 * 8 + 13, width := 1, stride := 32, count := 8, acc := .ro, reset := 0 }

/-- TT_EV_OVERLAP_COUNT (RO, spec/09_junctions.md): Triggers ignored under a policy (TT_EV_OVERLAP); restarts made (TT_RESTARTS); wrapping modulo 2^32. -/
def TT_EV_OVERLAP_COUNT : Fld := { blk := .eng, pos := 0x2A0 * 8 + 0, width := 32, acc := .ro, reset := 0 }

/-- TT_RESTARTS_COUNT (RO, spec/09_junctions.md): Triggers ignored under a policy (TT_EV_OVERLAP); restarts made (TT_RESTARTS); wrapping modulo 2^32. -/
def TT_RESTARTS_COUNT : Fld := { blk := .eng, pos := 0x2A4 * 8 + 0, width := 32, acc := .ro, reset := 0 }

/-- TT_JUMP_REQ (CMD, spec/09_junctions.md): Write 1: request a jump (R256); read: 1 while pending. -/
def TT_JUMP_REQ : Fld := { blk := .eng, pos := 0x2C0 * 8 + 0, width := 1, acc := .cmd, reset := 0 }

/-- TT_JUMP_BREAK (RW, spec/09_junctions.md): 1: every loop tick is a jump point (R257). -/
def TT_JUMP_BREAK : Fld := { blk := .eng, pos := 0x2C0 * 8 + 1, width := 1, acc := .rw, reset := 0 }

/-- TT_JUMP_PEND (RO, spec/09_junctions.md): 1: a request is pending. -/
def TT_JUMP_PEND : Fld := { blk := .eng, pos := 0x2C0 * 8 + 2, width := 1, acc := .ro, reset := 0 }

/-- TT_JUMP_RESULT (RO, spec/09_junctions.md): 0 taken, 1 no target, 2 already pending, 3 not running or halted. -/
def TT_JUMP_RESULT : Fld := { blk := .eng, pos := 0x2C0 * 8 + 4, width := 2, acc := .ro, reset := 0 }

/-- TT_JUMP_TGT_ADDR (RW, spec/09_junctions.md): Target, 8-byte aligned; bits [2:0] read 0. -/
def TT_JUMP_TGT_ADDR : Fld := { blk := .eng, pos := 0x2C8 * 8 + 0, width := 40, acc := .rw, reset := 0 }

/-- TT_JUMP_TGT_LD (RW, spec/09_junctions.md): Loop depth kept, 0–8. -/
def TT_JUMP_TGT_LD : Fld := { blk := .eng, pos := 0x2C8 * 8 + 40, width := 4, acc := .rw, reset := 0 }

/-- TT_JUMP_TGT_CD (RW, spec/09_junctions.md): Call depth kept, 0–4. -/
def TT_JUMP_TGT_CD : Fld := { blk := .eng, pos := 0x2C8 * 8 + 44, width := 3, acc := .rw, reset := 0 }

/-- TT_JUMP_TGT_VALID (RW, spec/09_junctions.md): 1: target armed. -/
def TT_JUMP_TGT_VALID : Fld := { blk := .eng, pos := 0x2C8 * 8 + 63, width := 1, acc := .rw, reset := 0 }

/-- TT_SR_BASE_ADDR (RW, spec/09_junctions.md): Ring base, station address, aligned to SIZE. -/
def TT_SR_BASE_ADDR : Fld := { blk := .eng, pos := 0x300 * 8 + 0, width := 40, acc := .rw, reset := 0 }

/-- TT_SR_SIZE_LOG2 (RW, spec/09_junctions.md): SIZE = 2^LOG2 bytes; 12–28 valid. -/
def TT_SR_SIZE_LOG2 : Fld := { blk := .eng, pos := 0x308 * 8 + 0, width := 5, acc := .rw, reset := 0 }

/-- TT_SR_CFG_RESUME (RW, spec/09_junctions.md): 0 SKIP, 1 STRETCH (R264). -/
def TT_SR_CFG_RESUME : Fld := { blk := .eng, pos := 0x30C * 8 + 0, width := 1, acc := .rw, reset := 0 }

/-- TT_SR_WP_VALUE (RW, spec/09_junctions.md): Write count, read count, mark, free bytes (R261, R267). -/
def TT_SR_WP_VALUE : Fld := { blk := .eng, pos := 0x310 * 8 + 0, width := 32, acc := .rw, reset := 0 }

/-- TT_SR_RP_VALUE (RO, spec/09_junctions.md): Write count, read count, mark, free bytes (R261, R267). -/
def TT_SR_RP_VALUE : Fld := { blk := .eng, pos := 0x314 * 8 + 0, width := 32, acc := .ro, reset := 0 }

/-- TT_SR_MARK_VALUE (RO, spec/09_junctions.md): Write count, read count, mark, free bytes (R261, R267). -/
def TT_SR_MARK_VALUE : Fld := { blk := .eng, pos := 0x318 * 8 + 0, width := 32, acc := .ro, reset := 0 }

/-- TT_SR_FREE_VALUE (RO, spec/09_junctions.md): Write count, read count, mark, free bytes (R261, R267). -/
def TT_SR_FREE_VALUE : Fld := { blk := .eng, pos := 0x31C * 8 + 0, width := 32, acc := .ro, reset := 0 }

/-- TT_SR_STAT_UNDERRUN (W1C, spec/09_junctions.md): A missing entry occurred (R264). -/
def TT_SR_STAT_UNDERRUN : Fld := { blk := .eng, pos := 0x320 * 8 + 0, width := 1, acc := .w1c, reset := 0 }

/-- TT_SR_STAT_PROT (W1C, spec/09_junctions.md): A write into the protected region was dropped. -/
def TT_SR_STAT_PROT : Fld := { blk := .eng, pos := 0x320 * 8 + 1, width := 1, acc := .w1c, reset := 0 }

/-- TT_SR_STAT_GAPITER (W1C, spec/09_junctions.md): A loop pass completed across a gap (R265). -/
def TT_SR_STAT_GAPITER : Fld := { blk := .eng, pos := 0x320 * 8 + 2, width := 1, acc := .w1c, reset := 0 }

/-- TT_SR_STAT_BADENT (W1C, spec/09_junctions.md): An entry with a reserved bit set was read. -/
def TT_SR_STAT_BADENT : Fld := { blk := .eng, pos := 0x320 * 8 + 3, width := 1, acc := .w1c, reset := 0 }

/-- TT_SR_STAT_MARKED (RO, spec/09_junctions.md): 1: a mark is set. -/
def TT_SR_STAT_MARKED : Fld := { blk := .eng, pos := 0x320 * 8 + 4, width := 1, acc := .ro, reset := 0 }

/-- TT_SR_URUN_COUNT (RO, spec/09_junctions.md): Missing ticks; dropped protected writes; gap passes; each wrapping modulo 2^32. -/
def TT_SR_URUN_COUNT : Fld := { blk := .eng, pos := 0x324 * 8 + 0, width := 32, acc := .ro, reset := 0 }

/-- TT_SR_PDROP_COUNT (RO, spec/09_junctions.md): Missing ticks; dropped protected writes; gap passes; each wrapping modulo 2^32. -/
def TT_SR_PDROP_COUNT : Fld := { blk := .eng, pos := 0x328 * 8 + 0, width := 32, acc := .ro, reset := 0 }

/-- TT_SR_GAPITER_COUNT (RO, spec/09_junctions.md): Missing ticks; dropped protected writes; gap passes; each wrapping modulo 2^32. -/
def TT_SR_GAPITER_COUNT : Fld := { blk := .eng, pos := 0x32C * 8 + 0, width := 32, acc := .ro, reset := 0 }

/-- TT_SR_REWIND_REMAIN (RO, spec/09_junctions.md): Rewinds remaining; 0 with a mark set and COUNT 0 means unlimited. -/
def TT_SR_REWIND_REMAIN : Fld := { blk := .eng, pos := 0x330 * 8 + 0, width := 32, acc := .ro, reset := 0 }

/-- STN_EV_DUE_TICK (RW, spec/09_junctions.md): Due tick for STN_EV_RAISE. -/
def STN_EV_DUE_TICK : Fld := { blk := .stn, pos := 0x1000 * 8 + 0, width := 64, acc := .rw, reset := 0 }

/-- STN_EV_RAISE_EV (RW, spec/09_junctions.md): Event to raise. -/
def STN_EV_RAISE_EV : Fld := { blk := .stn, pos := 0x1008 * 8 + 0, width := 9, acc := .rw, reset := 0 }

/-- STN_EV_RAISE_NOW (RW, spec/09_junctions.md): 1: due at completion + 32 ticks; local events only. -/
def STN_EV_RAISE_NOW : Fld := { blk := .stn, pos := 0x1008 * 8 + 9, width := 1, acc := .rw, reset := 0 }

/-- STN_EV_RAISE_GO (CMD, spec/09_junctions.md): Write 1: raise; read: 1 while being scheduled. -/
def STN_EV_RAISE_GO : Fld := { blk := .stn, pos := 0x1008 * 8 + 10, width := 1, acc := .cmd, reset := 0 }

/-- STN_EV_RAISE_RESULT (RO, spec/09_junctions.md): 0 done, 1 refused: due too early (R242), 2 refused: NOW with a Line event, 3 not sent: DARK, 4 refused: EV above 319. -/
def STN_EV_RAISE_RESULT : Fld := { blk := .stn, pos := 0x1008 * 8 + 12, width := 3, acc := .ro, reset := 0 }

/-- STN_EV_LATE_COUNT (RO, spec/09_junctions.md): Late events dropped; events dropped on a full scheduler; wrapping modulo 2^32. -/
def STN_EV_LATE_COUNT : Fld := { blk := .stn, pos := 0x100C * 8 + 0, width := 32, acc := .ro, reset := 0 }

/-- STN_EV_OVF_COUNT (RO, spec/09_junctions.md): Late events dropped; events dropped on a full scheduler; wrapping modulo 2^32. -/
def STN_EV_OVF_COUNT : Fld := { blk := .stn, pos := 0x1014 * 8 + 0, width := 32, acc := .ro, reset := 0 }

/-- STN_EV_STAT_LATE_EV (RO, spec/09_junctions.md): Number of the last late event. -/
def STN_EV_STAT_LATE_EV : Fld := { blk := .stn, pos := 0x1010 * 8 + 0, width := 9, acc := .ro, reset := 0 }

/-- STN_EV_STAT_PENDING (RO, spec/09_junctions.md): Events held by the scheduler, saturating at 0xFF. -/
def STN_EV_STAT_PENDING : Fld := { blk := .stn, pos := 0x1010 * 8 + 16, width := 8, acc := .ro, reset := 0 }

/-- STN_EV_STAT_DARK_CNT (RO, spec/09_junctions.md): Line events not sent while DARK, saturating. -/
def STN_EV_STAT_DARK_CNT : Fld := { blk := .stn, pos := 0x1010 * 8 + 24, width := 8, acc := .ro, reset := 0 }

/-- STN_LEV_MASK_EN (RW, spec/09_junctions.md): Bit j: act on Line event 32w + j (R244). -/
def STN_LEV_MASK_EN : Fld := { blk := .stn, pos := 0x1020 * 8 + 0, width := 32, stride := 32, count := 8, acc := .rw, reset := 0 }

/-- STN_EV_SEEN_SEEN (W1C, spec/09_junctions.md): Bit j: event 32w + j has acted (R245). -/
def STN_EV_SEEN_SEEN : Fld := { blk := .stn, pos := 0x1040 * 8 + 0, width := 32, stride := 32, count := 10, acc := .w1c, reset := 0 }

/-- STN_TRIG_CFG_DIR (RW, spec/09_junctions.md): 0 input, 1 output (R247). -/
def STN_TRIG_CFG_DIR : Fld := { blk := .stn, pos := 0x1100 * 8 + 0, width := 1, stride := 32, count := 8, acc := .rw, reset := 0 }

/-- STN_TRIG_CFG_EDGE (RW, spec/09_junctions.md): Input: 0 none, 1 rising, 2 falling, 3 both. -/
def STN_TRIG_CFG_EDGE : Fld := { blk := .stn, pos := 0x1100 * 8 + 1, width := 2, stride := 32, count := 8, acc := .rw, reset := 0 }

/-- STN_TRIG_CFG_EV (RW, spec/09_junctions.md): Local event raised or followed. -/
def STN_TRIG_CFG_EV : Fld := { blk := .stn, pos := 0x1100 * 8 + 8, width := 6, stride := 32, count := 8, acc := .rw, reset := 0 }

/-- STN_TRIG_CFG_FILT (RW, spec/09_junctions.md): Input: extra stable samples required. -/
def STN_TRIG_CFG_FILT : Fld := { blk := .stn, pos := 0x1100 * 8 + 16, width := 8, stride := 32, count := 8, acc := .rw, reset := 0 }

/-- STN_TRIG_CFG_WIDTH (RW, spec/09_junctions.md): Output: pulse length in units of 16 metronome ticks; 0 acts as 1. -/
def STN_TRIG_CFG_WIDTH : Fld := { blk := .stn, pos := 0x1100 * 8 + 24, width := 8, stride := 32, count := 8, acc := .rw, reset := 1 }

/-- STN_TRIG_STAT_LEVEL (RO, spec/09_junctions.md): Bit k: present level of TRIGk. -/
def STN_TRIG_STAT_LEVEL : Fld := { blk := .stn, pos := 0x1120 * 8 + 0, width := 8, acc := .ro, reset := 0 }

/-- STN_TRIG_STAT_EDGES (W1C, spec/09_junctions.md): Bit k: a qualified edge occurred on TRIGk. -/
def STN_TRIG_STAT_EDGES : Fld := { blk := .stn, pos := 0x1120 * 8 + 8, width := 8, acc := .w1c, reset := 0 }

/-- U_REC_CFG_Q (RW, spec/10_records.md): Queue on the unit's die (the lead's die for a consist). -/
def U_REC_CFG_Q : Fld := { blk := .unit, pos := 0x5C * 8 + 0, width := 6, stride := 8, count := 4, acc := .rw, reset := 0 }

/-- U_REC_CFG_EN (RW, spec/10_records.md): 1: records of bin b are placed (R268). -/
def U_REC_CFG_EN : Fld := { blk := .unit, pos := 0x5C * 8 + 6, width := 1, stride := 8, count := 4, acc := .rw, reset := 0 }

/-- Q_CFG_FMT (RW, spec/10_records.md): Packet size: 1 32 B, 2 64 B, 3 128 B; 0 refused. -/
def Q_CFG_FMT : Fld := { blk := .queue, pos := 0x0 * 8 + 0, width := 2, acc := .rw, reset := 0 }

/-- Q_CFG_EN (RW, spec/10_records.md): 1: queue enabled (R272). -/
def Q_CFG_EN : Fld := { blk := .queue, pos := 0x0 * 8 + 2, width := 1, acc := .rw, reset := 0 }

/-- Q_CFG_SPILL (RW, spec/10_records.md): 1: storage is the log ring (R275). -/
def Q_CFG_SPILL : Fld := { blk := .queue, pos := 0x0 * 8 + 3, width := 1, acc := .rw, reset := 0 }

/-- Q_CFG_LOG2 (RW, spec/10_records.md): SRAM region size 2^LOG2 bytes, 8–18. -/
def Q_CFG_LOG2 : Fld := { blk := .queue, pos := 0x0 * 8 + 8, width := 5, acc := .rw, reset := 0 }

/-- Q_CFG_BASE (RW, spec/10_records.md): SRAM region start, in 256-byte units. -/
def Q_CFG_BASE : Fld := { blk := .queue, pos := 0x0 * 8 + 16, width := 10, acc := .rw, reset := 0 }

/-- Q_WP_COUNT (RO, spec/10_records.md): Low word of the free-running 64-bit byte count (R273); the true copy; the full count is in Q_PTR. -/
def Q_WP_COUNT : Fld := { blk := .queue, pos := 0x4 * 8 + 0, width := 32, acc := .ro, reset := 0 }

/-- Q_RP_COUNT (RO, spec/10_records.md): Low word of the free-running 64-bit byte count (R273); the true copy; the full count is in Q_PTR. -/
def Q_RP_COUNT : Fld := { blk := .queue, pos := 0x8 * 8 + 0, width := 32, acc := .ro, reset := 0 }

/-- Q_LEVEL_PKTS (RO, spec/10_records.md): Packets held (R282), up to 2^31. -/
def Q_LEVEL_PKTS : Fld := { blk := .queue, pos := 0xC * 8 + 0, width := 32, acc := .ro, reset := 0 }

/-- Q_LOST_COUNT (RO, spec/10_records.md): Packets lost (R274, R275, R287); resets (R283); each wrapping modulo 2^32. -/
def Q_LOST_COUNT : Fld := { blk := .queue, pos := 0x10 * 8 + 0, width := 32, acc := .ro, reset := 0 }

/-- Q_RESETS_COUNT (RO, spec/10_records.md): Packets lost (R274, R275, R287); resets (R283); each wrapping modulo 2^32. -/
def Q_RESETS_COUNT : Fld := { blk := .queue, pos := 0x28 * 8 + 0, width := 32, acc := .ro, reset := 0 }

/-- Q_STAT_LVL (W1C, spec/10_records.md): Level mark crossed upward (R282). -/
def Q_STAT_LVL : Fld := { blk := .queue, pos := 0x14 * 8 + 0, width := 1, acc := .w1c, reset := 0 }

/-- Q_STAT_PKT (W1C, spec/10_records.md): A packet was placed. -/
def Q_STAT_PKT : Fld := { blk := .queue, pos := 0x14 * 8 + 1, width := 1, acc := .w1c, reset := 0 }

/-- Q_STAT_QERR (W1C, spec/10_records.md): Pointer mismatch reset (R283). -/
def Q_STAT_QERR : Fld := { blk := .queue, pos := 0x14 * 8 + 2, width := 1, acc := .w1c, reset := 0 }

/-- Q_STAT_OVW (W1C, spec/10_records.md): An overwrite occurred. -/
def Q_STAT_OVW : Fld := { blk := .queue, pos := 0x14 * 8 + 3, width := 1, acc := .w1c, reset := 0 }

/-- Q_STAT_LR_LOST (W1C, spec/10_records.md): Log ring lost; queue moved to SRAM. -/
def Q_STAT_LR_LOST : Fld := { blk := .queue, pos := 0x14 * 8 + 4, width := 1, acc := .w1c, reset := 0 }

/-- Q_STAT_ECC (W1C, spec/10_records.md): A packet was removed for an uncorrectable error. -/
def Q_STAT_ECC : Fld := { blk := .queue, pos := 0x14 * 8 + 5, width := 1, acc := .w1c, reset := 0 }

/-- Q_STAT_CFG_IGN (W1C, spec/10_records.md): A Q_CFG write was ignored. -/
def Q_STAT_CFG_IGN : Fld := { blk := .queue, pos := 0x14 * 8 + 6, width := 1, acc := .w1c, reset := 0 }

/-- Q_STAT_BADCFG (W1C, spec/10_records.md): An enable was refused. -/
def Q_STAT_BADCFG : Fld := { blk := .queue, pos := 0x14 * 8 + 7, width := 1, acc := .w1c, reset := 0 }

/-- Q_STAT_REL_IGN (W1C, spec/10_records.md): A Q_RELEASE write was ignored. -/
def Q_STAT_REL_IGN : Fld := { blk := .queue, pos := 0x14 * 8 + 8, width := 1, acc := .w1c, reset := 0 }

/-- Q_STAT_EN_ACT (RO, spec/10_records.md): 1: queue enabled. -/
def Q_STAT_EN_ACT : Fld := { blk := .queue, pos := 0x14 * 8 + 9, width := 1, acc := .ro, reset := 0 }

/-- Q_STAT_GEN (RO, spec/10_records.md): Generation, incremented at each enable, disable and reset, wrapping. -/
def Q_STAT_GEN : Fld := { blk := .queue, pos := 0x14 * 8 + 16, width := 8, acc := .ro, reset := 0 }

/-- Q_NOTE_EV (RW, spec/10_records.md): Local event for notices. -/
def Q_NOTE_EV : Fld := { blk := .queue, pos := 0x18 * 8 + 0, width := 6, acc := .rw, reset := 0 }

/-- Q_NOTE_EV_EN (RW, spec/10_records.md): 1: notices by event line. -/
def Q_NOTE_EV_EN : Fld := { blk := .queue, pos := 0x18 * 8 + 6, width := 1, acc := .rw, reset := 0 }

/-- Q_NOTE_ATTN_EN (RW, spec/10_records.md): 1: notices by ATTN_N. -/
def Q_NOTE_ATTN_EN : Fld := { blk := .queue, pos := 0x18 * 8 + 7, width := 1, acc := .rw, reset := 0 }

/-- Q_NOTE_TW_EN (RW, spec/10_records.md): 1: notices by Tweed message. -/
def Q_NOTE_TW_EN : Fld := { blk := .queue, pos := 0x18 * 8 + 8, width := 1, acc := .rw, reset := 0 }

/-- Q_NOTE_ON_PKT (RW, spec/10_records.md): 1: notice after each packet. -/
def Q_NOTE_ON_PKT : Fld := { blk := .queue, pos := 0x18 * 8 + 9, width := 1, acc := .rw, reset := 0 }

/-- Q_NOTE_ON_LVL (RW, spec/10_records.md): 1: notice at a level crossing. -/
def Q_NOTE_ON_LVL : Fld := { blk := .queue, pos := 0x18 * 8 + 10, width := 1, acc := .rw, reset := 0 }

/-- Q_LVL_MARK_PKTS (RW, spec/10_records.md): Level mark in packets, up to 2^31; 0 disables. -/
def Q_LVL_MARK_PKTS : Fld := { blk := .queue, pos := 0x1C * 8 + 0, width := 32, acc := .rw, reset := 0 }

/-- Q_CMD_DROP_REST (CMD, spec/10_records.md): Write 1: drop the rest of this master's packet (R278). -/
def Q_CMD_DROP_REST : Fld := { blk := .queue, pos := 0x20 * 8 + 0, width := 1, acc := .cmd, reset := 0 }

/-- Q_CMD_FLUSH (CMD, spec/10_records.md): Write 1: RP ← WP (R279). -/
def Q_CMD_FLUSH : Fld := { blk := .queue, pos := 0x20 * 8 + 1, width := 1, acc := .cmd, reset := 0 }

/-- Q_CMD_RESULT (RO, spec/10_records.md): 0 done, 1 DROP_REST without a copy, 2 queue not enabled. -/
def Q_CMD_RESULT : Fld := { blk := .queue, pos := 0x20 * 8 + 2, width := 2, acc := .ro, reset := 0 }

/-- Q_RELEASE_RP (WO, spec/10_records.md): Release value v: the low word of the new read count (R279). -/
def Q_RELEASE_RP : Fld := { blk := .queue, pos := 0x24 * 8 + 0, width := 32, acc := .wo, reset := 0 }

/-- Q_TW_DEST_STN (RW, spec/10_records.md): Destination station of Tweed notices. -/
def Q_TW_DEST_STN : Fld := { blk := .queue, pos := 0x30 * 8 + 0, width := 12, acc := .rw, reset := 0 }

/-- Q_LR_BASE_ADDR (RW, spec/10_records.md): Log ring station address, aligned to its size. -/
def Q_LR_BASE_ADDR : Fld := { blk := .queue, pos := 0x40 * 8 + 0, width := 40, acc := .rw, reset := 0 }

/-- Q_LR_SIZE_LOG2 (RW, spec/10_records.md): Ring size 2^LOG2 bytes, 12–36. -/
def Q_LR_SIZE_LOG2 : Fld := { blk := .queue, pos := 0x48 * 8 + 0, width := 6, acc := .rw, reset := 0 }

/-- Q_PTR_WP (SNAP, spec/10_records.md): Write count, all 64 bits (R273). -/
def Q_PTR_WP : Fld := { blk := .queue, pos := 0x50 * 8 + 0, width := 64, acc := .snap, reset := 0 }

/-- Q_PTR_RP (SNAP, spec/10_records.md): Read count, all 64 bits (R273, R279). -/
def Q_PTR_RP : Fld := { blk := .queue, pos := 0x58 * 8 + 0, width := 64, acc := .snap, reset := 0 }

/-- Q_HEAD_WORD (SNAP, spec/10_records.md): Word i of the head packet's copy (R276, R277). -/
def Q_HEAD_WORD : Fld := { blk := .queue, pos := 0x80 * 8 + 0, width := 32, stride := 32, count := 32, acc := .snap, reset := 0 }

/-- DIE_REC_DISC_COUNT (RO, spec/10_records.md): Records discarded (R268); error-log entries written (R284); each wrapping modulo 2^32. -/
def DIE_REC_DISC_COUNT : Fld := { blk := .die, pos := 0x470 * 8 + 0, width := 32, acc := .ro, reset := 0 }

/-- DIE_ERR_COUNT_COUNT (RO, spec/10_records.md): Records discarded (R268); error-log entries written (R284); each wrapping modulo 2^32. -/
def DIE_ERR_COUNT_COUNT : Fld := { blk := .die, pos := 0x480 * 8 + 0, width := 32, acc := .ro, reset := 0 }

/-- DIE_ERR_ENTRY_TICK (SNAP, spec/10_records.md): Line tick count of the event. -/
def DIE_ERR_ENTRY_TICK : Fld := { blk := .die, pos := 0x500 * 8 + 0, width := 64, stride := 128, count := 16, acc := .snap, reset := 0 }

/-- DIE_ERR_ENTRY_SRC (SNAP, spec/10_records.md): 0 empty, 1 queue reset, 2 DDR5 uncorrectable, 3 log ring lost. -/
def DIE_ERR_ENTRY_SRC : Fld := { blk := .die, pos := 0x508 * 8 + 0, width := 8, stride := 128, count := 16, acc := .snap, reset := 0 }

/-- DIE_ERR_ENTRY_INDEX (SNAP, spec/10_records.md): Queue or channel. -/
def DIE_ERR_ENTRY_INDEX : Fld := { blk := .die, pos := 0x508 * 8 + 8, width := 8, stride := 128, count := 16, acc := .snap, reset := 0 }

/-- DIE_ERR_ENTRY_DETAIL (SNAP, spec/10_records.md): As R284. -/
def DIE_ERR_ENTRY_DETAIL : Fld := { blk := .die, pos := 0x50C * 8 + 0, width := 32, stride := 128, count := 16, acc := .snap, reset := 0 }

/-- DDR_CFG_SPEED (RW, spec/10_records.md): 0 DDR5-4800, 1 -5200, 2 -5600, 3 -6000, 4 -6400; 5–7 refused. -/
def DDR_CFG_SPEED : Fld := { blk := .die, pos := 0x800 * 8 + 0, width := 3, acc := .rw, reset := 0 }

/-- DDR_CFG_WIDTH (RW, spec/10_records.md): 0 x8, 1 x16. -/
def DDR_CFG_WIDTH : Fld := { blk := .die, pos := 0x800 * 8 + 3, width := 1, acc := .rw, reset := 0 }

/-- DDR_CFG_RANKS (RW, spec/10_records.md): 0 one rank, 1 two ranks. -/
def DDR_CFG_RANKS : Fld := { blk := .die, pos := 0x800 * 8 + 4, width := 1, acc := .rw, reset := 0 }

/-- DDR_CFG_DENS (RW, spec/10_records.md): 0 16 Gb, 1 24 Gb, 2 32 Gb, 3 64 Gb; a capacity above 64 GB is refused. -/
def DDR_CFG_DENS : Fld := { blk := .die, pos := 0x800 * 8 + 5, width := 2, acc := .rw, reset := 0 }

/-- DDR_CMD_TRAIN (CMD, spec/10_records.md): Write 1: train the channel (R289); read: 1 while training. -/
def DDR_CMD_TRAIN : Fld := { blk := .die, pos := 0x804 * 8 + 0, width := 1, acc := .cmd, reset := 0 }

/-- DDR_STAT_TRAINED (RO, spec/10_records.md): 1: channel in service. -/
def DDR_STAT_TRAINED : Fld := { blk := .die, pos := 0x808 * 8 + 0, width := 1, acc := .ro, reset := 0 }

/-- DDR_STAT_BUSY (RO, spec/10_records.md): 1: training. -/
def DDR_STAT_BUSY : Fld := { blk := .die, pos := 0x808 * 8 + 1, width := 1, acc := .ro, reset := 0 }

/-- DDR_STAT_RESULT (RO, spec/10_records.md): 0 trained, 1 training failed, 2 configuration refused, 3 not attempted. -/
def DDR_STAT_RESULT : Fld := { blk := .die, pos := 0x808 * 8 + 2, width := 2, acc := .ro, reset := 3 }

/-- DDR_CAP_MIB (RO, spec/10_records.md): Installed capacity in MiB; 0 when not trained. -/
def DDR_CAP_MIB : Fld := { blk := .die, pos := 0x80C * 8 + 0, width := 32, acc := .ro, reset := 0 }

/-- DDR_ECC_CE_COUNT (RO, spec/10_records.md): Corrected; uncorrectable; each wrapping modulo 2^32. -/
def DDR_ECC_CE_COUNT : Fld := { blk := .die, pos := 0x810 * 8 + 0, width := 32, acc := .ro, reset := 0 }

/-- DDR_ECC_UE_COUNT (RO, spec/10_records.md): Corrected; uncorrectable; each wrapping modulo 2^32. -/
def DDR_ECC_UE_COUNT : Fld := { blk := .die, pos := 0x814 * 8 + 0, width := 32, acc := .ro, reset := 0 }

/-- DDR_ECC_ADDR_ADDR (SNAP, spec/10_records.md): Station address of the last uncorrectable error. -/
def DDR_ECC_ADDR_ADDR : Fld := { blk := .die, pos := 0x818 * 8 + 0, width := 40, acc := .snap, reset := 0 }

/-- DDR_SCRUB_PERIOD (RW, spec/10_records.md): Hours per scrub pass; 0 off. -/
def DDR_SCRUB_PERIOD : Fld := { blk := .die, pos := 0x820 * 8 + 0, width := 16, acc := .rw, reset := 0x18 }

/-- CAL_ROTA_CFG_EN (RW, spec/11_sidings.md): 1: rota running (R310). -/
def CAL_ROTA_CFG_EN : Fld := { blk := .die, pos := 0x80000 * 8 + 0, width := 1, acc := .rw, reset := 0 }

/-- CAL_ROTA_CFG_SIDS (RW, spec/11_sidings.md): Sidings the rota may use: 1 S0, 2 S1, 3 both; 0 acts as 3. -/
def CAL_ROTA_CFG_SIDS : Fld := { blk := .die, pos := 0x80000 * 8 + 1, width := 2, acc := .rw, reset := 0 }

/-- CAL_ROTA_CFG_KINDS (RW, spec/11_sidings.md): Bit 3 OFFSET, 4 LIN, 5 GAIN, 6 PATH, 7 DRIVE (R305). -/
def CAL_ROTA_CFG_KINDS : Fld := { blk := .die, pos := 0x80000 * 8 + 3, width := 5, acc := .rw, reset := 0 }

/-- CAL_ROTA_CFG_SIDCAL (RW, spec/11_sidings.md): 1: S0 and S1 are visited in each pass. -/
def CAL_ROTA_CFG_SIDCAL : Fld := { blk := .die, pos := 0x80000 * 8 + 8, width := 1, acc := .rw, reset := 0 }

/-- CAL_ROTA_CFG_PERIOD (RW, spec/11_sidings.md): Seconds per pass, 60–65,535; the image default is 1,200. -/
def CAL_ROTA_CFG_PERIOD : Fld := { blk := .die, pos := 0x80000 * 8 + 16, width := 16, acc := .rw, reset := 0 }

/-- CAL_ROTA_MASK_CH (RW, spec/11_sidings.md): Bit c: channel c is visited. -/
def CAL_ROTA_MASK_CH : Fld := { blk := .die, pos := 0x80004 * 8 + 0, width := 32, acc := .rw, reset := 0 }

/-- CAL_TKO_SHADOW_MIN (RW, spec/11_sidings.md): Least shadow in loop periods (R299). -/
def CAL_TKO_SHADOW_MIN : Fld := { blk := .die, pos := 0x80008 * 8 + 0, width := 16, acc := .rw, reset := 0x40 }

/-- CAL_TKO_WAIT (RW, spec/11_sidings.md): Seconds to find a handover or return tick. -/
def CAL_TKO_WAIT : Fld := { blk := .die, pos := 0x80008 * 8 + 16, width := 16, acc := .rw, reset := 0x3c }

/-- CAL_TKO_TOL_CODE (RW, spec/11_sidings.md): Unsigned tolerance on the mean sample difference (R299). -/
def CAL_TKO_TOL_CODE : Fld := { blk := .die, pos := 0x8000C * 8 + 0, width := 32, acc := .rw, reset := 0x5400 }

/-- CAL_CMD_OP (CMD, spec/11_sidings.md): Write 1 VISIT, 2 STORE, 3 STANDIN, 4 RETURN, 5 EXT_STDV, 6 EXT_RANGE, 7 FACTORY_STORE; read: last operation. -/
def CAL_CMD_OP : Fld := { blk := .die, pos := 0x80010 * 8 + 0, width := 3, acc := .cmd, reset := 0 }

/-- CAL_CMD_CH (RW, spec/11_sidings.md): Channel 0–31, or 32–33 for a siding visit. -/
def CAL_CMD_CH : Fld := { blk := .die, pos := 0x80010 * 8 + 3, width := 6, acc := .rw, reset := 0 }

/-- CAL_CMD_SID (RW, spec/11_sidings.md): Siding for STANDIN: 0 S0, 1 S1. -/
def CAL_CMD_SID : Fld := { blk := .die, pos := 0x80010 * 8 + 9, width := 1, acc := .rw, reset := 0 }

/-- CAL_CMD_FORCE (RW, spec/11_sidings.md): STANDIN without tolerance (R311). -/
def CAL_CMD_FORCE : Fld := { blk := .die, pos := 0x80010 * 8 + 10, width := 1, acc := .rw, reset := 0 }

/-- CAL_CMD_PT (RW, spec/11_sidings.md): EXT_RANGE point, 0 or 1. -/
def CAL_CMD_PT : Fld := { blk := .die, pos := 0x80010 * 8 + 11, width := 1, acc := .rw, reset := 0 }

/-- CAL_CMD_BUSY (RO, spec/11_sidings.md): 1: operation running. -/
def CAL_CMD_BUSY : Fld := { blk := .die, pos := 0x80010 * 8 + 12, width := 1, acc := .ro, reset := 0 }

/-- CAL_CMD_RESULT (RO, spec/11_sidings.md): 0 accepted, 1 refused: state, 2 siding engaged, 3 no rewrite left, 4 busy. -/
def CAL_CMD_RESULT : Fld := { blk := .die, pos := 0x80010 * 8 + 13, width := 3, acc := .ro, reset := 0 }

/-- CAL_LAST_CH (RO, spec/11_sidings.md): Channel or siding (32–33) of the last visit. -/
def CAL_LAST_CH : Fld := { blk := .die, pos := 0x80014 * 8 + 0, width := 6, acc := .ro, reset := 0 }

/-- CAL_LAST_OUTCOME (RO, spec/11_sidings.md): 0 applied, 1 CAL_SKIP, 2 CAL_REJECT, 3 accepted and pending. -/
def CAL_LAST_OUTCOME : Fld := { blk := .die, pos := 0x80014 * 8 + 6, width := 2, acc := .ro, reset := 0 }

/-- CAL_LAST_REASON (RO, spec/11_sidings.md): Reason code (R307, R308). -/
def CAL_LAST_REASON : Fld := { blk := .die, pos := 0x80014 * 8 + 8, width := 8, acc := .ro, reset := 0 }

/-- CAL_LAST_TIME_TICK (SNAP, spec/11_sidings.md): Line tick count at which the last visit ended. -/
def CAL_LAST_TIME_TICK : Fld := { blk := .die, pos := 0x80018 * 8 + 0, width := 64, acc := .snap, reset := 0 }

/-- CAL_CNT_COUNT (RO, spec/11_sidings.md): Visits applied (k = 0), skipped (1), rejected (2); each wrapping modulo 2^32. -/
def CAL_CNT_COUNT : Fld := { blk := .die, pos := 0x80020 * 8 + 0, width := 32, stride := 32, count := 3, acc := .ro, reset := 0 }

/-- CAL_TOL_REF (RW, spec/11_sidings.md): Reference ratio tolerance in ppm (R307). -/
def CAL_TOL_REF : Fld := { blk := .die, pos := 0x80030 * 8 + 0, width := 16, acc := .rw, reset := 0x14 }

/-- CAL_TOL_TEMP (RW, spec/11_sidings.md): Temperature stability limit in mK. -/
def CAL_TOL_TEMP : Fld := { blk := .die, pos := 0x80030 * 8 + 16, width := 16, acc := .rw, reset := 0x1f4 }

/-- CAL_WIN_OFF (RW, spec/11_sidings.md): Offset window, ppm (R308). -/
def CAL_WIN_OFF : Fld := { blk := .die, pos := 0x80034 * 8 + 0, width := 8, acc := .rw, reset := 0x32 }

/-- CAL_WIN_GAIN (RW, spec/11_sidings.md): Gain window, ppm. -/
def CAL_WIN_GAIN : Fld := { blk := .die, pos := 0x80034 * 8 + 8, width := 8, acc := .rw, reset := 0x64 }

/-- CAL_WIN_LIN (RW, spec/11_sidings.md): Linearity window, ppm. -/
def CAL_WIN_LIN : Fld := { blk := .die, pos := 0x80034 * 8 + 16, width := 8, acc := .rw, reset := 0x14 }

/-- CAL_WIN_DRV (RW, spec/11_sidings.md): Drive window, ppm. -/
def CAL_WIN_DRV : Fld := { blk := .die, pos := 0x80034 * 8 + 24, width := 8, acc := .rw, reset := 0xc8 }

/-- CAL_AREFX_UV (RW, spec/11_sidings.md): AREFX value in µV, 2,048,000–2,500,000; changed by EXT_STDV (R312). -/
def CAL_AREFX_UV : Fld := { blk := .die, pos := 0x80040 * 8 + 0, width := 32, acc := .rw, reset := 0x1f4000 }

/-- CAL_SID_CH (RO, spec/11_sidings.md): Channel served or shadowed. -/
def CAL_SID_CH : Fld := { blk := .die, pos := 0x80050 * 8 + 0, width := 5, stride := 32, count := 2, acc := .ro, reset := 0 }

/-- CAL_SID_PHASE (RO, spec/11_sidings.md): 0 free, 1 shadow, 2 served, 3 return shadow, 4 attached (stand-in, isolated), 5 being visited. -/
def CAL_SID_PHASE : Fld := { blk := .die, pos := 0x80050 * 8 + 5, width := 3, stride := 32, count := 2, acc := .ro, reset := 0 }

/-- CAL_SID_STANDIN (RO, spec/11_sidings.md): 1: engaged by STANDIN. -/
def CAL_SID_STANDIN : Fld := { blk := .die, pos := 0x80050 * 8 + 8, width := 1, stride := 32, count := 2, acc := .ro, reset := 0 }

/-- CAL_SID_HEALTHY (RO, spec/11_sidings.md): 0: the siding fails check 3 of R307. -/
def CAL_SID_HEALTHY : Fld := { blk := .die, pos := 0x80050 * 8 + 9, width := 1, stride := 32, count := 2, acc := .ro, reset := 1 }

/-- CAL_STORE_CFG_HOURS (RW, spec/11_sidings.md): Hours between stores; 0 stores only on command. -/
def CAL_STORE_CFG_HOURS : Fld := { blk := .die, pos := 0x80060 * 8 + 0, width := 16, acc := .rw, reset := 0x18 }

/-- CAL_NVM_STAT_ACTIVE (RO, spec/11_sidings.md): Sets loaded from: 0 A, 1 B, 2 F, 3 identity (R317). -/
def CAL_NVM_STAT_ACTIVE : Fld := { blk := .die, pos := 0x80064 * 8 + 0, width := 2, acc := .ro, reset := 3 }

/-- CAL_NVM_STAT_A_VALID (RO, spec/11_sidings.md): Slot A valid. -/
def CAL_NVM_STAT_A_VALID : Fld := { blk := .die, pos := 0x80064 * 8 + 2, width := 1, acc := .ro, reset := 0 }

/-- CAL_NVM_STAT_B_VALID (RO, spec/11_sidings.md): Slot B valid. -/
def CAL_NVM_STAT_B_VALID : Fld := { blk := .die, pos := 0x80064 * 8 + 3, width := 1, acc := .ro, reset := 0 }

/-- CAL_NVM_STAT_F_VALID (RO, spec/11_sidings.md): Slot F valid. -/
def CAL_NVM_STAT_F_VALID : Fld := { blk := .die, pos := 0x80064 * 8 + 4, width := 1, acc := .ro, reset := 0 }

/-- CAL_NVM_STAT_STORING (RO, spec/11_sidings.md): 1: a store is running. -/
def CAL_NVM_STAT_STORING : Fld := { blk := .die, pos := 0x80064 * 8 + 5, width := 1, acc := .ro, reset := 0 }

/-- CAL_NVM_STAT_STORE_FAIL (W1C, spec/11_sidings.md): A read-back comparison failed (R316). -/
def CAL_NVM_STAT_STORE_FAIL : Fld := { blk := .die, pos := 0x80064 * 8 + 6, width := 1, acc := .w1c, reset := 0 }

/-- CAL_NVM_STAT_INCOMPLETE (W1C, spec/11_sidings.md): A slot with an unfinished store was found. -/
def CAL_NVM_STAT_INCOMPLETE : Fld := { blk := .die, pos := 0x80064 * 8 + 7, width := 1, acc := .w1c, reset := 0 }

/-- CAL_NVM_STAT_F_LEFT (RO, spec/11_sidings.md): FACTORY_STORE rewrites remaining, 0–8. -/
def CAL_NVM_STAT_F_LEFT : Fld := { blk := .die, pos := 0x80064 * 8 + 8, width := 4, acc := .ro, reset := 8 }

/-- CAL_NVM_SEQ_SEQ (RO, spec/11_sidings.md): SEQ of the slot; 0 if invalid. -/
def CAL_NVM_SEQ_SEQ : Fld := { blk := .die, pos := 0x80068 * 8 + 0, width := 32, stride := 32, count := 3, acc := .ro, reset := 0 }

/-- CAL_NVM_CYC_COUNT (RO, spec/11_sidings.md): Program cycles of the slot since manufacture. -/
def CAL_NVM_CYC_COUNT : Fld := { blk := .die, pos := 0x80074 * 8 + 0, width := 32, stride := 32, count := 3, acc := .ro, reset := 0 }

/-- CAL_EXT_CFG_CH (RW, spec/11_sidings.md): Channel for EXT_RANGE. -/
def CAL_EXT_CFG_CH : Fld := { blk := .die, pos := 0x80080 * 8 + 0, width := 5, acc := .rw, reset := 0 }

/-- CAL_EXT_CFG_QTY (RW, spec/11_sidings.md): 0 voltage range, 1 current range. -/
def CAL_EXT_CFG_QTY : Fld := { blk := .die, pos := 0x80080 * 8 + 5, width := 1, acc := .rw, reset := 0 }

/-- CAL_EXT_CFG_RNG (RW, spec/11_sidings.md): Range index. -/
def CAL_EXT_CFG_RNG : Fld := { blk := .die, pos := 0x80080 * 8 + 6, width := 4, acc := .rw, reset := 0 }

/-- CAL_EXT_CFG_FACTORY (RW, spec/11_sidings.md): 1: factory mode (R314). -/
def CAL_EXT_CFG_FACTORY : Fld := { blk := .die, pos := 0x80080 * 8 + 10, width := 1, acc := .rw, reset := 0 }

/-- CAL_EXT_CFG_CALF_EN (RW, spec/11_sidings.md): 1: REF source driven on CALF (R303). -/
def CAL_EXT_CFG_CALF_EN : Fld := { blk := .die, pos := 0x80080 * 8 + 11, width := 1, acc := .rw, reset := 0 }

/-- CAL_EXT_STD_VALUE (RW, spec/11_sidings.md): Standard in µV, signed (CAL_EXT_STD); true value of the present point, stage units (CAL_EXT_TRUE). -/
def CAL_EXT_STD_VALUE : Fld := { blk := .die, pos := 0x80084 * 8 + 0, width := 32, acc := .rw, reset := 0 }

/-- CAL_EXT_TRUE_VALUE (RW, spec/11_sidings.md): Standard in µV, signed (CAL_EXT_STD); true value of the present point, stage units (CAL_EXT_TRUE). -/
def CAL_EXT_TRUE_VALUE : Fld := { blk := .die, pos := 0x80088 * 8 + 0, width := 32, acc := .rw, reset := 0 }

/-- U_ILK_CFG_FIXMASK (RW, spec/12_interlocking.md): Bit n: FIXn required (R325). -/
def U_ILK_CFG_FIXMASK : Fld := { blk := .unit, pos := 0x640 * 8 + 0, width := 8, acc := .rw, reset := 0 }

/-- U_ILK_CFG_CEIL_N (RW, spec/12_interlocking.md): Consecutive ticks beyond a ceiling that raise FLT_CEIL; 0 acts as 1. -/
def U_ILK_CFG_CEIL_N : Fld := { blk := .unit, pos := 0x640 * 8 + 8, width := 8, acc := .rw, reset := 4 }

/-- U_SAFE_TH_CODE (RW, spec/12_interlocking.md): Unsigned; forced quantity within which isolation may precede the deadline (R333). -/
def U_SAFE_TH_CODE : Fld := { blk := .unit, pos := 0x644 * 8 + 0, width := 32, acc := .rw, reset := 0x51eb85 }

/-- U_CONN_CMD_CMD (CMD, spec/12_interlocking.md): Write 1 CONNECT, 2 ISOLATE; read: last command. -/
def U_CONN_CMD_CMD : Fld := { blk := .unit, pos := 0x648 * 8 + 0, width := 2, acc := .cmd, reset := 0 }

/-- U_CONN_CMD_BUSY (RO, spec/12_interlocking.md): 1: command waiting for its tick. -/
def U_CONN_CMD_BUSY : Fld := { blk := .unit, pos := 0x648 * 8 + 2, width := 1, acc := .ro, reset := 0 }

/-- U_CONN_CMD_RESULT (RO, spec/12_interlocking.md): 0 accepted; refusals as R327. -/
def U_CONN_CMD_RESULT : Fld := { blk := .unit, pos := 0x648 * 8 + 4, width := 4, acc := .ro, reset := 0 }

/-- U_CHK_CFG_N (RW, spec/12_interlocking.md): Check length in periods, 16–4,096; bits [1:0] read 0, values below 16 act as 16, above 4,096 as 4,096. -/
def U_CHK_CFG_N : Fld := { blk := .unit, pos := 0x64C * 8 + 0, width := 16, acc := .rw, reset := 0x100 }

/-- U_CHK_CFG_TH (RW, spec/12_interlocking.md): Largest accepted m, in units of 2^−16 (R329). -/
def U_CHK_CFG_TH : Fld := { blk := .unit, pos := 0x64C * 8 + 16, width := 16, acc := .rw, reset := 0xccd }

/-- U_CHK_AMP_CODE (RW, spec/12_interlocking.md): Check amplitude A, an unsigned drive code. -/
def U_CHK_AMP_CODE : Fld := { blk := .unit, pos := 0x650 * 8 + 0, width := 32, acc := .rw, reset := 0 }

/-- U_CHK_K_K (RW, spec/12_interlocking.md): Expected VS codes per drive code, signed Q2.30; 0 for presence only. -/
def U_CHK_K_K : Fld := { blk := .unit, pos := 0x654 * 8 + 0, width := 32, acc := .rw, reset := 0 }

/-- U_CHK_RES_M (RO, spec/12_interlocking.md): m of the last check. -/
def U_CHK_RES_M : Fld := { blk := .unit, pos := 0x658 * 8 + 0, width := 16, acc := .ro, reset := 0 }

/-- U_CHK_RES_OUTCOME (RO, spec/12_interlocking.md): 0 none, 1 pass, 2 fail, 3 interrupted. -/
def U_CHK_RES_OUTCOME : Fld := { blk := .unit, pos := 0x658 * 8 + 16, width := 2, acc := .ro, reset := 0 }

/-- U_CHK_RES_CM (RO, spec/12_interlocking.md): 1: the sense-lead watch flagged a check tick. -/
def U_CHK_RES_CM : Fld := { blk := .unit, pos := 0x658 * 8 + 18, width := 1, acc := .ro, reset := 0 }

/-- U_CHK_RES_OVR (RO, spec/12_interlocking.md): 1: VS over-range during the check. -/
def U_CHK_RES_OVR : Fld := { blk := .unit, pos := 0x658 * 8 + 19, width := 1, acc := .ro, reset := 0 }

/-- U_ILK_STAT_FIX_OK (RO, spec/12_interlocking.md): 1: every required fixture input present. -/
def U_ILK_STAT_FIX_OK : Fld := { blk := .unit, pos := 0x65C * 8 + 0, width := 1, acc := .ro, reset := 0 }

/-- U_ILK_STAT_HOT_ISO (W1C, spec/12_interlocking.md): Isolated at the deadline beyond U_SAFE_TH (R333). -/
def U_ILK_STAT_HOT_ISO : Fld := { blk := .unit, pos := 0x65C * 8 + 1, width := 1, acc := .w1c, reset := 0 }

/-- U_ILK_STAT_CEIL_NOW (RO, spec/12_interlocking.md): 1: a quantity beyond its ceiling at the last tick. -/
def U_ILK_STAT_CEIL_NOW : Fld := { blk := .unit, pos := 0x65C * 8 + 2, width := 1, acc := .ro, reset := 0 }

/-- U_ILK_STAT_CAUSE (RO, spec/12_interlocking.md): Last cause: 0 none, 1 ILK, 2 ABORT, 3 fixture, 4 request, 5 fault. -/
def U_ILK_STAT_CAUSE : Fld := { blk := .unit, pos := 0x65C * 8 + 3, width := 3, acc := .ro, reset := 0 }

/-- U_CEILS_V_CODE (RW, spec/12_interlocking.md): Staged ceiling code; values above 0x7FFF_FFFF act as 0x7FFF_FFFF. -/
def U_CEILS_V_CODE : Fld := { blk := .unit, pos := 0x660 * 8 + 0, width := 32, acc := .rw, reset := 0x7fffffff }

/-- U_CEILS_I_CODE (RW, spec/12_interlocking.md): Staged ceiling code; values above 0x7FFF_FFFF act as 0x7FFF_FFFF. -/
def U_CEILS_I_CODE : Fld := { blk := .unit, pos := 0x664 * 8 + 0, width := 32, acc := .rw, reset := 0x7fffffff }

/-- U_CEILS_P_CODE (RW, spec/12_interlocking.md): Staged ceiling code; values above 0x7FFF_FFFF act as 0x7FFF_FFFF. -/
def U_CEILS_P_CODE : Fld := { blk := .unit, pos := 0x668 * 8 + 0, width := 32, acc := .rw, reset := 0x7fffffff }

/-- U_CEILS_RNG_VR (RW, spec/12_interlocking.md): Voltage range of the voltage ceiling. -/
def U_CEILS_RNG_VR : Fld := { blk := .unit, pos := 0x66C * 8 + 0, width := 2, acc := .rw, reset := 3 }

/-- U_CEILS_RNG_IR (RW, spec/12_interlocking.md): Current range of the current ceiling. -/
def U_CEILS_RNG_IR : Fld := { blk := .unit, pos := 0x66C * 8 + 4, width := 4, acc := .rw, reset := 0xf }

/-- U_CEILS_RNG_PIR (RW, spec/12_interlocking.md): Current range of the power ceiling. -/
def U_CEILS_RNG_PIR : Fld := { blk := .unit, pos := 0x66C * 8 + 8, width := 4, acc := .rw, reset := 0xf }

/-- U_CEILS_RNG_PVR (RW, spec/12_interlocking.md): Voltage range of the power ceiling. -/
def U_CEILS_RNG_PVR : Fld := { blk := .unit, pos := 0x66C * 8 + 12, width := 2, acc := .rw, reset := 3 }

/-- U_CEIL_RNG_VR (RO, spec/12_interlocking.md): Voltage range of the voltage ceiling. -/
def U_CEIL_RNG_VR : Fld := { blk := .unit, pos := 0x67C * 8 + 0, width := 2, acc := .ro, reset := 3 }

/-- U_CEIL_RNG_IR (RO, spec/12_interlocking.md): Current range of the current ceiling. -/
def U_CEIL_RNG_IR : Fld := { blk := .unit, pos := 0x67C * 8 + 4, width := 4, acc := .ro, reset := 0xf }

/-- U_CEIL_RNG_PIR (RO, spec/12_interlocking.md): Current range of the power ceiling. -/
def U_CEIL_RNG_PIR : Fld := { blk := .unit, pos := 0x67C * 8 + 8, width := 4, acc := .ro, reset := 0xf }

/-- U_CEIL_RNG_PVR (RO, spec/12_interlocking.md): Voltage range of the power ceiling. -/
def U_CEIL_RNG_PVR : Fld := { blk := .unit, pos := 0x67C * 8 + 12, width := 2, acc := .ro, reset := 3 }

/-- U_CEIL_V_CODE (RO, spec/12_interlocking.md): Active ceiling code (R338). -/
def U_CEIL_V_CODE : Fld := { blk := .unit, pos := 0x670 * 8 + 0, width := 32, acc := .ro, reset := 0x7fffffff }

/-- U_CEIL_I_CODE (RO, spec/12_interlocking.md): Active ceiling code (R338). -/
def U_CEIL_I_CODE : Fld := { blk := .unit, pos := 0x674 * 8 + 0, width := 32, acc := .ro, reset := 0x7fffffff }

/-- U_CEIL_P_CODE (RO, spec/12_interlocking.md): Active ceiling code (R338). -/
def U_CEIL_P_CODE : Fld := { blk := .unit, pos := 0x678 * 8 + 0, width := 32, acc := .ro, reset := 0x7fffffff }

/-- ILK_CFG_TSAFE (RW, spec/12_interlocking.md): T_SAFE in 100 µs steps (R336). -/
def ILK_CFG_TSAFE : Fld := { blk := .die, pos := 0x70000 * 8 + 0, width := 7, acc := .rw, reset := 0x14 }

/-- ILK_CFG_ISO_SETTLE (RW, spec/12_interlocking.md): µs from ISO_N release to the connect latch. -/
def ILK_CFG_ISO_SETTLE : Fld := { blk := .die, pos := 0x70000 * 8 + 8, width := 16, acc := .rw, reset := 0x7d0 }

/-- ILK_STAT_ISO_REL (RO, spec/12_interlocking.md): 1: ISO_N released. -/
def ILK_STAT_ISO_REL : Fld := { blk := .die, pos := 0x70004 * 8 + 0, width := 1, acc := .ro, reset := 0 }

/-- ILK_STAT_ILK_OPEN (RO, spec/12_interlocking.md): Line state. -/
def ILK_STAT_ILK_OPEN : Fld := { blk := .die, pos := 0x70004 * 8 + 1, width := 1, acc := .ro, reset := 1 }

/-- ILK_STAT_ABORT (RO, spec/12_interlocking.md): Line state. -/
def ILK_STAT_ABORT : Fld := { blk := .die, pos := 0x70004 * 8 + 2, width := 1, acc := .ro, reset := 0 }

/-- ILK_STAT_BACKSTOP (RO, spec/12_interlocking.md): 1: ISO_N asserted by the backstop (R335). -/
def ILK_STAT_BACKSTOP : Fld := { blk := .die, pos := 0x70004 * 8 + 3, width := 1, acc := .ro, reset := 0 }

/-- ILK_STAT_LIVE (RO, spec/12_interlocking.md): Units of the die not isolated, 0–34. -/
def ILK_STAT_LIVE : Fld := { blk := .die, pos := 0x70004 * 8 + 8, width := 6, acc := .ro, reset := 0 }

/-- ILK_CEIL_GEN_GEN (CNT, spec/12_interlocking.md): Writing a new value commits the staged ceilings (R341). -/
def ILK_CEIL_GEN_GEN : Fld := { blk := .die, pos := 0x70008 * 8 + 0, width := 4, acc := .cnt, reset := 0 }

/-- ILK_CEIL_GEN_LEFT (RO, spec/12_interlocking.md): Changes remaining, 0–16. -/
def ILK_CEIL_GEN_LEFT : Fld := { blk := .die, pos := 0x70008 * 8 + 4, width := 5, acc := .ro, reset := 0x10 }

/-- ILK_CEIL_GEN_REFUSED (W1C, spec/12_interlocking.md): A commit was refused: a unit was neither ISOLATED nor FAULTED, isolated (R341). -/
def ILK_CEIL_GEN_REFUSED : Fld := { blk := .die, pos := 0x70008 * 8 + 9, width := 1, acc := .w1c, reset := 0 }

/-- ILK_HOT_COUNT (RO, spec/12_interlocking.md): Isolations at the deadline beyond U_SAFE_TH, wrapping modulo 2^32. -/
def ILK_HOT_COUNT : Fld := { blk := .die, pos := 0x7000C * 8 + 0, width := 32, acc := .ro, reset := 0 }

/-- STN_PANEL_ILK0 (RO, spec/12_interlocking.md): 1: ILK0 reads closed. -/
def STN_PANEL_ILK0 : Fld := { blk := .stn, pos := 0x1800 * 8 + 0, width := 1, acc := .ro, reset := 0 }

/-- STN_PANEL_ILK1 (RO, spec/12_interlocking.md): 1: ILK1 reads closed. -/
def STN_PANEL_ILK1 : Fld := { blk := .stn, pos := 0x1800 * 8 + 1, width := 1, acc := .ro, reset := 0 }

/-- STN_PANEL_ILK_OK (RO, spec/12_interlocking.md): 1: closing qualified (R322). -/
def STN_PANEL_ILK_OK : Fld := { blk := .stn, pos := 0x1800 * 8 + 2, width := 1, acc := .ro, reset := 0 }

/-- STN_PANEL_DISC (W1C, spec/12_interlocking.md): Discrepancy seen. -/
def STN_PANEL_DISC : Fld := { blk := .stn, pos := 0x1800 * 8 + 3, width := 1, acc := .w1c, reset := 0 }

/-- STN_PANEL_FIX (RO, spec/12_interlocking.md): Bit n: FIXn qualified present. -/
def STN_PANEL_FIX : Fld := { blk := .stn, pos := 0x1800 * 8 + 4, width := 8, acc := .ro, reset := 0 }

/-- STN_PANEL_START (RO, spec/12_interlocking.md): Qualified pressed. -/
def STN_PANEL_START : Fld := { blk := .stn, pos := 0x1800 * 8 + 12, width := 1, acc := .ro, reset := 0 }

/-- STN_PANEL_ABORT (RO, spec/12_interlocking.md): Qualified pressed. -/
def STN_PANEL_ABORT : Fld := { blk := .stn, pos := 0x1800 * 8 + 13, width := 1, acc := .ro, reset := 0 }

/-- STN_PANEL_KEY (RO, spec/12_interlocking.md): Bit n: KEYn qualified pressed. -/
def STN_PANEL_KEY : Fld := { blk := .stn, pos := 0x1800 * 8 + 14, width := 4, acc := .ro, reset := 0 }

/-- STN_KEY_CFG_DEB (RW, spec/12_interlocking.md): Debounce in ms; below 5 acts as 5, above 50 as 50. -/
def STN_KEY_CFG_DEB : Fld := { blk := .stn, pos := 0x1804 * 8 + 0, width := 6, acc := .rw, reset := 0x14 }

/-- STN_KEY_EV_EV (RW, spec/12_interlocking.md): Local event of key k: EV0 k = 0 START, 1 ABORT, 2 KEY0, 3 KEY1; EV1 k = 0 KEY2, 1 KEY3. -/
def STN_KEY_EV_EV : Fld := { blk := .stn, pos := 0x1808 * 8 + 0, width := 6, stride := 8, count := 8, acc := .rw, reset := 0 }

/-- STN_KEY_EV_EN (RW, spec/12_interlocking.md): 1: event raised on a qualified press. -/
def STN_KEY_EV_EN : Fld := { blk := .stn, pos := 0x1808 * 8 + 7, width := 1, stride := 8, count := 8, acc := .rw, reset := 0 }

/-- STN_LAMP_CFG_SRC (RW, spec/12_interlocking.md): Source (R326). -/
def STN_LAMP_CFG_SRC : Fld := { blk := .stn, pos := 0x1810 * 8 + 0, width := 4, stride := 8, count := 4, acc := .rw, reset := 0 }

/-- STN_LAMP_CFG_BLINK (RW, spec/12_interlocking.md): 1: 1 Hz. -/
def STN_LAMP_CFG_BLINK : Fld := { blk := .stn, pos := 0x1810 * 8 + 4, width := 1, stride := 8, count := 4, acc := .rw, reset := 0 }

/-- STN_LAMP_CFG_INV (RW, spec/12_interlocking.md): 1: condition inverted. -/
def STN_LAMP_CFG_INV : Fld := { blk := .stn, pos := 0x1810 * 8 + 5, width := 1, stride := 8, count := 4, acc := .rw, reset := 0 }

/-- STN_LAMP_SW_ON (RW, spec/12_interlocking.md): Bit n: software source of LAMPn. -/
def STN_LAMP_SW_ON : Fld := { blk := .stn, pos := 0x1814 * 8 + 0, width := 4, acc := .rw, reset := 0 }

/-- STN_ILK_CNT_OPENS (RO, spec/12_interlocking.md): Qualified openings that asserted ILK_OPEN (R322), saturating. -/
def STN_ILK_CNT_OPENS : Fld := { blk := .stn, pos := 0x1818 * 8 + 0, width := 16, acc := .ro, reset := 0 }

/-- STN_ILK_CNT_ABORTS (RO, spec/12_interlocking.md): Qualified ABORT presses, saturating. -/
def STN_ILK_CNT_ABORTS : Fld := { blk := .stn, pos := 0x1818 * 8 + 16, width := 16, acc := .ro, reset := 0 }

/-- TH_SUP_CFG_PERIOD (RW, spec/13_thermal.md): Supervisor cadence in ms; 0 acts as 1, above 1,000 as 1,000. -/
def TH_SUP_CFG_PERIOD : Fld := { blk := .die, pos := 0x60000 * 8 + 0, width := 10, acc := .rw, reset := 0xa }

/-- TH_SUP_CFG_COMPP (RW, spec/13_thermal.md): Compensation period in 100 ms units; 0 stops compensation. -/
def TH_SUP_CFG_COMPP : Fld := { blk := .die, pos := 0x60000 * 8 + 16, width := 10, acc := .rw, reset := 0xa }

/-- TH_SUP_STAT_EMERG (RO, spec/13_thermal.md): Bit n: sensor n at emergency cadence. -/
def TH_SUP_STAT_EMERG : Fld := { blk := .die, pos := 0x60004 * 8 + 0, width := 12, acc := .ro, reset := 0 }

/-- TH_SUP_STAT_SHUT (RO, spec/13_thermal.md): 1: thermal shut-down (R353). -/
def TH_SUP_STAT_SHUT : Fld := { blk := .die, pos := 0x60004 * 8 + 12, width := 1, acc := .ro, reset := 0 }

/-- TH_SUP_STAT_NVM_ABANDON (W1C, spec/13_thermal.md): A page program was abandoned above 150 °C. -/
def TH_SUP_STAT_NVM_ABANDON : Fld := { blk := .die, pos := 0x60004 * 8 + 13, width := 1, acc := .w1c, reset := 0 }

/-- TH_LIM_XCHK (RW, spec/13_thermal.md): Cross-check limit in K (R346). -/
def TH_LIM_XCHK : Fld := { blk := .die, pos := 0x60008 * 8 + 0, width := 8, acc := .rw, reset := 0xf }

/-- TH_LIM_SUBM (RW, spec/13_thermal.md): Substitution margin in K (R347). -/
def TH_LIM_SUBM : Fld := { blk := .die, pos := 0x60008 * 8 + 8, width := 8, acc := .rw, reset := 0xa }

/-- TH_LIM_HYST (RW, spec/13_thermal.md): Level hysteresis in K (R348). -/
def TH_LIM_HYST : Fld := { blk := .die, pos := 0x60008 * 8 + 16, width := 8, acc := .rw, reset := 2 }

/-- TH_LIM_SSM (RW, spec/13_thermal.md): Safe-stop margin in ms (R351). -/
def TH_LIM_SSM : Fld := { blk := .die, pos := 0x60008 * 8 + 24, width := 8, acc := .rw, reset := 1 }

/-- TH_PLAUS_LO (RW, spec/13_thermal.md): Lowest possible temperature, 1/64 °C (−60 °C). -/
def TH_PLAUS_LO : Fld := { blk := .die, pos := 0x6000C * 8 + 0, width := 16, acc := .rw, reset := 0xf100 }

/-- TH_PLAUS_HI (RW, spec/13_thermal.md): Highest possible temperature, 1/64 °C (+200 °C). -/
def TH_PLAUS_HI : Fld := { blk := .die, pos := 0x6000C * 8 + 16, width := 16, acc := .rw, reset := 0x3200 }

/-- TH_CMD_SENSOR (RW, spec/13_thermal.md): Sensor to convert, 0–11; 12–15 refused. -/
def TH_CMD_SENSOR : Fld := { blk := .die, pos := 0x60010 * 8 + 0, width := 4, acc := .rw, reset := 0 }

/-- TH_CMD_GO (CMD, spec/13_thermal.md): Write 1: convert (rank 6); read: 1 while pending. -/
def TH_CMD_GO : Fld := { blk := .die, pos := 0x60010 * 8 + 4, width := 1, acc := .cmd, reset := 0 }

/-- TH_CMD_RESULT (RO, spec/13_thermal.md): 0 done, 1 sensor off or invalid, 2 ignored: previous pending. -/
def TH_CMD_RESULT : Fld := { blk := .die, pos := 0x60010 * 8 + 5, width := 2, acc := .ro, reset := 0 }

/-- TH_COMP_CFG_EN (RW, spec/13_thermal.md): 1: compensation tables in use. -/
def TH_COMP_CFG_EN : Fld := { blk := .die, pos := 0x60014 * 8 + 0, width := 1, acc := .rw, reset := 0 }

/-- TH_COMP_CFG_BLOCK (RW, spec/13_thermal.md): Coefficient-SRAM block, 0–95. -/
def TH_COMP_CFG_BLOCK : Fld := { blk := .die, pos := 0x60014 * 8 + 1, width := 7, acc := .rw, reset := 0 }

/-- TH_COMP_CFG_MAXSTEP (RW, spec/13_thermal.md): Largest change per update, ppb. -/
def TH_COMP_CFG_MAXSTEP : Fld := { blk := .die, pos := 0x60014 * 8 + 16, width := 16, acc := .rw, reset := 0x1f4 }

/-- TH_COMP_REF_PPB (RO, spec/13_thermal.md): Applied value, signed ppb; TH_COMP_OSC reads 0 except on the boot die. -/
def TH_COMP_REF_PPB : Fld := { blk := .die, pos := 0x60018 * 8 + 0, width := 32, acc := .ro, reset := 0 }

/-- TH_COMP_OSC_PPB (RO, spec/13_thermal.md): Applied value, signed ppb; TH_COMP_OSC reads 0 except on the boot die. -/
def TH_COMP_OSC_PPB : Fld := { blk := .die, pos := 0x6001C * 8 + 0, width := 32, acc := .ro, reset := 0 }

/-- TH_DIE_T_TEMP (RO, spec/13_thermal.md): T_d, signed 1/64 °C (R354). -/
def TH_DIE_T_TEMP : Fld := { blk := .die, pos := 0x60020 * 8 + 0, width := 16, acc := .ro, reset := 0 }

/-- TH_SCFG_TYPE (RW, spec/13_thermal.md): R343. -/
def TH_SCFG_TYPE : Fld := { blk := .sens, pos := 0x0 * 8 + 0, width := 2, acc := .rw, reset := 0 }

/-- TH_SCFG_GRP (RW, spec/13_thermal.md): Neighbour group. -/
def TH_SCFG_GRP : Fld := { blk := .sens, pos := 0x0 * 8 + 2, width := 3, acc := .rw, reset := 0 }

/-- TH_SPAR_VALUE (RW, spec/13_thermal.md): Diode: SPAR0 [15:0] is IDEAL, unsigned Q2.14, other words reserved. NTC: A, B, C, binary32. -/
def TH_SPAR_VALUE : Fld := { blk := .sens, pos := 0x4 * 8 + 0, width := 32, stride := 32, count := 3, acc := .rw, reset := 0 }

/-- TH_LVL01_WARN (RW, spec/13_thermal.md): Threshold, 1/64 °C. -/
def TH_LVL01_WARN : Fld := { blk := .sens, pos := 0x10 * 8 + 0, width := 16, acc := .rw, reset := 0 }

/-- TH_LVL01_THROTTLE (RW, spec/13_thermal.md): Threshold, 1/64 °C. -/
def TH_LVL01_THROTTLE : Fld := { blk := .sens, pos := 0x10 * 8 + 16, width := 16, acc := .rw, reset := 0 }

/-- TH_LVL23_STOP (RW, spec/13_thermal.md): Threshold, 1/64 °C. -/
def TH_LVL23_STOP : Fld := { blk := .sens, pos := 0x14 * 8 + 0, width := 16, acc := .rw, reset := 0 }

/-- TH_LVL23_SHUT (RW, spec/13_thermal.md): Threshold, 1/64 °C. -/
def TH_LVL23_SHUT : Fld := { blk := .sens, pos := 0x14 * 8 + 16, width := 16, acc := .rw, reset := 0 }

/-- TH_MAP_CH (RW, spec/13_thermal.md): Bit c: channel c mapped (R349). -/
def TH_MAP_CH : Fld := { blk := .sens, pos := 0x18 * 8 + 0, width := 32, acc := .rw, reset := 0 }

/-- TH_FLOOR_F (RW, spec/13_thermal.md): Derating factor at STOP; above 65,536 acts as 65,536. -/
def TH_FLOOR_F : Fld := { blk := .sens, pos := 0x1C * 8 + 0, width := 17, acc := .rw, reset := 0x4000 }

/-- TH_VAL_TEMP (RO, spec/13_thermal.md): Reported value, 1/64 °C. -/
def TH_VAL_TEMP : Fld := { blk := .sens, pos := 0x20 * 8 + 0, width := 16, acc := .ro, reset := 0 }

/-- TH_VAL_SUBST (RO, spec/13_thermal.md): 1: TEMP is a substitute. -/
def TH_VAL_SUBST : Fld := { blk := .sens, pos := 0x20 * 8 + 16, width := 1, acc := .ro, reset := 0 }

/-- TH_VAL_LEVEL (RO, spec/13_thermal.md): 0 normal, 1 WARN, 2 THROTTLE, 3 STOP, 4 SHUT. -/
def TH_VAL_LEVEL : Fld := { blk := .sens, pos := 0x20 * 8 + 17, width := 3, acc := .ro, reset := 0 }

/-- TH_VAL_FAIL (RO, spec/13_thermal.md): Last check failed: 0 none, 1 open, 2 short, 3 impossible, 4 cross-check. -/
def TH_VAL_FAIL : Fld := { blk := .sens, pos := 0x20 * 8 + 20, width := 3, acc := .ro, reset := 0 }

/-- TH_VAL_HEALTHY (RO, spec/13_thermal.md): 1: sensor healthy. -/
def TH_VAL_HEALTHY : Fld := { blk := .sens, pos := 0x20 * 8 + 23, width := 1, acc := .ro, reset := 0 }

/-- TH_VAL_FLOOR (RO, spec/13_thermal.md): 1: floor_held (R347). -/
def TH_VAL_FLOOR : Fld := { blk := .sens, pos := 0x20 * 8 + 24, width := 1, acc := .ro, reset := 0 }

/-- TH_RAW_TEMP (RO, spec/13_thermal.md): Measured value of the last reading, before substitution; 0 when open or short. -/
def TH_RAW_TEMP : Fld := { blk := .sens, pos := 0x24 * 8 + 0, width := 16, acc := .ro, reset := 0 }

/-- TH_RAW_VALID (RO, spec/13_thermal.md): 1: a reading has been made. -/
def TH_RAW_VALID : Fld := { blk := .sens, pos := 0x24 * 8 + 16, width := 1, acc := .ro, reset := 0 }

/-- TH_TIME_TICK (SNAP, spec/13_thermal.md): Line tick count of the last reading's instant. -/
def TH_TIME_TICK : Fld := { blk := .sens, pos := 0x28 * 8 + 0, width := 64, acc := .snap, reset := 0 }

/-- TH_FAILS_COUNT (RO, spec/13_thermal.md): Failed or suspect readings, wrapping modulo 2^32. -/
def TH_FAILS_COUNT : Fld := { blk := .sens, pos := 0x30 * 8 + 0, width := 32, acc := .ro, reset := 0 }

/-- TH_EV_EV (RW, spec/13_thermal.md): Local event raised on entry to WARN. -/
def TH_EV_EV : Fld := { blk := .sens, pos := 0x34 * 8 + 0, width := 6, acc := .rw, reset := 0 }

/-- TH_EV_EN (RW, spec/13_thermal.md): 1: event enabled. -/
def TH_EV_EN : Fld := { blk := .sens, pos := 0x34 * 8 + 6, width := 1, acc := .rw, reset := 0 }

/-- STN_ID_PART (RO, spec/14_startup.md): 0 T64, 1 T128, 2 T192, 3 T256. -/
def STN_ID_PART : Fld := { blk := .stn, pos := 0x0 * 8 + 0, width := 4, acc := .ro, reset := 3 }

/-- STN_ID_REV (RO, spec/14_startup.md): Silicon revision. -/
def STN_ID_REV : Fld := { blk := .stn, pos := 0x0 * 8 + 4, width := 4, acc := .ro, reset := 0 }

/-- STN_ID_FAMILY (RO, spec/14_startup.md): Siras T-series. -/
def STN_ID_FAMILY : Fld := { blk := .stn, pos := 0x0 * 8 + 16, width := 16, acc := .ro, reset := 0x51a5 }

/-- STN_CENSUS_PRESENT (RO, spec/14_startup.md): Bit d: die d present. -/
def STN_CENSUS_PRESENT : Fld := { blk := .stn, pos := 0x4 * 8 + 0, width := 8, acc := .ro, reset := 0xff }

/-- STN_CENSUS_SERVING (RO, spec/14_startup.md): Bit d: die d serving; a present die that is not serving is fenced. -/
def STN_CENSUS_SERVING : Fld := { blk := .stn, pos := 0x4 * 8 + 8, width := 8, acc := .ro, reset := 0 }

/-- STN_CENSUS_BIST_FAIL (RO, spec/14_startup.md): Fenced at boot for self-test failure (R360). -/
def STN_CENSUS_BIST_FAIL : Fld := { blk := .stn, pos := 0x4 * 8 + 16, width := 8, acc := .ro, reset := 0 }

/-- STN_CENSUS_NOANSWER (RO, spec/14_startup.md): Fenced at boot for no answer. -/
def STN_CENSUS_NOANSWER : Fld := { blk := .stn, pos := 0x4 * 8 + 24, width := 8, acc := .ro, reset := 0 }

/-- STN_BOOT_STEP (RO, spec/14_startup.md): Last step begun (R357). -/
def STN_BOOT_STEP : Fld := { blk := .stn, pos := 0x8 * 8 + 0, width := 4, acc := .ro, reset := 1 }

/-- STN_BOOT_HELD_CAUSE (RO, spec/14_startup.md): 0 none, 1 no valid image, 2 relief boot not enabled, 3 boot die self-test, 4 metronome. -/
def STN_BOOT_HELD_CAUSE : Fld := { blk := .stn, pos := 0x8 * 8 + 4, width := 4, acc := .ro, reset := 0 }

/-- STN_BOOT_IMG_SRC (RO, spec/14_startup.md): 0 none, 1 flash A, 2 flash B, 3 memory. -/
def STN_BOOT_IMG_SRC : Fld := { blk := .stn, pos := 0x8 * 8 + 8, width := 2, acc := .ro, reset := 0 }

/-- STN_BOOT_FALLBACK (RO, spec/14_startup.md): 1: the applied image was not the first candidate (R363). -/
def STN_BOOT_FALLBACK : Fld := { blk := .stn, pos := 0x8 * 8 + 10, width := 1, acc := .ro, reset := 0 }

/-- STN_BOOT_STNMODE (RO, spec/14_startup.md): Sampled STNMODE. -/
def STN_BOOT_STNMODE : Fld := { blk := .stn, pos := 0x8 * 8 + 11, width := 1, acc := .ro, reset := 0 }

/-- STN_BOOT_BOOTSEL (RO, spec/14_startup.md): Sampled BOOTSEL. -/
def STN_BOOT_BOOTSEL : Fld := { blk := .stn, pos := 0x8 * 8 + 12, width := 1, acc := .ro, reset := 0 }

/-- STN_BOOT_BOOT_MS (RO, spec/14_startup.md): ms from reset release to leaving BOOTING, saturating. -/
def STN_BOOT_BOOT_MS : Fld := { blk := .stn, pos := 0x8 * 8 + 16, width := 16, acc := .ro, reset := 0 }

/-- STN_IMG_STAT_REASON (RO, spec/14_startup.md): Last refusal (R371). -/
def STN_IMG_STAT_REASON : Fld := { blk := .stn, pos := 0xC * 8 + 0, width := 8, acc := .ro, reset := 0 }

/-- STN_IMG_STAT_SECTION (RO, spec/14_startup.md): Section index of the refusal. -/
def STN_IMG_STAT_SECTION : Fld := { blk := .stn, pos := 0xC * 8 + 8, width := 8, acc := .ro, reset := 0 }

/-- STN_IMG_STAT_SRC (RO, spec/14_startup.md): Source of the refused image. -/
def STN_IMG_STAT_SRC : Fld := { blk := .stn, pos := 0xC * 8 + 16, width := 2, acc := .ro, reset := 0 }

/-- STN_IMGVER_VER (RO, spec/14_startup.md): IMGVER in force; 0 with none. -/
def STN_IMGVER_VER : Fld := { blk := .stn, pos := 0x10 * 8 + 0, width := 32, acc := .ro, reset := 0 }

/-- STN_IMG_LOAD_OP (CMD, spec/14_startup.md): Write 1 memory, 2 flash A, 3 flash B; read: last operation (R373). -/
def STN_IMG_LOAD_OP : Fld := { blk := .stn, pos := 0x14 * 8 + 0, width := 2, acc := .cmd, reset := 0 }

/-- STN_IMG_LOAD_BUSY (RO, spec/14_startup.md): 1: loading. -/
def STN_IMG_LOAD_BUSY : Fld := { blk := .stn, pos := 0x14 * 8 + 2, width := 1, acc := .ro, reset := 0 }

/-- STN_IMG_LOAD_RESULT (RO, spec/14_startup.md): 0 accepted, 1 not HELD, 2 refused under HELD cause 2–4, 3 source outside one aperture. -/
def STN_IMG_LOAD_RESULT : Fld := { blk := .stn, pos := 0x14 * 8 + 4, width := 2, acc := .ro, reset := 0 }

/-- STN_IMG_ADDR_ADDR (RW, spec/14_startup.md): Station address of a memory source, 64-byte aligned; bits [5:0] read 0. -/
def STN_IMG_ADDR_ADDR : Fld := { blk := .stn, pos := 0x18 * 8 + 0, width := 40, acc := .rw, reset := 0 }

/-- STN_IMG_DIGEST_DIGEST (RO, spec/14_startup.md): Image digest; key digest (R366), in force, byte 0 in the lowest byte of the first word. -/
def STN_IMG_DIGEST_DIGEST : Fld := { blk := .stn, pos := 0x80 * 8 + 0, width := 384, acc := .ro, reset := 0 }

/-- STN_KEY_DIGEST_DIGEST (RO, spec/14_startup.md): Image digest; key digest (R366), in force, byte 0 in the lowest byte of the first word. -/
def STN_KEY_DIGEST_DIGEST : Fld := { blk := .stn, pos := 0xB0 * 8 + 0, width := 384, acc := .ro, reset := 0 }

/-- STN_BIND_NUM (CNT, spec/14_startup.md): Bound station number (R379). -/
def STN_BIND_NUM : Fld := { blk := .stn, pos := 0x100 * 8 + 0, width := 12, acc := .cnt, reset := 0 }

/-- STN_BIND_BOUND (CNT, spec/14_startup.md): 1: bound. -/
def STN_BIND_BOUND : Fld := { blk := .stn, pos := 0x100 * 8 + 12, width := 1, acc := .cnt, reset := 0 }

/-- STN_BIND_LEFT (RO, spec/14_startup.md): Changes remaining, 0–8. -/
def STN_BIND_LEFT : Fld := { blk := .stn, pos := 0x100 * 8 + 16, width := 4, acc := .ro, reset := 8 }

/-- STN_RELIEF_EN (CNT, spec/14_startup.md): 1: relief boot enabled (R359); a write while die 1 is fenced is ignored and spends nothing. -/
def STN_RELIEF_EN : Fld := { blk := .stn, pos := 0x104 * 8 + 0, width := 1, acc := .cnt, reset := 0 }

/-- STN_RELIEF_LEFT (RO, spec/14_startup.md): Changes remaining, 0–2. -/
def STN_RELIEF_LEFT : Fld := { blk := .stn, pos := 0x104 * 8 + 1, width := 2, acc := .ro, reset := 2 }

/-- STN_KEYSLOT_STATE (RO, spec/14_startup.md): 2 bits per slot, slot 0 lowest: 0 BLANK, 1 ACTIVE, 2 REVOKED. -/
def STN_KEYSLOT_STATE : Fld := { blk := .stn, pos := 0x108 * 8 + 0, width := 8, acc := .ro, reset := 0 }

/-- STN_KEYSLOT_DIFF (RO, spec/14_startup.md): 1: the head dies' slots differ (R380). -/
def STN_KEYSLOT_DIFF : Fld := { blk := .stn, pos := 0x108 * 8 + 8, width := 1, acc := .ro, reset := 0 }

/-- STN_KEYSLOT_PROV (RO, spec/14_startup.md): 1: some slot is not BLANK. -/
def STN_KEYSLOT_PROV : Fld := { blk := .stn, pos := 0x108 * 8 + 9, width := 1, acc := .ro, reset := 0 }

/-- STN_KEYSLOT_IN_USE (RO, spec/14_startup.md): Slot that verified the image in force. -/
def STN_KEYSLOT_IN_USE : Fld := { blk := .stn, pos := 0x108 * 8 + 10, width := 2, acc := .ro, reset := 0 }

/-- STN_KEYSLOT_UNPROV_IMG (RO, spec/14_startup.md): 1: the image was accepted unprovisioned (R367). -/
def STN_KEYSLOT_UNPROV_IMG : Fld := { blk := .stn, pos := 0x108 * 8 + 12, width := 1, acc := .ro, reset := 0 }

/-- STN_KEY_CMD_OP (CMD, spec/14_startup.md): Write 1 PROGRAM, 2 REVOKE; read: last operation. -/
def STN_KEY_CMD_OP : Fld := { blk := .stn, pos := 0x10C * 8 + 0, width := 2, acc := .cmd, reset := 0 }

/-- STN_KEY_CMD_SLOT (RW, spec/14_startup.md): Slot acted on. -/
def STN_KEY_CMD_SLOT : Fld := { blk := .stn, pos := 0x10C * 8 + 2, width := 2, acc := .rw, reset := 0 }

/-- STN_KEY_CMD_BUSY (RO, spec/14_startup.md): 1: programming. -/
def STN_KEY_CMD_BUSY : Fld := { blk := .stn, pos := 0x10C * 8 + 4, width := 1, acc := .ro, reset := 0 }

/-- STN_KEY_CMD_RESULT (RO, spec/14_startup.md): 0 done, 1 not BLANK, 2 already REVOKED, 3 would leave no usable slot, 4 busy, 5 zero digest. -/
def STN_KEY_CMD_RESULT : Fld := { blk := .stn, pos := 0x10C * 8 + 5, width := 3, acc := .ro, reset := 0 }

/-- STN_XSPI_CMD_OP (CMD, spec/14_startup.md): Write 1 READ (flash to memory), 2 PROGRAM (memory to flash), 3 ERASE; read: last operation. -/
def STN_XSPI_CMD_OP : Fld := { blk := .stn, pos := 0x200 * 8 + 0, width := 2, acc := .cmd, reset := 0 }

/-- STN_XSPI_CMD_HEAD (RW, spec/14_startup.md): Flash of die 0 or die 1. -/
def STN_XSPI_CMD_HEAD : Fld := { blk := .stn, pos := 0x200 * 8 + 2, width := 1, acc := .rw, reset := 0 }

/-- STN_XSPI_CMD_BUSY (RO, spec/14_startup.md): 1: running. -/
def STN_XSPI_CMD_BUSY : Fld := { blk := .stn, pos := 0x200 * 8 + 3, width := 1, acc := .ro, reset := 0 }

/-- STN_XSPI_CMD_RESULT (RO, spec/14_startup.md): 0 done, 1 busy, 2 head die not serving, 3 alignment or range, 4 device error. -/
def STN_XSPI_CMD_RESULT : Fld := { blk := .stn, pos := 0x200 * 8 + 4, width := 3, acc := .ro, reset := 0 }

/-- STN_XSPI_STAT_MODE (RO, spec/14_startup.md): 0 none, 1 1-1-1, 2 1-4-4, 3 8D-8D-8D. -/
def STN_XSPI_STAT_MODE : Fld := { blk := .stn, pos := 0x214 * 8 + 0, width := 2, stride := 16, count := 2, acc := .ro, reset := 0 }

/-- STN_XSPI_STAT_CAP (RO, spec/14_startup.md): log2 of capacity in bytes. -/
def STN_XSPI_STAT_CAP : Fld := { blk := .stn, pos := 0x214 * 8 + 2, width := 6, stride := 16, count := 2, acc := .ro, reset := 0 }

/-- STN_XSPI_STAT_SECT (RO, spec/14_startup.md): log2 of erase sector. -/
def STN_XSPI_STAT_SECT : Fld := { blk := .stn, pos := 0x214 * 8 + 8, width := 5, stride := 16, count := 2, acc := .ro, reset := 0 }

/-- STN_ATT_CMD_GO (CMD, spec/14_startup.md): Write 1: attest (R375). -/
def STN_ATT_CMD_GO : Fld := { blk := .stn, pos := 0x2020 * 8 + 0, width := 1, acc := .cmd, reset := 0 }

/-- STN_ATT_CMD_SIGNER (RW, spec/14_startup.md): 0 boot die, 1 die 0, 2 die 1. -/
def STN_ATT_CMD_SIGNER : Fld := { blk := .stn, pos := 0x2020 * 8 + 1, width := 2, acc := .rw, reset := 0 }

/-- STN_ATT_CMD_BUSY (RO, spec/14_startup.md): 1: report being formed. -/
def STN_ATT_CMD_BUSY : Fld := { blk := .stn, pos := 0x2020 * 8 + 3, width := 1, acc := .ro, reset := 0 }

/-- STN_ATT_CMD_DONE (RO, spec/14_startup.md): 1: report complete. -/
def STN_ATT_CMD_DONE : Fld := { blk := .stn, pos := 0x2020 * 8 + 4, width := 1, acc := .ro, reset := 0 }

/-- STN_ATT_CMD_RESULT (RO, spec/14_startup.md): 0 done, 1 signer not serving, 2 ignored: busy. -/
def STN_ATT_CMD_RESULT : Fld := { blk := .stn, pos := 0x2020 * 8 + 5, width := 2, acc := .ro, reset := 0 }

/-- STN_CERT_LEN_LEN0 (RO, spec/14_startup.md): Bytes of die 0's certificate. -/
def STN_CERT_LEN_LEN0 : Fld := { blk := .stn, pos := 0x2024 * 8 + 0, width := 16, acc := .ro, reset := 0 }

/-- STN_CERT_LEN_LEN1 (RO, spec/14_startup.md): Bytes of die 1's certificate. -/
def STN_CERT_LEN_LEN1 : Fld := { blk := .stn, pos := 0x2024 * 8 + 16, width := 16, acc := .ro, reset := 0 }

/-- STN_AUD_HEAD_SEQ (RO, spec/14_startup.md): SEQ of the last entry written; SEQ to read (R383); entries lost, wrapping modulo 2^32. -/
def STN_AUD_HEAD_SEQ : Fld := { blk := .stn, pos := 0x3000 * 8 + 0, width := 32, acc := .ro, reset := 0 }

/-- STN_AUD_SEL_SEQ (RW, spec/14_startup.md): SEQ of the last entry written; SEQ to read (R383); entries lost, wrapping modulo 2^32. -/
def STN_AUD_SEL_SEQ : Fld := { blk := .stn, pos := 0x3008 * 8 + 0, width := 32, acc := .rw, reset := 0 }

/-- STN_AUD_LOST_COUNT (RO, spec/14_startup.md): SEQ of the last entry written; SEQ to read (R383); entries lost, wrapping modulo 2^32. -/
def STN_AUD_LOST_COUNT : Fld := { blk := .stn, pos := 0x3010 * 8 + 0, width := 32, acc := .ro, reset := 0 }

/-- STN_AUD_STAT_RETAINED (RO, spec/14_startup.md): Entries held, 0–4,096. -/
def STN_AUD_STAT_RETAINED : Fld := { blk := .stn, pos := 0x3004 * 8 + 0, width := 13, acc := .ro, reset := 0 }

/-- STN_AUD_STAT_PENDING (RO, spec/14_startup.md): Entries waiting in the buffer, 0–32. -/
def STN_AUD_STAT_PENDING : Fld := { blk := .stn, pos := 0x3004 * 8 + 13, width := 6, acc := .ro, reset := 0 }

/-- STN_AUD_STAT_LOG_DIE (RO, spec/14_startup.md): Die whose log is written. -/
def STN_AUD_STAT_LOG_DIE : Fld := { blk := .stn, pos := 0x3004 * 8 + 19, width := 1, acc := .ro, reset := 0 }

/-- STN_AUD_NOTE_ARG (WO, spec/14_startup.md): A write queues a NOTE entry with this ARG. -/
def STN_AUD_NOTE_ARG : Fld := { blk := .stn, pos := 0x300C * 8 + 0, width := 20, acc := .wo, reset := 0 }

/-- TW_PORT_CFG_MODE (RW, spec/15_line.md): 0 off, 1 Tweed, 2 Ethernet (ports 0–1; acts as 0 on ports 2–3), 3 acts as 0. -/
def TW_PORT_CFG_MODE : Fld := { blk := .port, pos := 0x0 * 8 + 0, width := 2, acc := .rw, reset := 1 }

/-- TW_PORT_STAT_LINK (RO, spec/15_line.md): 0 DOWN, 1 TRAINING, 2 UP; 3 not used. -/
def TW_PORT_STAT_LINK : Fld := { blk := .port, pos := 0x4 * 8 + 0, width := 2, acc := .ro, reset := 0 }

/-- TW_PORT_STAT_UPSTREAM (RO, spec/15_line.md): 1: upstream port (R403). -/
def TW_PORT_STAT_UPSTREAM : Fld := { blk := .port, pos := 0x4 * 8 + 2, width := 1, acc := .ro, reset := 0 }

/-- TW_PORT_STAT_DOWNED (W1C, spec/15_line.md): The port went DOWN. -/
def TW_PORT_STAT_DOWNED : Fld := { blk := .port, pos := 0x4 * 8 + 3, width := 1, acc := .w1c, reset := 0 }

/-- TW_PORT_STAT_SYNC_OK (RO, spec/15_line.md): 1: SYNC received in the last 100 µs. -/
def TW_PORT_STAT_SYNC_OK : Fld := { blk := .port, pos := 0x4 * 8 + 4, width := 1, acc := .ro, reset := 0 }

/-- TW_PORT_DELAY_DELAY (RO, spec/15_line.md): Link delay in sub-ticks (R403); bits [31:24] reserved. -/
def TW_PORT_DELAY_DELAY : Fld := { blk := .port, pos := 0x8 * 8 + 0, width := 24, acc := .ro, reset := 0 }

/-- TW_PORT_ASYM_ASYM (RW, spec/15_line.md): Signed asymmetry correction, sub-ticks; bits [31:16] reserved. -/
def TW_PORT_ASYM_ASYM : Fld := { blk := .port, pos := 0xC * 8 + 0, width := 16, acc := .rw, reset := 0 }

/-- TW_PORT_ERR_COUNT (RO, spec/15_line.md): Dropped frames (R386, R387); resend passes (R391); lost CTRL frames (R392); DOWN transitions; each wrapping modulo 2^32. -/
def TW_PORT_ERR_COUNT : Fld := { blk := .port, pos := 0x10 * 8 + 0, width := 32, acc := .ro, reset := 0 }

/-- TW_PORT_RETRY_COUNT (RO, spec/15_line.md): Dropped frames (R386, R387); resend passes (R391); lost CTRL frames (R392); DOWN transitions; each wrapping modulo 2^32. -/
def TW_PORT_RETRY_COUNT : Fld := { blk := .port, pos := 0x14 * 8 + 0, width := 32, acc := .ro, reset := 0 }

/-- TW_PORT_CTRL_LOST_COUNT (RO, spec/15_line.md): Dropped frames (R386, R387); resend passes (R391); lost CTRL frames (R392); DOWN transitions; each wrapping modulo 2^32. -/
def TW_PORT_CTRL_LOST_COUNT : Fld := { blk := .port, pos := 0x18 * 8 + 0, width := 32, acc := .ro, reset := 0 }

/-- TW_PORT_DOWNS_COUNT (RO, spec/15_line.md): Dropped frames (R386, R387); resend passes (R391); lost CTRL frames (R392); DOWN transitions; each wrapping modulo 2^32. -/
def TW_PORT_DOWNS_COUNT : Fld := { blk := .port, pos := 0x1C * 8 + 0, width := 32, acc := .ro, reset := 0 }

/-- TW_LINE_CFG_EN (RW, spec/15_line.md): 1: Line configured (R396). -/
def TW_LINE_CFG_EN : Fld := { blk := .stn, pos := 0x8100 * 8 + 0, width := 1, acc := .rw, reset := 0 }

/-- TW_LINE_CFG_MASTER (RW, spec/15_line.md): 1: Line master candidate (R399). -/
def TW_LINE_CFG_MASTER : Fld := { blk := .stn, pos := 0x8100 * 8 + 1, width := 1, acc := .rw, reset := 0 }

/-- TW_LINE_CFG_LEARN (RW, spec/15_line.md): 1: routing learned from ASSIGN (R400). -/
def TW_LINE_CFG_LEARN : Fld := { blk := .stn, pos := 0x8100 * 8 + 2, width := 1, acc := .rw, reset := 0 }

/-- TW_LINE_CFG_LINE_LAT (RW, spec/15_line.md): µs, 1–255; 0 acts as 1 (R408). -/
def TW_LINE_CFG_LINE_LAT : Fld := { blk := .stn, pos := 0x8100 * 8 + 8, width := 8, acc := .rw, reset := 8 }

/-- TW_LINE_CFG_ENUM_BASE (RW, spec/15_line.md): First number the master assigns. -/
def TW_LINE_CFG_ENUM_BASE : Fld := { blk := .stn, pos := 0x8100 * 8 + 16, width := 12, acc := .rw, reset := 0 }

/-- TW_LINE_STAT_NUM (RO, spec/15_line.md): Station number in force (R398). -/
def TW_LINE_STAT_NUM : Fld := { blk := .stn, pos := 0x8104 * 8 + 0, width := 12, acc := .ro, reset := 0 }

/-- TW_LINE_STAT_NUM_VALID (RO, spec/15_line.md): 1: NUM valid. -/
def TW_LINE_STAT_NUM_VALID : Fld := { blk := .stn, pos := 0x8104 * 8 + 12, width := 1, acc := .ro, reset := 0 }

/-- TW_LINE_STAT_ANNOUNCED (RO, spec/15_line.md): 1: announced. -/
def TW_LINE_STAT_ANNOUNCED : Fld := { blk := .stn, pos := 0x8104 * 8 + 13, width := 1, acc := .ro, reset := 0 }

/-- TW_LINE_STAT_LOCKED (RO, spec/15_line.md): 1: locked to Line time (R404). -/
def TW_LINE_STAT_LOCKED : Fld := { blk := .stn, pos := 0x8104 * 8 + 14, width := 1, acc := .ro, reset := 0 }

/-- TW_LINE_STAT_IS_MASTER (RO, spec/15_line.md): 1: this station is Line master. -/
def TW_LINE_STAT_IS_MASTER : Fld := { blk := .stn, pos := 0x8104 * 8 + 15, width := 1, acc := .ro, reset := 0 }

/-- TW_LINE_STAT_MASTER (RO, spec/15_line.md): Line master's number. -/
def TW_LINE_STAT_MASTER : Fld := { blk := .stn, pos := 0x8104 * 8 + 16, width := 12, acc := .ro, reset := 0 }

/-- TW_LINE_STAT_DUP (W1C, spec/15_line.md): A DUP ASSIGN was received. -/
def TW_LINE_STAT_DUP : Fld := { blk := .stn, pos := 0x8104 * 8 + 28, width := 1, acc := .w1c, reset := 0 }

/-- TW_LINE_STAT_LOCK_LOST (W1C, spec/15_line.md): Line time was lost (R406). -/
def TW_LINE_STAT_LOCK_LOST : Fld := { blk := .stn, pos := 0x8104 * 8 + 29, width := 1, acc := .w1c, reset := 0 }

/-- TW_LINE_STAT_STEPPED (W1C, spec/15_line.md): The count was stepped (R404). -/
def TW_LINE_STAT_STEPPED : Fld := { blk := .stn, pos := 0x8104 * 8 + 30, width := 1, acc := .w1c, reset := 0 }

/-- TW_LINE_LAT_TICKS (RO, spec/15_line.md): LINE_LAT in force, metronome ticks. -/
def TW_LINE_LAT_TICKS : Fld := { blk := .stn, pos := 0x8108 * 8 + 0, width := 16, acc := .ro, reset := 0x7af }

/-- TW_TIME_OFS_E (RO, spec/15_line.md): Signed offset e at the last upstream SYNC, in sub-ticks, saturating. -/
def TW_TIME_OFS_E : Fld := { blk := .stn, pos := 0x810C * 8 + 0, width := 32, acc := .ro, reset := 0 }

/-- TW_SERIAL_SERIAL (RO, spec/15_line.md): Station serial used in ANNOUNCE. -/
def TW_SERIAL_SERIAL : Fld := { blk := .stn, pos := 0x8110 * 8 + 0, width := 64, acc := .ro, reset := 0 }

/-- TW_LINE_TIME_TICK (SNAP, spec/15_line.md): Line tick count. -/
def TW_LINE_TIME_TICK : Fld := { blk := .stn, pos := 0x8118 * 8 + 0, width := 64, acc := .snap, reset := 0 }

/-- TW_LINE_TIME_PHASE (SNAP, spec/15_line.md): Sub-tick phase. -/
def TW_LINE_TIME_PHASE : Fld := { blk := .stn, pos := 0x8118 * 8 + 64, width := 8, acc := .snap, reset := 0 }

/-- TW_LOST_CNT_COUNT (RO, spec/15_line.md): Station numbers reported LOST, wrapping modulo 2^32. -/
def TW_LOST_CNT_COUNT : Fld := { blk := .stn, pos := 0x8124 * 8 + 0, width := 32, acc := .ro, reset := 0 }

/-- TW_MCAST_PORTS (RW, spec/15_line.md): Bit p: forward on port p (R395). -/
def TW_MCAST_PORTS : Fld := { blk := .stn, pos := 0x8200 * 8 + 0, width := 4, stride := 32, count := 64, acc := .rw, reset := 0 }

/-- TW_MCAST_LOCAL (RW, spec/15_line.md): TW_MCASTg only: 1: deliver locally; reserved in TW_BCAST. -/
def TW_MCAST_LOCAL : Fld := { blk := .stn, pos := 0x8200 * 8 + 4, width := 1, stride := 32, count := 64, acc := .rw, reset := 0 }

/-- TW_BCAST_PORTS (RW, spec/15_line.md): Bit p: forward on port p (R395). -/
def TW_BCAST_PORTS : Fld := { blk := .stn, pos := 0x8300 * 8 + 0, width := 4, acc := .rw, reset := 0xf }

/-- TW_ROUTE_PORT (RW, spec/15_line.md): Port toward station 16w + j, j = 0–15 (R394). -/
def TW_ROUTE_PORT : Fld := { blk := .stn, pos := 0x9000 * 8 + 0, width := 2, stride := 2, count := 4096, acc := .rw, reset := 0 }

/-- SPI_ERR_COUNT (RO, spec/15_line.md): Frames ignored (R415), wrapping modulo 2^32. -/
def SPI_ERR_COUNT : Fld := { blk := .stn, pos := 0xB000 * 8 + 0, width := 32, acc := .ro, reset := 0 }

/-- SPI_ATTN_EN_EN (RW, spec/15_line.md): SPI_ATTN_EN: bit i enables source i (R416). -/
def SPI_ATTN_EN_EN : Fld := { blk := .stn, pos := 0xB010 * 8 + 0, width := 5, acc := .rw, reset := 1 }

/-- SPI_ATTN_SRC_QUEUE (RO, spec/15_line.md): SPI_ATTN_SRC: queue condition. -/
def SPI_ATTN_SRC_QUEUE : Fld := { blk := .stn, pos := 0xB014 * 8 + 0, width := 1, acc := .ro, reset := 0 }

/-- SPI_ATTN_SRC_EVS (W1C, spec/15_line.md): SPI_ATTN_SRC: sources 1–3. -/
def SPI_ATTN_SRC_EVS : Fld := { blk := .stn, pos := 0xB014 * 8 + 1, width := 3, acc := .w1c, reset := 0 }

/-- SPI_ATTN_SRC_SW (RW, spec/15_line.md): SPI_ATTN_SRC: software source. -/
def SPI_ATTN_SRC_SW : Fld := { blk := .stn, pos := 0xB014 * 8 + 4, width := 1, acc := .rw, reset := 0 }

/-- CAL_SET_WORD (RO, spec/11_sidings.md): Word of the correction set in force (R293). -/
def CAL_SET_WORD : Fld := { blk := .cset, pos := 0x0 * 8 + 0, width := 32, stride := 32, count := 196, acc := .ro, reset := 0 }

/-- STN_KEY_STAGE_DIGEST (RW, spec/14_startup.md): Staged key digest, byte 0 lowest. -/
def STN_KEY_STAGE_DIGEST : Fld := { blk := .stn, pos := 0x110 * 8 + 0, width := 384, acc := .rw, reset := 0 }

/-- STN_KEY_SLOTD_DIGEST (RO, spec/14_startup.md): Digest of slot s. -/
def STN_KEY_SLOTD_DIGEST : Fld := { blk := .stn, pos := 0x140 * 8 + 0, width := 384, stride := 384, count := 4, acc := .ro, reset := 0 }

/-- STN_XSPI_FADDR_ADDR (RW, spec/14_startup.md): Flash address. -/
def STN_XSPI_FADDR_ADDR : Fld := { blk := .stn, pos := 0x204 * 8 + 0, width := 32, acc := .rw, reset := 0 }

/-- STN_XSPI_MADDR_ADDR (RW, spec/14_startup.md): Station address. -/
def STN_XSPI_MADDR_ADDR : Fld := { blk := .stn, pos := 0x208 * 8 + 0, width := 40, acc := .rw, reset := 0 }

/-- STN_XSPI_LEN_LEN (RW, spec/14_startup.md): Length in bytes. -/
def STN_XSPI_LEN_LEN : Fld := { blk := .stn, pos := 0x210 * 8 + 0, width := 32, acc := .rw, reset := 0 }

/-- STN_ATT_NONCE_WORD (RW, spec/14_startup.md): Nonce bytes, byte 0 lowest. -/
def STN_ATT_NONCE_WORD : Fld := { blk := .stn, pos := 0x2000 * 8 + 0, width := 32, stride := 32, count := 8, acc := .rw, reset := 0 }

/-- STN_ATT_REP_WORD (RO, spec/14_startup.md): Attestation report (R376). -/
def STN_ATT_REP_WORD : Fld := { blk := .stn, pos := 0x2100 * 8 + 0, width := 32, stride := 32, count := 208, acc := .ro, reset := 0 }

/-- STN_CERT0_WORD (RO, spec/14_startup.md): Certificate of die 0, DER. -/
def STN_CERT0_WORD : Fld := { blk := .stn, pos := 0x2800 * 8 + 0, width := 32, stride := 32, count := 256, acc := .ro, reset := 0 }

/-- STN_CERT1_WORD (RO, spec/14_startup.md): Certificate of die 1, DER. -/
def STN_CERT1_WORD : Fld := { blk := .stn, pos := 0x2C00 * 8 + 0, width := 32, stride := 32, count := 256, acc := .ro, reset := 0 }

/-- STN_AUD_HASH_CHAIN (RO, spec/14_startup.md): CHAIN of the last entry. -/
def STN_AUD_HASH_CHAIN : Fld := { blk := .stn, pos := 0x3040 * 8 + 0, width := 384, acc := .ro, reset := 0 }

/-- STN_AUD_DATA_WORD (SNAP, spec/14_startup.md): Entry named by STN_AUD_SEL (R383). -/
def STN_AUD_DATA_WORD : Fld := { blk := .stn, pos := 0x3080 * 8 + 0, width := 32, stride := 32, count := 16, acc := .snap, reset := 0 }

/-- ETH_MAC_MAC (RW, spec/15_line.md): MAC address. -/
def ETH_MAC_MAC : Fld := { blk := .eth, pos := 0x0 * 8 + 0, width := 48, acc := .rw, reset := 0 }

/-- ETH_IP_ADDR (RW, spec/15_line.md): IPv4 address. -/
def ETH_IP_ADDR : Fld := { blk := .eth, pos := 0x8 * 8 + 0, width := 32, acc := .rw, reset := 0 }

/-- ETH_MASK_MASK (RW, spec/15_line.md): Subnet mask. -/
def ETH_MASK_MASK : Fld := { blk := .eth, pos := 0xC * 8 + 0, width := 32, acc := .rw, reset := 0 }

/-- ETH_GW_GW (RW, spec/15_line.md): Gateway. -/
def ETH_GW_GW : Fld := { blk := .eth, pos := 0x10 * 8 + 0, width := 32, acc := .rw, reset := 0 }

/-- ETH_VLAN_VID (RW, spec/15_line.md): 802.1Q VID. -/
def ETH_VLAN_VID : Fld := { blk := .eth, pos := 0x14 * 8 + 0, width := 12, acc := .rw, reset := 0 }

/-- ETH_VLAN_PCP (RW, spec/15_line.md): 802.1Q PCP. -/
def ETH_VLAN_PCP : Fld := { blk := .eth, pos := 0x14 * 8 + 12, width := 3, acc := .rw, reset := 0 }

/-- ETH_VLAN_EN (RW, spec/15_line.md): 802.1Q tag enable. -/
def ETH_VLAN_EN : Fld := { blk := .eth, pos := 0x14 * 8 + 15, width := 1, acc := .rw, reset := 0 }

/-- ETH_UDP_PORT (RW, spec/15_line.md): Datagram protocol port. -/
def ETH_UDP_PORT : Fld := { blk := .eth, pos := 0x18 * 8 + 0, width := 16, acc := .rw, reset := 0xa384 }

/-- ETH_PTP_EN (RW, spec/15_line.md): PTP enable (R413). -/
def ETH_PTP_EN : Fld := { blk := .eth, pos := 0x1C * 8 + 0, width := 1, acc := .rw, reset := 0 }

/-- ETH_PTP_DOMAIN (RW, spec/15_line.md): PTP domain. -/
def ETH_PTP_DOMAIN : Fld := { blk := .eth, pos := 0x1C * 8 + 8, width := 8, acc := .rw, reset := 0 }

/-- ETH_PTP_LOCK (RO, spec/15_line.md): PTP lock. -/
def ETH_PTP_LOCK : Fld := { blk := .eth, pos := 0x1C * 8 + 16, width := 1, acc := .ro, reset := 0 }

/-- ETH_PTP_EPOCH_SEC (RW, spec/15_line.md): PTP seconds at Line tick count 0. -/
def ETH_PTP_EPOCH_SEC : Fld := { blk := .eth, pos := 0x20 * 8 + 0, width := 48, acc := .rw, reset := 0 }

/-- ETH_PTP_OFS_NS (RO, spec/15_line.md): Signed offset from the PTP master, ns. -/
def ETH_PTP_OFS_NS : Fld := { blk := .eth, pos := 0x28 * 8 + 0, width := 32, acc := .ro, reset := 0 }

/-- ETH_STAT_BLOCK_LOCK (RO, spec/15_line.md): Block lock. -/
def ETH_STAT_BLOCK_LOCK : Fld := { blk := .eth, pos := 0x2C * 8 + 0, width := 1, acc := .ro, reset := 0 }

/-- ETH_STAT_SESS (RO, spec/15_line.md): Bit s: session s open. -/
def ETH_STAT_SESS : Fld := { blk := .eth, pos := 0x2C * 8 + 1, width := 4, acc := .ro, reset := 0 }

/-- ETH_RX_COUNT (RO, spec/15_line.md): Frames received. -/
def ETH_RX_COUNT : Fld := { blk := .eth, pos := 0x30 * 8 + 0, width := 32, acc := .ro, reset := 0 }

/-- ETH_DROP_COUNT (RO, spec/15_line.md): Frames dropped. -/
def ETH_DROP_COUNT : Fld := { blk := .eth, pos := 0x34 * 8 + 0, width := 32, acc := .ro, reset := 0 }

/-- ETH_TX_COUNT (RO, spec/15_line.md): Frames sent. -/
def ETH_TX_COUNT : Fld := { blk := .eth, pos := 0x38 * 8 + 0, width := 32, acc := .ro, reset := 0 }

/-- Fields of the block `stn`, part 0. -/
def fields_stn_0 : List Fld :=
  [STN_METRO_CTRL_SRC, STN_METRO_STAT_ACT_SRC, STN_METRO_STAT_LOCK, STN_METRO_STAT_REFF, STN_METRO_STAT_REF_OK, STN_METRO_STAT_HOLDOVER, STN_METRO_STAT_REF_LOST, STN_METRO_STAT_SWITCHED, STN_METRO_STAT_SWITCH_COUNT, STN_STATE_STATE, STN_STATE_DARK_B, STN_STATE_ILK_OPEN]

/-- Fields of the block `stn`, part 1. -/
def fields_stn_1 : List Fld :=
  [STN_STATE_RELIEF, STN_EV_DUE_TICK, STN_EV_RAISE_EV, STN_EV_RAISE_NOW, STN_EV_RAISE_GO, STN_EV_RAISE_RESULT, STN_EV_LATE_COUNT, STN_EV_OVF_COUNT, STN_EV_STAT_LATE_EV, STN_EV_STAT_PENDING, STN_EV_STAT_DARK_CNT, STN_LEV_MASK_EN]

/-- Fields of the block `stn`, part 2. -/
def fields_stn_2 : List Fld :=
  [STN_EV_SEEN_SEEN, STN_TRIG_CFG_DIR, STN_TRIG_CFG_EDGE, STN_TRIG_CFG_EV, STN_TRIG_CFG_FILT, STN_TRIG_CFG_WIDTH, STN_TRIG_STAT_LEVEL, STN_TRIG_STAT_EDGES, STN_PANEL_ILK0, STN_PANEL_ILK1, STN_PANEL_ILK_OK, STN_PANEL_DISC]

/-- Fields of the block `stn`, part 3. -/
def fields_stn_3 : List Fld :=
  [STN_PANEL_FIX, STN_PANEL_START, STN_PANEL_ABORT, STN_PANEL_KEY, STN_KEY_CFG_DEB, STN_KEY_EV_EV, STN_KEY_EV_EN, STN_LAMP_CFG_SRC, STN_LAMP_CFG_BLINK, STN_LAMP_CFG_INV, STN_LAMP_SW_ON, STN_ILK_CNT_OPENS]

/-- Fields of the block `stn`, part 4. -/
def fields_stn_4 : List Fld :=
  [STN_ILK_CNT_ABORTS, STN_ID_PART, STN_ID_REV, STN_ID_FAMILY, STN_CENSUS_PRESENT, STN_CENSUS_SERVING, STN_CENSUS_BIST_FAIL, STN_CENSUS_NOANSWER, STN_BOOT_STEP, STN_BOOT_HELD_CAUSE, STN_BOOT_IMG_SRC, STN_BOOT_FALLBACK]

/-- Fields of the block `stn`, part 5. -/
def fields_stn_5 : List Fld :=
  [STN_BOOT_STNMODE, STN_BOOT_BOOTSEL, STN_BOOT_BOOT_MS, STN_IMG_STAT_REASON, STN_IMG_STAT_SECTION, STN_IMG_STAT_SRC, STN_IMGVER_VER, STN_IMG_LOAD_OP, STN_IMG_LOAD_BUSY, STN_IMG_LOAD_RESULT, STN_IMG_ADDR_ADDR, STN_IMG_DIGEST_DIGEST]

/-- Fields of the block `stn`, part 6. -/
def fields_stn_6 : List Fld :=
  [STN_KEY_DIGEST_DIGEST, STN_BIND_NUM, STN_BIND_BOUND, STN_BIND_LEFT, STN_RELIEF_EN, STN_RELIEF_LEFT, STN_KEYSLOT_STATE, STN_KEYSLOT_DIFF, STN_KEYSLOT_PROV, STN_KEYSLOT_IN_USE, STN_KEYSLOT_UNPROV_IMG, STN_KEY_CMD_OP]

/-- Fields of the block `stn`, part 7. -/
def fields_stn_7 : List Fld :=
  [STN_KEY_CMD_SLOT, STN_KEY_CMD_BUSY, STN_KEY_CMD_RESULT, STN_XSPI_CMD_OP, STN_XSPI_CMD_HEAD, STN_XSPI_CMD_BUSY, STN_XSPI_CMD_RESULT, STN_XSPI_STAT_MODE, STN_XSPI_STAT_CAP, STN_XSPI_STAT_SECT, STN_ATT_CMD_GO, STN_ATT_CMD_SIGNER]

/-- Fields of the block `stn`, part 8. -/
def fields_stn_8 : List Fld :=
  [STN_ATT_CMD_BUSY, STN_ATT_CMD_DONE, STN_ATT_CMD_RESULT, STN_CERT_LEN_LEN0, STN_CERT_LEN_LEN1, STN_AUD_HEAD_SEQ, STN_AUD_SEL_SEQ, STN_AUD_LOST_COUNT, STN_AUD_STAT_RETAINED, STN_AUD_STAT_PENDING, STN_AUD_STAT_LOG_DIE, STN_AUD_NOTE_ARG]

/-- Fields of the block `stn`, part 9. -/
def fields_stn_9 : List Fld :=
  [TW_LINE_CFG_EN, TW_LINE_CFG_MASTER, TW_LINE_CFG_LEARN, TW_LINE_CFG_LINE_LAT, TW_LINE_CFG_ENUM_BASE, TW_LINE_STAT_NUM, TW_LINE_STAT_NUM_VALID, TW_LINE_STAT_ANNOUNCED, TW_LINE_STAT_LOCKED, TW_LINE_STAT_IS_MASTER, TW_LINE_STAT_MASTER, TW_LINE_STAT_DUP]

/-- Fields of the block `stn`, part 10. -/
def fields_stn_10 : List Fld :=
  [TW_LINE_STAT_LOCK_LOST, TW_LINE_STAT_STEPPED, TW_LINE_LAT_TICKS, TW_TIME_OFS_E, TW_SERIAL_SERIAL, TW_LINE_TIME_TICK, TW_LINE_TIME_PHASE, TW_LOST_CNT_COUNT, TW_MCAST_PORTS, TW_MCAST_LOCAL, TW_BCAST_PORTS, TW_ROUTE_PORT]

/-- Fields of the block `stn`, part 11. -/
def fields_stn_11 : List Fld :=
  [SPI_ERR_COUNT, SPI_ATTN_EN_EN, SPI_ATTN_SRC_QUEUE, SPI_ATTN_SRC_EVS, SPI_ATTN_SRC_SW, STN_KEY_STAGE_DIGEST, STN_KEY_SLOTD_DIGEST, STN_XSPI_FADDR_ADDR, STN_XSPI_MADDR_ADDR, STN_XSPI_LEN_LEN, STN_ATT_NONCE_WORD, STN_ATT_REP_WORD]

/-- Fields of the block `stn`, part 12. -/
def fields_stn_12 : List Fld :=
  [STN_CERT0_WORD, STN_CERT1_WORD, STN_AUD_HASH_CHAIN, STN_AUD_DATA_WORD]

/-- Every field of the block `stn`. -/
def fields_stn : List Fld :=
  fields_stn_0 ++ fields_stn_1 ++ fields_stn_2 ++ fields_stn_3 ++ fields_stn_4 ++ fields_stn_5 ++ fields_stn_6 ++ fields_stn_7 ++ fields_stn_8 ++ fields_stn_9 ++ fields_stn_10 ++ fields_stn_11 ++ fields_stn_12

/-- Fields of the block `die`, part 0. -/
def fields_die_0 : List Fld :=
  [DIE_SPEC_CNT_COUNT, DIE_SPEC_BLOCK_COUNT, DIE_TOKEN_LATE_COUNT, DIE_SNAP_STAT_HELD, DIE_SNAP_STAT_WAITING, DIE_SNAP_MISS_COUNT, DIE_FAULT_SUM_UNITS, DIE_AUX_STAT_BUSY, DIE_AUX_STAT_PENDING, DIE_AUX_WMAX_TICKS, DIE_PB_CFG_DIV, DIE_PB_STAT_BUSY]

/-- Fields of the block `die`, part 1. -/
def fields_die_1 : List Fld :=
  [DIE_PB_STAT_OWNER_CH, DIE_PB_STAT_ERR, DIE_PB_STAT_ERR_CH, DIE_PB_ERR_COUNT, DIE_REC_DISC_COUNT, DIE_ERR_COUNT_COUNT, DIE_ERR_ENTRY_TICK, DIE_ERR_ENTRY_SRC, DIE_ERR_ENTRY_INDEX, DIE_ERR_ENTRY_DETAIL, DDR_CFG_SPEED, DDR_CFG_WIDTH]

/-- Fields of the block `die`, part 2. -/
def fields_die_2 : List Fld :=
  [DDR_CFG_RANKS, DDR_CFG_DENS, DDR_CMD_TRAIN, DDR_STAT_TRAINED, DDR_STAT_BUSY, DDR_STAT_RESULT, DDR_CAP_MIB, DDR_ECC_CE_COUNT, DDR_ECC_UE_COUNT, DDR_ECC_ADDR_ADDR, DDR_SCRUB_PERIOD, CAL_ROTA_CFG_EN]

/-- Fields of the block `die`, part 3. -/
def fields_die_3 : List Fld :=
  [CAL_ROTA_CFG_SIDS, CAL_ROTA_CFG_KINDS, CAL_ROTA_CFG_SIDCAL, CAL_ROTA_CFG_PERIOD, CAL_ROTA_MASK_CH, CAL_TKO_SHADOW_MIN, CAL_TKO_WAIT, CAL_TKO_TOL_CODE, CAL_CMD_OP, CAL_CMD_CH, CAL_CMD_SID, CAL_CMD_FORCE]

/-- Fields of the block `die`, part 4. -/
def fields_die_4 : List Fld :=
  [CAL_CMD_PT, CAL_CMD_BUSY, CAL_CMD_RESULT, CAL_LAST_CH, CAL_LAST_OUTCOME, CAL_LAST_REASON, CAL_LAST_TIME_TICK, CAL_CNT_COUNT, CAL_TOL_REF, CAL_TOL_TEMP, CAL_WIN_OFF, CAL_WIN_GAIN]

/-- Fields of the block `die`, part 5. -/
def fields_die_5 : List Fld :=
  [CAL_WIN_LIN, CAL_WIN_DRV, CAL_AREFX_UV, CAL_SID_CH, CAL_SID_PHASE, CAL_SID_STANDIN, CAL_SID_HEALTHY, CAL_STORE_CFG_HOURS, CAL_NVM_STAT_ACTIVE, CAL_NVM_STAT_A_VALID, CAL_NVM_STAT_B_VALID, CAL_NVM_STAT_F_VALID]

/-- Fields of the block `die`, part 6. -/
def fields_die_6 : List Fld :=
  [CAL_NVM_STAT_STORING, CAL_NVM_STAT_STORE_FAIL, CAL_NVM_STAT_INCOMPLETE, CAL_NVM_STAT_F_LEFT, CAL_NVM_SEQ_SEQ, CAL_NVM_CYC_COUNT, CAL_EXT_CFG_CH, CAL_EXT_CFG_QTY, CAL_EXT_CFG_RNG, CAL_EXT_CFG_FACTORY, CAL_EXT_CFG_CALF_EN, CAL_EXT_STD_VALUE]

/-- Fields of the block `die`, part 7. -/
def fields_die_7 : List Fld :=
  [CAL_EXT_TRUE_VALUE, ILK_CFG_TSAFE, ILK_CFG_ISO_SETTLE, ILK_STAT_ISO_REL, ILK_STAT_ILK_OPEN, ILK_STAT_ABORT, ILK_STAT_BACKSTOP, ILK_STAT_LIVE, ILK_CEIL_GEN_GEN, ILK_CEIL_GEN_LEFT, ILK_CEIL_GEN_REFUSED, ILK_HOT_COUNT]

/-- Fields of the block `die`, part 8. -/
def fields_die_8 : List Fld :=
  [TH_SUP_CFG_PERIOD, TH_SUP_CFG_COMPP, TH_SUP_STAT_EMERG, TH_SUP_STAT_SHUT, TH_SUP_STAT_NVM_ABANDON, TH_LIM_XCHK, TH_LIM_SUBM, TH_LIM_HYST, TH_LIM_SSM, TH_PLAUS_LO, TH_PLAUS_HI, TH_CMD_SENSOR]

/-- Fields of the block `die`, part 9. -/
def fields_die_9 : List Fld :=
  [TH_CMD_GO, TH_CMD_RESULT, TH_COMP_CFG_EN, TH_COMP_CFG_BLOCK, TH_COMP_CFG_MAXSTEP, TH_COMP_REF_PPB, TH_COMP_OSC_PPB, TH_DIE_T_TEMP]

/-- Every field of the block `die`. -/
def fields_die : List Fld :=
  fields_die_0 ++ fields_die_1 ++ fields_die_2 ++ fields_die_3 ++ fields_die_4 ++ fields_die_5 ++ fields_die_6 ++ fields_die_7 ++ fields_die_8 ++ fields_die_9

/-- Fields of the block `unit`, part 0. -/
def fields_unit_0 : List Fld :=
  [U_ID_UNIT, U_ID_KIND, U_ID_DIE, U_ID_CHAN, U_ID_FLOAT, U_STATE_STATE, U_STATE_LOOP, U_STATE_COMPLIANCE, U_STATE_WIN, U_STATE_SIDED_BY, U_STATE_COUPLED, U_FLAGS_COEF_LOCKED]

/-- Fields of the block `unit`, part 1. -/
def fields_unit_1 : List Fld :=
  [U_FLAGS_CEIL, U_FLAGS_COUPLED_WR, U_FLAGS_FAULT, U_MEMBER_OF_CONSIST, U_MEMBER_OF_STN, U_MEMBER_OF_FOLLOWER, U_MEMBER_OF_VALID, U_MEMBER_OF_INDEX, U_CONSIST_CFG_TYPE, U_CONSIST_CFG_DEPART, U_CONSIST_CFG_OUT_DIV, U_CONSIST_CFG_LOST_N]

/-- Fields of the block `unit`, part 2. -/
def fields_unit_2 : List Fld :=
  [U_COUPLE_OP, U_COUPLE_BUSY, U_COUPLE_RESULT, U_MEMBER_UNIT, U_MEMBER_STN, U_MEMBER_REMOTE, U_MEMBER_VALID, U_MEMBER_WEIGHT, U_CONSIST_STAT_COUPLED, U_CONSIST_STAT_DEPTH, U_CONSIST_STAT_DEPARTED, U_CONSIST_STAT_REMOTE]

/-- Fields of the block `unit`, part 3. -/
def fields_unit_3 : List Fld :=
  [U_CONSIST_STAT_W, U_FOLLOW_LATE_COUNT, U_MODE_MODE, U_MODE_LAW, U_MODE_OLSRC, U_MODE_POL, U_REF_PUSH_VALUE, U_REF_TARGET_CODE, U_REF_SLEWED_CODE, U_REF_STAT_LEVEL, U_REF_STAT_OWNER, U_REF_STAT_UNDERRUN]

/-- Fields of the block `unit`, part 4. -/
def fields_unit_4 : List Fld :=
  [U_REF_STAT_HOST_IGN, U_REF_STAT_FULL, U_REF_STAT_RAMPING, U_REF_STAT_OVR_ACT, U_REF_STAT_SAFE_RAMP, U_REF_CMD_FLUSH, U_REF_DROP_COUNT, U_SLEW_RISE_RATE, U_SLEW_FALL_RATE, U_SLEW_CAP_RATE, U_SLEW_SAFE_RATE, U_CEIL_EFF_CODE]

/-- Fields of the block `unit`, part 5. -/
def fields_unit_5 : List Fld :=
  [U_DRV_LIM_CODE, U_DRV_HOLD_CODE, U_DRV_CODE_CODE, U_DRV_STAT_BUFMODE, U_DRV_STAT_DRV_OT, U_DRV_STAT_DRV_OT_SEEN, U_DRV_STAT_LIMITED, U_LIM_SP1_CODE, U_LIM_SP2_CODE, U_LIM_SP3_CODE, U_PWL_DERATE_D, U_LOOP_CTRL_RATE]

/-- Fields of the block `unit`, part 6. -/
def fields_unit_6 : List Fld :=
  [U_LOOP_CMD_CMD, U_LOOP_CMD_NEW_MODE, U_LOOP_CMD_NEW_LAW, U_LOOP_CMD_BUSY, U_LOOP_CMD_RESULT, U_LATE_COUNT_COUNT, U_LATE_CFG_LATE_RUN, U_LATE_STAT_RUN, U_LATE_STAT_MAX, U_LAW_CFG_NSEC, U_LAW_CFG_EN, U_LAW_HI_CODE]

/-- Fields of the block `unit`, part 7. -/
def fields_unit_7 : List Fld :=
  [U_LAW_LO_CODE, U_LAW_TRACK_CODE, U_LAW_COEF_VALUE, U_FF_PTR_EN, U_FF_PTR_BLOCK, U_LEAK_PTR_EN, U_LEAK_PTR_BLOCK, U_TBL_STAT_FF_ACT, U_TBL_STAT_FF_BLOCK, U_TBL_STAT_LEAK_ACT, U_TBL_STAT_LEAK_BLOCK, U_TBL_STAT_FF_PEND]

/-- Fields of the block `unit`, part 8. -/
def fields_unit_8 : List Fld :=
  [U_TBL_STAT_LEAK_PEND, U_TBL_STAT_BAD, U_LAWSET_PTR_OFFS, U_SHARE_COEF_VALUE, U_SHARE_LIM_CODE, U_SHARE_CORR_CODE, U_FAULT_FIRST, U_FAULT_LAST, U_FAULT_ACTION, U_FAULT_ISOLATED, U_FAULT_MAP_MAP, U_FAULT_TIME_TICK]

/-- Fields of the block `unit`, part 9. -/
def fields_unit_9 : List Fld :=
  [U_FAULT_POL_POLICY, U_FAULT_CLR_CLR, U_FAULT_CLR_RESULT, U_FAULT_COUNT_COUNT, U_FE_CFG_EN, U_FE_CFG_FE_TIME, U_FE_LIMIT_CODE, U_SENSE_CFG_EN, U_SENSE_CFG_SLW_N, U_FRZ_CFG_EN, U_FRZ_CFG_FRZ_N, U_FRZ_D_CODE]

/-- Fields of the block `unit`, part 10. -/
def fields_unit_10 : List Fld :=
  [U_SUP_STAT_FE_RUN, U_SUP_STAT_SLW_RUN, U_SUP_STAT_SLW_NOW, U_SUP_STAT_CM_V, U_SUP_STAT_CM_I, U_FRZ_STAT_FRZ_RUN, U_TRC_SEL_NODE, U_TRC_SEL_EN, U_MDEC_D, U_MDEC_N, U_MDEC_FIR, U_BIN_SRC_QTY]

/-- Fields of the block `unit`, part 11. -/
def fields_unit_11 : List Fld :=
  [U_BIN_SRC_RATE, U_BIN_SRC_XOVR, U_BIN_SRC_WHOLE, U_BIN_SRC_RCHG, U_MEAS_STAT_VS_PEND, U_MEAS_STAT_IS_PEND, U_MEAS_STAT_SH_PEND, U_MEAS_STAT_BAD, U_MEAS_STAT_OVR_V, U_MEAS_STAT_OVR_I, U_MEAS_STAT_OVR_SH, U_MEAS_GAP_COUNT]

/-- Fields of the block `unit`, part 12. -/
def fields_unit_12 : List Fld :=
  [U_BIN_COUNT, U_BIN_SUM, U_BIN_SUMSQ, U_BIN_MIN, U_BIN_MAX, U_BIN_T_FIRST, U_BIN_T_LAST, U_BIN_RANGE_OPEN, U_BIN_RANGE_CLOSE, U_BIN_STATE, U_BIN_RCHG_SEEN, U_BIN_CAL_NEW]

/-- Fields of the block `unit`, part 13. -/
def fields_unit_13 : List Fld :=
  [U_BIN_CAL_MID, U_BIN_SIDED, U_BIN_RESTARTED, U_BIN_SAT, U_BIN_BADSRC, U_BIN_UNDERRUN, U_BIN_OVR, U_BIN_ROUT, U_BIN_COMPL, U_BIN_LAST, U_RANGE_SEL_IRNG, U_RANGE_SEL_VRNG]

/-- Fields of the block `unit`, part 14. -/
def fields_unit_14 : List Fld :=
  [U_RANGE_SEL_AR_EN, U_RANGE_SEL_IGN, U_RANGE_STAT_IRNG_F, U_RANGE_STAT_VRNG_F, U_RANGE_STAT_DES, U_RANGE_STAT_PHASE, U_RANGE_STAT_ARMED, U_RANGE_STAT_SH_SPEC, U_RANGE_STAT_SH_RNG, U_RANGE_STAT_TARGET, U_RANGE_STAT_DN_RUN, U_RTAB_PTR_OFFS]

/-- Fields of the block `unit`, part 15. -/
def fields_unit_15 : List Fld :=
  [U_RTAB_PTR_NI_M1, U_RTAB_PTR_NV_M1, U_AR_CFG_HORIZON, U_AR_CFG_DN_N, U_AR_CFG_HOLDOFF, U_AR_CFG_TTL, U_AR_LIM_LO, U_AR_LIM_HI, U_SP_RNG_SP1R, U_SP_RNG_SP1F, U_SP_RNG_SP2R, U_SP_RNG_SP2F]

/-- Fields of the block `unit`, part 16. -/
def fields_unit_16 : List Fld :=
  [U_SP_RNG_SP3IR, U_SP_RNG_SP3IF, U_SP_RNG_SP3VR, U_SP_RNG_SP3VF, U_TBL_RNG_LKI, U_TBL_RNG_LK_FOLLOW, U_PTS_STAT_PAT, U_PTS_STAT_RB, U_SAFE_PAT_SAFE, U_RANGE_CHG_COUNT, U_REC_CFG_Q, U_REC_CFG_EN]

/-- Fields of the block `unit`, part 17. -/
def fields_unit_17 : List Fld :=
  [U_ILK_CFG_FIXMASK, U_ILK_CFG_CEIL_N, U_SAFE_TH_CODE, U_CONN_CMD_CMD, U_CONN_CMD_BUSY, U_CONN_CMD_RESULT, U_CHK_CFG_N, U_CHK_CFG_TH, U_CHK_AMP_CODE, U_CHK_K_K, U_CHK_RES_M, U_CHK_RES_OUTCOME]

/-- Fields of the block `unit`, part 18. -/
def fields_unit_18 : List Fld :=
  [U_CHK_RES_CM, U_CHK_RES_OVR, U_ILK_STAT_FIX_OK, U_ILK_STAT_HOT_ISO, U_ILK_STAT_CEIL_NOW, U_ILK_STAT_CAUSE, U_CEILS_V_CODE, U_CEILS_I_CODE, U_CEILS_P_CODE, U_CEILS_RNG_VR, U_CEILS_RNG_IR, U_CEILS_RNG_PIR]

/-- Fields of the block `unit`, part 19. -/
def fields_unit_19 : List Fld :=
  [U_CEILS_RNG_PVR, U_CEIL_RNG_VR, U_CEIL_RNG_IR, U_CEIL_RNG_PIR, U_CEIL_RNG_PVR, U_CEIL_V_CODE, U_CEIL_I_CODE, U_CEIL_P_CODE]

/-- Every field of the block `unit`. -/
def fields_unit : List Fld :=
  fields_unit_0 ++ fields_unit_1 ++ fields_unit_2 ++ fields_unit_3 ++ fields_unit_4 ++ fields_unit_5 ++ fields_unit_6 ++ fields_unit_7 ++ fields_unit_8 ++ fields_unit_9 ++ fields_unit_10 ++ fields_unit_11 ++ fields_unit_12 ++ fields_unit_13 ++ fields_unit_14 ++ fields_unit_15 ++ fields_unit_16 ++ fields_unit_17 ++ fields_unit_18 ++ fields_unit_19

/-- Fields of the block `cap`, part 0. -/
def fields_cap_0 : List Fld :=
  [MUS_CAP_UNIT_UNIT, MUS_CAP_UNIT_DEC, MUS_CAP_BUF_BLOCK, MUS_CAP_BUF_NBLK, MUS_CAP_BUF_EXT, MUS_CAP_EXT_BASE_ADDR, MUS_CAP_EXT_SIZE_NBLK, MUS_CAP_TRIG_KIND, MUS_CAP_TRIG_ARG, MUS_CAP_TRIG_OP, MUS_CAP_TA_CODE, MUS_CAP_TB_CODE]

/-- Fields of the block `cap`, part 1. -/
def fields_cap_1 : List Fld :=
  [MUS_CAP_DEPTH_PRE, MUS_CAP_DEPTH_POST, MUS_CAP_CMD_CMD, MUS_CAP_STAT_STATE, MUS_CAP_STAT_PRE_SHORT, MUS_CAP_STAT_SEL_WR, MUS_CAP_STAT_RESULT, MUS_CAP_TIDX_INDEX, MUS_CAP_WIDX_INDEX, MUS_CAP_DROP_COUNT, MUS_CAP_GEOM_ESIZE, MUS_CAP_CAP_CAP]

/-- Every field of the block `cap`. -/
def fields_cap : List Fld :=
  fields_cap_0 ++ fields_cap_1

/-- Fields of the block `c32`, part 0. -/
def fields_c32_0 : List Fld :=
  [U_C32_DATA_DATA, U_C32_STAT_NEW_VS, U_C32_STAT_NEW_IS, U_C32_STAT_NEW_SH, U_C32_STAT_OVR_VS, U_C32_STAT_OVR_IS, U_C32_STAT_OVR_SH, U_C32_STAT_OVR_RUN_VS, U_C32_STAT_OVR_RUN_IS, U_C32_STAT_OVR_RUN_SH, U_C32_STAT_VRANGE, U_C32_STAT_IRANGE]

/-- Every field of the block `c32`. -/
def fields_c32 : List Fld :=
  fields_c32_0

/-- Fields of the block `eng`, part 0. -/
def fields_eng_0 : List Fld :=
  [TT_BIND_UNIT, TT_BIND_VALID, TT_CMD_CMD, TT_CMD_BUSY, TT_CMD_RESULT, TT_STAT_STATE, TT_STAT_OWNS, TT_STAT_WHY, TT_STAT_ERR, TT_STAT_LDEPTH, TT_STAT_CDEPTH, TT_STAT_BIND_ERR]

/-- Fields of the block `eng`, part 1. -/
def fields_eng_1 : List Fld :=
  [TT_STAT_SLIPPED, TT_CFG_ONFAULT, TT_CFG_AT, TT_START_PC_ADDR, TT_PC_ADDR, TT_START_AT_TICK, TT_STEP_TICK, TT_LATE_COUNT, TT_SLIP_COUNT, TT_STALL_COUNT, TT_THERM_RES_TEMP, TT_THERM_RES_VALID]

/-- Fields of the block `eng`, part 2. -/
def fields_eng_2 : List Fld :=
  [TT_THERM_RES_SUBST, TT_THERM_RES_SENSOR, TT_THERM_RES_DROP, TT_LOOPCNT_REMAIN, TT_JCFG_PINIT, TT_JSTAT_EMPTY, TT_JSTAT_PENDJ, TT_JCOUNT_COUNT, TT_JTAKEN_COUNT, TT_JTA_CODE, TT_JTB_CODE, TT_JTH_CFG_RNG]

/-- Fields of the block `eng`, part 3. -/
def fields_eng_3 : List Fld :=
  [TT_JTH_CFG_FOLLOW, TT_EVW_EV, TT_EVW_EN, TT_EVW_POLICY, TT_EVW_PEND, TT_EVW_REC, TT_EV_OVERLAP_COUNT, TT_RESTARTS_COUNT, TT_JUMP_REQ, TT_JUMP_BREAK, TT_JUMP_PEND, TT_JUMP_RESULT]

/-- Fields of the block `eng`, part 4. -/
def fields_eng_4 : List Fld :=
  [TT_JUMP_TGT_ADDR, TT_JUMP_TGT_LD, TT_JUMP_TGT_CD, TT_JUMP_TGT_VALID, TT_SR_BASE_ADDR, TT_SR_SIZE_LOG2, TT_SR_CFG_RESUME, TT_SR_WP_VALUE, TT_SR_RP_VALUE, TT_SR_MARK_VALUE, TT_SR_FREE_VALUE, TT_SR_STAT_UNDERRUN]

/-- Fields of the block `eng`, part 5. -/
def fields_eng_5 : List Fld :=
  [TT_SR_STAT_PROT, TT_SR_STAT_GAPITER, TT_SR_STAT_BADENT, TT_SR_STAT_MARKED, TT_SR_URUN_COUNT, TT_SR_PDROP_COUNT, TT_SR_GAPITER_COUNT, TT_SR_REWIND_REMAIN]

/-- Every field of the block `eng`. -/
def fields_eng : List Fld :=
  fields_eng_0 ++ fields_eng_1 ++ fields_eng_2 ++ fields_eng_3 ++ fields_eng_4 ++ fields_eng_5

/-- Fields of the block `queue`, part 0. -/
def fields_queue_0 : List Fld :=
  [Q_CFG_FMT, Q_CFG_EN, Q_CFG_SPILL, Q_CFG_LOG2, Q_CFG_BASE, Q_WP_COUNT, Q_RP_COUNT, Q_LEVEL_PKTS, Q_LOST_COUNT, Q_RESETS_COUNT, Q_STAT_LVL, Q_STAT_PKT]

/-- Fields of the block `queue`, part 1. -/
def fields_queue_1 : List Fld :=
  [Q_STAT_QERR, Q_STAT_OVW, Q_STAT_LR_LOST, Q_STAT_ECC, Q_STAT_CFG_IGN, Q_STAT_BADCFG, Q_STAT_REL_IGN, Q_STAT_EN_ACT, Q_STAT_GEN, Q_NOTE_EV, Q_NOTE_EV_EN, Q_NOTE_ATTN_EN]

/-- Fields of the block `queue`, part 2. -/
def fields_queue_2 : List Fld :=
  [Q_NOTE_TW_EN, Q_NOTE_ON_PKT, Q_NOTE_ON_LVL, Q_LVL_MARK_PKTS, Q_CMD_DROP_REST, Q_CMD_FLUSH, Q_CMD_RESULT, Q_RELEASE_RP, Q_TW_DEST_STN, Q_LR_BASE_ADDR, Q_LR_SIZE_LOG2, Q_PTR_WP]

/-- Fields of the block `queue`, part 3. -/
def fields_queue_3 : List Fld :=
  [Q_PTR_RP, Q_HEAD_WORD]

/-- Every field of the block `queue`. -/
def fields_queue : List Fld :=
  fields_queue_0 ++ fields_queue_1 ++ fields_queue_2 ++ fields_queue_3

/-- Fields of the block `sens`, part 0. -/
def fields_sens_0 : List Fld :=
  [TH_SCFG_TYPE, TH_SCFG_GRP, TH_SPAR_VALUE, TH_LVL01_WARN, TH_LVL01_THROTTLE, TH_LVL23_STOP, TH_LVL23_SHUT, TH_MAP_CH, TH_FLOOR_F, TH_VAL_TEMP, TH_VAL_SUBST, TH_VAL_LEVEL]

/-- Fields of the block `sens`, part 1. -/
def fields_sens_1 : List Fld :=
  [TH_VAL_FAIL, TH_VAL_HEALTHY, TH_VAL_FLOOR, TH_RAW_TEMP, TH_RAW_VALID, TH_TIME_TICK, TH_FAILS_COUNT, TH_EV_EV, TH_EV_EN]

/-- Every field of the block `sens`. -/
def fields_sens : List Fld :=
  fields_sens_0 ++ fields_sens_1

/-- Fields of the block `port`, part 0. -/
def fields_port_0 : List Fld :=
  [TW_PORT_CFG_MODE, TW_PORT_STAT_LINK, TW_PORT_STAT_UPSTREAM, TW_PORT_STAT_DOWNED, TW_PORT_STAT_SYNC_OK, TW_PORT_DELAY_DELAY, TW_PORT_ASYM_ASYM, TW_PORT_ERR_COUNT, TW_PORT_RETRY_COUNT, TW_PORT_CTRL_LOST_COUNT, TW_PORT_DOWNS_COUNT]

/-- Every field of the block `port`. -/
def fields_port : List Fld :=
  fields_port_0

/-- Fields of the block `cset`, part 0. -/
def fields_cset_0 : List Fld :=
  [CAL_SET_WORD]

/-- Every field of the block `cset`. -/
def fields_cset : List Fld :=
  fields_cset_0

/-- Fields of the block `eth`, part 0. -/
def fields_eth_0 : List Fld :=
  [ETH_MAC_MAC, ETH_IP_ADDR, ETH_MASK_MASK, ETH_GW_GW, ETH_VLAN_VID, ETH_VLAN_PCP, ETH_VLAN_EN, ETH_UDP_PORT, ETH_PTP_EN, ETH_PTP_DOMAIN, ETH_PTP_LOCK, ETH_PTP_EPOCH_SEC]

/-- Fields of the block `eth`, part 1. -/
def fields_eth_1 : List Fld :=
  [ETH_PTP_OFS_NS, ETH_STAT_BLOCK_LOCK, ETH_STAT_SESS, ETH_RX_COUNT, ETH_DROP_COUNT, ETH_TX_COUNT]

/-- Every field of the block `eth`. -/
def fields_eth : List Fld :=
  fields_eth_0 ++ fields_eth_1

/-- The fields of each block, the register map of spec/INDEX.md. -/
def blockFields : Blk → List Fld
  | .stn => fields_stn
  | .die => fields_die
  | .unit => fields_unit
  | .cap => fields_cap
  | .c32 => fields_c32
  | .eng => fields_eng
  | .queue => fields_queue
  | .sens => fields_sens
  | .port => fields_port
  | .cset => fields_cset
  | .eth => fields_eth

end Sys2Proof.Machine
end

