-- ==== Sys2Proof/Machine/Ops.lean ====
section
/-! DEFINITION. The named operations over the register file, the tables, memory and free values, and the one wrapper that
turns an operation on the hardware into the answer of a command. -/

namespace Sys2Proof.Machine

/-- The value a table lists for a key, or the default. -/
def tget {κ α : Type} [DecidableEq κ] : Tab κ α → κ → α → α
  | [], _, d => d
  | (k', v) :: r, k, d => if k = k' then v else tget r k d

/-- The value a table lists for a key, if it lists the key. -/
def tfind {κ α : Type} [DecidableEq κ] : Tab κ α → κ → Option α
  | [], _ => none
  | (k', v) :: r, k => if k = k' then some v else tfind r k

/-- The table with a key set to a value. -/
def tset {κ α : Type} [DecidableEq κ] : Tab κ α → κ → α → Tab κ α
  | [], k, v => [(k, v)]
  | (k', v') :: r, k, v => if k = k' then (k, v) :: r else (k', v') :: tset r k v

/-- The table without a key. -/
def tdel {κ α : Type} [DecidableEq κ] (t : Tab κ α) (k : κ) : Tab κ α := t.filter (fun p => !decide (p.1 = k))

/-- The place of instance `i` of a field in block instance `inst`. -/
def Fld.key (f : Fld) (inst i : Nat) : RegKey := { blk := f.blk, inst := inst, pos := f.pos + f.stride * i }

/-- The identity correction set of R293: gains of 1 in Q2.30, everything else 0; the range words of a siding's set are 0. -/
def csetReset (inst w : Nat) : Nat :=
  if 256 ≤ inst ∧ 156 ≤ w then 0
  else if 8 ≤ w ∧ w < 152 ∧ (w - 8) % 12 = 1 then 0x40000000
  else if w = 153 then 0x40000000
  else if 156 ≤ w ∧ w < 196 ∧ w % 2 = 1 then 0x40000000
  else if w = 6 then 1
  else 0

/-- The reset value of a field instance (the tables' Reset columns; the internal sensors n = 0..3 of R343; the identity
correction set of R293, R317). -/
def resetOf (f : Fld) (inst i : Nat) : Nat :=
  match f.blk with
  | .cset => csetReset inst i
  | .sens =>
    if inst % 12 < 4 then
      if f = TH_SCFG_TYPE then 3
      else if f = TH_LVL01_WARN then 0x1900
      else if f = TH_LVL01_THROTTLE then 0x1A40
      else if f = TH_LVL23_STOP then 0x1CC0
      else if f = TH_LVL23_SHUT then 0x1F40
      else if f = TH_MAP_CH then 0xFFFFFFFF
      else f.reset
    else f.reset
  | _ => f.reset

/-- The stored value of a field (instance `i` of block instance `inst`). -/
def Hw.get (h : Hw) (f : Fld) (inst : Nat) (i : Nat := 0) : Nat := tget h.regs (f.key inst i) (resetOf f inst i)

/-- The register file with a field set; a value is cut to the field's width. -/
def Hw.put (h : Hw) (f : Fld) (inst : Nat) (v : Nat) (i : Nat := 0) : Hw :=
  { h with regs := tset h.regs (f.key inst i) (v % 2 ^ f.width) }

/-- A 32-bit field read as a code (R1). -/
def Hw.code (h : Hw) (f : Fld) (inst : Nat) (i : Nat := 0) : Int := sx32 (h.get f inst i)

/-- A 32-bit field set to a code (R1). -/
def Hw.putC (h : Hw) (f : Fld) (inst : Nat) (x : Int) (i : Nat := 0) : Hw := h.put f inst (u32 x) i

/-- A one-bit field read as a truth value. -/
def Hw.flag (h : Hw) (f : Fld) (inst : Nat) (i : Nat := 0) : Bool := h.get f inst i == 1

/-- A one-bit field set. -/
def Hw.putB (h : Hw) (f : Fld) (inst : Nat) (b : Bool) (i : Nat := 0) : Hw := h.put f inst (b2n b) i

/-- A counter advanced, wrapping at its width. -/
def Hw.inc (h : Hw) (f : Fld) (inst : Nat) (i : Nat := 0) : Hw := h.put f inst (h.get f inst i + 1) i

/-- A counter advanced, saturating at its width. -/
def Hw.incSat (h : Hw) (f : Fld) (inst : Nat) (i : Nat := 0) : Hw :=
  h.put f inst (satInc (2 ^ f.width - 1) (h.get f inst i)) i

/-- A unit's state beside its window. -/
def Hw.unit (h : Hw) (u : Nat) : UnitS := tget h.units u {}

/-- The hardware with a unit's state changed. -/
def Hw.modU (h : Hw) (u : Nat) (f : UnitS → UnitS) : Hw := { h with units := tset h.units u (f (h.unit u)) }

/-- An engine's state beside its registers. -/
def Hw.eng (h : Hw) (e : Nat) : EngS := tget h.engs e {}

/-- The hardware with an engine's state changed. -/
def Hw.modE (h : Hw) (e : Nat) (f : EngS → EngS) : Hw := { h with engs := tset h.engs e (f (h.eng e)) }

/-- A die's state beside its registers. -/
def Hw.die (h : Hw) (d : Nat) : DieS := tget h.dies d {}

/-- The hardware with a die's state changed. -/
def Hw.modD (h : Hw) (d : Nat) (f : DieS → DieS) : Hw := { h with dies := tset h.dies d (f (h.die d)) }

/-- A capture's state beside its registers. -/
def Hw.cap (h : Hw) (c : Nat) : CapS := tget h.caps c {}

/-- The hardware with a capture's state changed. -/
def Hw.modC (h : Hw) (c : Nat) (f : CapS → CapS) : Hw := { h with caps := tset h.caps c (f (h.cap c)) }

/-- A sensor's state beside its registers. -/
def Hw.th (h : Hw) (k : Nat) : ThS := tget h.ths k {}

/-- The hardware with a sensor's state changed. -/
def Hw.modT (h : Hw) (k : Nat) (f : ThS → ThS) : Hw := { h with ths := tset h.ths k (f (h.th k)) }

/-- A queue's state beside its registers. -/
def Hw.que (h : Hw) (q : Nat) : QueS := tget h.ques q {}

/-- The hardware with a queue's state changed. -/
def Hw.modQ (h : Hw) (q : Nat) (f : QueS → QueS) : Hw := { h with ques := tset h.ques q (f (h.que q)) }

/-- `f` applied to each element of a list in turn. -/
def Hw.each {α : Type} (h : Hw) (l : List α) (f : Hw → α → Hw) : Hw := l.foldl f h

/-- `f` where a condition holds, nothing otherwise. -/
def Hw.cond (h : Hw) (c : Bool) (f : Hw → Hw) : Hw := if c then f h else h

/-! ### Memory -/

/-- The byte at an address; an unlisted address reads 0 (notes/assumptions/2.md). -/
def memRead : List Host.Cell → Nat → Byte
  | [], _ => 0
  | (a', b) :: r, a => if a = a' then b else memRead r a

/-- Memory with a byte written, in the canonical form. -/
def memWrite : List Host.Cell → Nat → Byte → List Host.Cell
  | [], a, b => if b = 0 then [] else [(a, b)]
  | (a', b') :: r, a, b =>
    if a < a' then (if b = 0 then (a', b') :: r else (a, b) :: (a', b') :: r)
    else if a = a' then (if b = 0 then r else (a, b) :: r)
    else (a', b') :: memWrite r a b

/-- The canonical form of memory: addresses strictly rising and no byte equal to what an unlisted address reads as. -/
def memWf : List Host.Cell → Bool
  | [] => true
  | [(_, b)] => b != 0
  | (a, b) :: (a', b') :: r => b != 0 && decide (a < a') && memWf ((a', b') :: r)

/-- The writes of a command applied, oldest first. -/
def memApply (m : List Host.Cell) (w : List Host.Cell) : List Host.Cell :=
  w.foldr (fun p m => memWrite m p.1 p.2) m

/-- The newest write to an address among the bytes of the command in course. -/
def wrqFind : List Host.Cell → Nat → Option Byte
  | [], _ => none
  | (a', b) :: r, a => if a = a' then some b else wrqFind r a

/-- A byte of memory as the command in course sees it. -/
def Hw.byte (h : Hw) (a : Nat) : Byte := (wrqFind h.wrq a).getD (memRead h.mem a)

/-- `n` bytes from address `a` as a little-endian number (R8). -/
def Hw.rdLE (h : Hw) (a : Nat) : Nat → Nat
  | 0 => 0
  | n + 1 => (h.byte a).toNat + 256 * h.rdLE (a + 1) n

/-- A 32-bit word of memory (R8). -/
def Hw.rd32 (h : Hw) (a : Nat) : Nat := h.rdLE a 4

/-- A 64-bit word of memory. -/
def Hw.rd64 (h : Hw) (a : Nat) : Nat := h.rdLE a 8

/-- A byte write. -/
def Hw.wrByte (h : Hw) (a : Nat) (b : Nat) : Hw := { h with wrq := (a, BitVec.ofNat 8 b) :: h.wrq }

/-- `n` bytes of a number written little-endian from address `a` (R8). -/
def Hw.wrLE (h : Hw) (a v : Nat) : Nat → Hw
  | 0 => h
  | n + 1 => (h.wrByte a (v % 256)).wrLE (a + 1) (v / 256) n

/-- A list of 32-bit words written from address `a`. -/
def Hw.wrWords (h : Hw) (a : Nat) : List Nat → Hw
  | [] => h
  | w :: ws => (h.wrLE a w 4).wrWords (a + 4) ws

/-- The `n` 32-bit words from address `a`. -/
def Hw.rdWords (h : Hw) (a : Nat) : Nat → List Nat
  | 0 => []
  | n + 1 => h.rd32 a :: h.rdWords (a + 4) n

/-! ### Free values -/

/-- The next free value, and the hardware with the counter advanced: nothing constrains the value (notes/assumptions/1.md). -/
def Hw.fresh (h : Hw) : Nat × Hw := (Config.freeValue h.free, { h with free := h.free + 1 })

/-! ### Answers of commands -/

/-- The state after an operation on the hardware: its byte writes enter memory, the queue of commands stands. -/
def State.commit (s : State) (h : Hw) : State :=
  { s with hw := { h with mem := memApply s.hw.mem h.wrq, wrq := [], ecc := [] } }

/-- The answer of a command whose effect is an operation on the hardware. While power-on reset is asserted nothing acts. -/
def State.run (s : State) (f : Hw → Hw) : Host.Outcome State Fault Refusal :=
  .next (if s.hw.cold then s else s.commit (f s.hw))

end Sys2Proof.Machine
end

