-- ==== Sys2Proof/Machine/Operands.lean ====
section
/-! DEFINITION. What commands and rules refer to: unit numbers and dies, loop periods, members of a consist, range
entries and conversions between ranges, DRIVE_FF and LEAK tables, correction sets, and the decoding of an address. -/

namespace Sys2Proof.Machine

/-! ### Units (R42 to R46) -/

/-- A working channel's number (R42). -/
def isChan (u : Nat) : Bool := u < 256
/-- A siding's number (R42). -/
def isSiding (u : Nat) : Bool := 256 ≤ u && u < 272
/-- A consist's number (R42). -/
def isConsist (u : Nat) : Bool := 512 ≤ u && u < 768
/-- A number that names a unit (R42). -/
def isUnit (u : Nat) : Bool := isChan u || isSiding u || isConsist u

/-- A working channel or siding (a unit with its own converters). -/
def isPlain (u : Nat) : Bool := isChan u || isSiding u

/-- A die that is present and not fenced (R4, R5, R68). -/
def Hw.dieUp (h : Hw) (d : Nat) : Bool := d < 8 && bit (h.get STN_CENSUS_PRESENT 0) d && !(h.die d).fenced

/-- The consist is coupled (R49). -/
def Hw.isCoupled (h : Hw) (c : Nat) : Bool := h.flag U_CONSIST_STAT_COUPLED c

/-- The unit is a coupled member (R50). -/
def Hw.isMember (h : Hw) (u : Nat) : Bool := h.flag U_MEMBER_OF_VALID u

/-- The unit is a member of a consist of this station. -/
def Hw.localMember (h : Hw) (u : Nat) : Bool := h.isMember u && !h.flag U_MEMBER_OF_FOLLOWER u

/-- The unit follows a head in another station (R54). -/
def Hw.isFollower (h : Hw) (u : Nat) : Bool := h.isMember u && h.flag U_MEMBER_OF_FOLLOWER u

/-- The consist of a local member, the unit itself otherwise. -/
def Hw.headOf1 (h : Hw) (u : Nat) : Nat := if h.localMember u then h.get U_MEMBER_OF_CONSIST u else u

/-- The outermost consist a unit belongs to in this station (depth at most 4, R48). -/
def Hw.headOf (h : Hw) (u : Nat) : Nat := h.headOf1 (h.headOf1 (h.headOf1 (h.headOf1 u)))

/-- The die a channel or siding lies on; 0 for another number (R43). -/
def ownDie (u : Nat) : Nat := if isChan u then u / 32 else if isSiding u then (u - 256) / 2 else 0

/-- The lead one level down: member 0 of a coupled consist (R46). -/
def Hw.lead1 (h : Hw) (u : Nat) : Nat := if isConsist u && h.isCoupled u then h.get U_MEMBER_UNIT u 0 else u

/-- The channel at the bottom of the chain of leads. -/
def Hw.leadOf (h : Hw) (u : Nat) : Nat := h.lead1 (h.lead1 (h.lead1 (h.lead1 u)))

/-- The die of a unit: a consist's is its lead's (R45, R52). -/
def Hw.dieOf (h : Hw) (u : Nat) : Nat := ownDie (h.leadOf u)

/-- The channel number on its die, or 32 + s for a siding: the unit-window index (R42). -/
def chanOf (u : Nat) : Nat := if isChan u then u % 32 else if isSiding u then 32 + (u - 256) % 2 else 0

/-- The members of a coupled consist that have not departed: index, unit, station, remote, weight. -/
def Hw.members (h : Hw) (c : Nat) : List (Nat × Nat × Nat × Bool × Nat) :=
  (h.unit c).cons.mem.filter (fun m => !bit (h.unit c).cons.gone m.1)

/-- The members in this station. -/
def Hw.locals (h : Hw) (c : Nat) : List Nat := ((h.members c).filter (fun m => !m.2.2.2.1)).map (fun m => m.2.1)

/-- The units one level below a list of units: a coupled consist's local members. -/
def Hw.below (h : Hw) (l : List Nat) : List Nat := l.flatMap (fun u => if isConsist u && h.isCoupled u then h.locals u else [])

/-- Every unit of this station under a unit, the unit itself first (R48: depth at most 4). -/
def Hw.tree (h : Hw) (u : Nat) : List Nat :=
  let a := h.below [u]; let b := h.below a; let c := h.below b; let d := h.below c
  u :: (a ++ b ++ c ++ d)

/-- A consist with a follower among its members, at any depth (R198). -/
def Hw.hasFoll (h : Hw) (u : Nat) : Bool := (h.tree u).any (fun c => isConsist c && (h.unit c).cons.mem.any (fun m => m.2.2.2.1))

/-- Whether a consist's quantity is the shared one: current in a parallel consist, voltage in a series one (R46). -/
def Hw.isShared (h : Hw) (c : Nat) (volt : Bool) : Bool := (h.get U_CONSIST_CFG_TYPE c == 0) != volt

/-- The units of this station whose measurement of a path makes up a unit's (R46): a consist's shared quantity comes from every member, the
other from its lead. Path 0 is VS. -/
def Hw.pathFrom : Nat → Hw → Nat → Nat → List Nat
  | 0, _, u, _ => [u]
  | f + 1, h, u, path =>
    if isConsist u && h.isCoupled u then
      (if h.isShared u (path == 0) then h.locals u else [h.lead1 u]).flatMap (fun m => Hw.pathFrom f h m path)
    else [u]

/-- A unit has no measurement outputs of a path: they would need a follower's (R162). -/
def Hw.noMeas : Nat → Hw → Nat → Nat → Bool
  | 0, _, _, _ => false
  | f + 1, h, u, path =>
    isConsist u && (if h.isShared u (path == 0) then
        (h.unit u).cons.mem.any (fun m => m.2.2.2.1) || (h.locals u).any (fun m => Hw.noMeas f h m path)
      else h.isCoupled u && Hw.noMeas f h (h.lead1 u) path)

/-- The channels and sidings under a unit. -/
def Hw.leaves (h : Hw) (u : Nat) : List Nat := (h.tree u).filter isPlain

/-- A unit that exists and runs: a channel or siding of a die that is up, or a coupled consist with a channel on a die that is
up. -/
def Hw.runs (h : Hw) (u : Nat) : Bool :=
  if isPlain u then h.dieUp (ownDie u) else isConsist u && h.isCoupled u && (h.leaves u).any (fun m => h.dieUp (ownDie m))

/-! ### Loop rates and states -/

/-- The loop period of a RATE code in metronome ticks (R25, R128). -/
def ratePeriod (r : Nat) : Nat := 128 * 2 ^ (min r 5)

/-- A unit's loop period in metronome ticks; a coupled member runs at its consist's rate (R48). -/
def Hw.period (h : Hw) (u : Nat) : Nat := ratePeriod (h.get U_LOOP_CTRL_RATE (h.headOf u))

/-- U_STATE.STATE codes (R66). -/
def stISOLATED : Nat := 0
/-- CHECKING (R66). -/
def stCHECKING : Nat := 1
/-- CONNECTED_OPEN (R66). -/
def stOPEN : Nat := 2
/-- CLOSED (R66). -/
def stCLOSED : Nat := 3
/-- SAFING (R66). -/
def stSAFING : Nat := 4
/-- FAULTED (R66). -/
def stFAULTED : Nat := 5
/-- SIDED (R66). -/
def stSIDED : Nat := 6

/-- A unit's state. -/
def Hw.st (h : Hw) (u : Nat) : Nat := h.get U_STATE_STATE u

/-- The loop is closed, for a member its consist's (R11). -/
def Hw.closed (h : Hw) (u : Nat) : Bool := h.flag U_STATE_LOOP (h.headOf u)

/-- CONNECTED_OPEN, CLOSED or SIDED. -/
def Hw.onLoad (h : Hw) (u : Nat) : Bool := let s := h.st u; s == 2 || s == 3 || s == 6

/-- FAULTED with the output isolated (R143). -/
def Hw.faultIso (h : Hw) (u : Nat) : Bool := h.st u == 5 && h.flag U_FAULT_ISOLATED u

/-- Not isolated: neither ISOLATED nor FAULTED, isolated (R326, R335). -/
def Hw.live (h : Hw) (u : Nat) : Bool := !(h.st u == 0 || h.faultIso u)

/-- BUFMODE of a channel or siding (R91, R95): 0 LOW, 1 NORMAL, 2 LIMIT, 3 DETACHED. -/
def Hw.bufMode (h : Hw) (u : Nat) : Nat :=
  let s := h.st u
  let x := h.unit u
  let low := s == stISOLATED || (s == stFAULTED && ((h.flag U_FAULT_ISOLATED u && !x.safe.out) || x.safe.latched)) ||
    (s == stSAFING && x.safe.latched)
  if low then 0
  else if x.sid.isSome then 3
  else if h.flag U_DRV_STAT_DRV_OT u then 2 else 1

/-- The siding that serves a channel, if any (R291). -/
def Hw.servedBy (h : Hw) (u : Nat) : Option Nat := (h.unit u).sid

/-- A range change, or the return of IS after one is abandoned, is in course (R203, R205, R207). -/
def Hw.rngBusy (h : Hw) (u : Nat) : Bool := let r := (h.unit u).rng; r.active || r.reIs || r.openOn

/-- The unit whose stage and position a unit acts on (R92, R189): a siding's is the channel it serves, else the unit itself. -/
def Hw.servedUnit (h : Hw) (u : Nat) : Nat :=
  if isSiding u then (((List.range 32).map (· + ownDie u * 32)).find? (fun m => h.servedBy m == some u)).getD u else u

/-- A siding takeover or return is in progress on a channel of the unit: no change is decided (R205). -/
def Hw.sidMoves (h : Hw) (u : Nat) : Bool := (h.leaves u).any (fun m => (h.unit m).shadow.isSome)

/-- U_RANGE_SEL.AR_EN as it reads: 0 on a consist with a follower (R198). -/
def Hw.arEn (h : Hw) (u : Nat) : Bool := h.flag U_RANGE_SEL_AR_EN u && !h.hasFoll u

/-- Whose converters and buffer serve a unit: the siding's while it is SIDED or attached, else its own (R294). -/
def Hw.convOf (h : Hw) (u : Nat) : Nat := (h.servedBy u).getD u

/-! ### Range tables (R180 to R188) -/

/-- An entry of a range table (R181). -/
structure REnt where
  pat : Nat
  sense : Nat
  gain : Nat
  up : Nat
  dn : Nat
  settle : Nat
  upTh : Nat
  dnTh : Nat
  mant : Nat
  recip : Nat
  exp : Int
deriving DecidableEq, Repr

/-- The base of a die's coefficient and table SRAM (R58). -/
def coefBase (d : Nat) : Nat := 0x0400000000 + d * 0x100000

/-- Byte address of the current entries of a unit's range table (R180). -/
def Hw.rtab (h : Hw) (u : Nat) : Nat := coefBase (h.dieOf u) + h.get U_RTAB_PTR_OFFS u * 64

/-- The entry at an address (R181, R448: read when used). -/
def Hw.rentAt (h : Hw) (a : Nat) : REnt :=
  let w0 := h.rd32 a; let w3 := h.rd32 (a + 12)
  { pat := bits w0 15 0, sense := bits w0 16 16, gain := bits w0 18 17, up := bits w0 23 20, dn := bits w0 27 24,
    settle := bits (h.rd32 (a + 8)) 19 0, upTh := bits w3 15 0, dnTh := bits w3 31 16,
    mant := h.rd32 (a + 16), recip := h.rd32 (a + 20), exp := sxw 8 (h.rd32 (a + 24)) }

/-- Current entry `i` of a unit. -/
def Hw.ient (h : Hw) (u i : Nat) : REnt := h.rentAt (h.rtab u + i * 0x20)

/-- Voltage entry `j` of a unit. -/
def Hw.vent (h : Hw) (u j : Nat) : REnt := h.rentAt (h.rtab u + 0x200 + j * 0x20)

/-- A code of one range in units of another (R182). -/
def convE (x : Int) (i j : REnt) : Int :=
  let t := rdiv (x * (i.mant : Int)) (2 ^ 31)
  let t := rdiv (t * (j.recip : Int)) (2 ^ 30)
  let e := i.exp - j.exp
  if 0 ≤ e then sat32 (t * (2 ^ e.toNat : Nat)) else sat32 (rdiv t (2 ^ e.natAbs))

/-- `conv` over current ranges (R182). -/
def Hw.convI (h : Hw) (u : Nat) (x : Int) (i j : Nat) : Int := if i = j then x else convE x (h.ient u i) (h.ient u j)

/-- `conv` over voltage ranges (R182). -/
def Hw.convV (h : Hw) (u : Nat) (x : Int) (i j : Nat) : Int := if i = j then x else convE x (h.vent u i) (h.vent u j)

/-- Current range in force (R184). -/
def Hw.irng (h : Hw) (u : Nat) : Nat := h.get U_RANGE_STAT_IRNG_F u
/-- Voltage range in force (R184). -/
def Hw.vrng (h : Hw) (u : Nat) : Nat := h.get U_RANGE_STAT_VRNG_F u

/-- The pattern of a connected channel on given ranges (R193). -/
def Hw.patOf (h : Hw) (u i j : Nat) : Nat := (h.ient u i).pat ||| (h.vent u j).pat

/-! ### DRIVE_FF and LEAK (R112, R113, R188) -/

/-- A table of a die's coefficient SRAM evaluated at a code (R112). -/
def Hw.tableAt (h : Hw) (d block : Nat) (x : Int) : Int :=
  let u := (x + 2 ^ 31).toNat
  let i : Nat := u / 2 ^ 22
  let f : Nat := u % 2 ^ 22
  let t := fun k => sx32 (h.rd32 (coefBase d + block * 4096 + 4 * k))
  let a := t i
  let b := if i < 1023 then t (i + 1) else 2 * t 1023 - t 1022
  sat32 (a + rdiv ((b - a) * (f : Int)) (2 ^ 22))

/-- FF(x) of a unit: 0 while disabled (R112). -/
def Hw.ff (h : Hw) (u : Nat) (x : Int) : Int :=
  if h.flag U_TBL_STAT_FF_ACT u then h.tableAt (h.dieOf u) (h.get U_TBL_STAT_FF_BLOCK u) x else 0

/-- The LEAK value in units of the current range in force: 0 while disabled (R112, R188). -/
def Hw.leak (h : Hw) (u : Nat) (v : Int) : Int :=
  if h.flag U_TBL_STAT_LEAK_ACT u then
    let x := h.tableAt (h.dieOf u) (h.get U_TBL_STAT_LEAK_BLOCK u) v
    if h.flag U_TBL_RNG_LK_FOLLOW u then x else h.convI u x (h.get U_TBL_RNG_LKI u) (h.irng u)
  else 0

/-! ### Correction sets (R293 to R296) -/

/-- A word of the correction set in force of a channel or siding. -/
def Hw.cset (h : Hw) (u w : Nat) : Nat := h.get CAL_SET_WORD u w

/-- corr() of R294: converter set `s`, converter `c`, gain `g`, and the range words at `rw` of set `k`. -/
def Hw.corr (h : Hw) (s c g k rw : Nat) (raw : Int) : Int :=
  let b := 8 + (4 * c + g) * 12
  let x := raw - h.code CAL_SET_WORD s b
  let cl := sat32 x
  let n := (cl + 2 ^ 31).toNat
  let i : Nat := n / 2 ^ 29
  let f : Nat := n % 2 ^ 29
  let lin := fun j => h.code CAL_SET_WORD s (b + 2 + j)
  let l := lin i + rdiv ((lin (i + 1) - lin i) * (f : Int)) (2 ^ 29)
  let y := rdiv ((x + l) * (h.cset s (b + 1) : Int)) (2 ^ 30)
  rdiv ((y - h.code CAL_SET_WORD k rw) * (h.cset k (rw + 1) : Int)) (2 ^ 30)

/-- corr() without the range words (R294, R304, R313). -/
def Hw.corr0 (h : Hw) (s c g : Nat) (raw : Int) : Int :=
  let b := 8 + (4 * c + g) * 12
  let x := raw - h.code CAL_SET_WORD s b
  let cl := sat32 x
  let n := (cl + 2 ^ 31).toNat
  let i : Nat := n / 2 ^ 29
  let f : Nat := n % 2 ^ 29
  let lin := fun j => h.code CAL_SET_WORD s (b + 2 + j)
  let l := lin i + rdiv ((lin (i + 1) - lin i) * (f : Int)) (2 ^ 29)
  rdiv ((x + l) * (h.cset s (b + 1) : Int)) (2 ^ 30)

/-- U_DRV_STAT.DRV_OT of a unit: the detector of its own buffer, or of the siding's that serves it (R92). -/
def Hw.otShow (h : Hw) (m : Nat) : Hw :=
  let hot := (h.unit m).ot || (match h.servedBy m with | some s => (h.unit s).ot | none => false)
  let h := h.putB U_DRV_STAT_DRV_OT m hot
  if hot then h.put U_DRV_STAT_DRV_OT_SEEN m 1 else h

/-- sat24: the limits of the modulator input (R89, R295). -/
def sat24 (x : Int) : Int := max (-(2 ^ 23 - 1)) (min x (2 ^ 23 - 1))

/-- The modulator input for a drive code past the drive clamp: polarity and rounding to d24 (R89 steps 3 and 4), then DRIVE
correction under the set of the DAC in use (R295). -/
def Hw.dacOf (h : Hw) (u : Nat) (d : Int) : Int :=
  let d24 := sat24 (rdiv (if h.flag U_MODE_POL u then -d else d) 256)
  sat24 (rdiv (d24 * (h.cset (h.convOf u) 153 : Int)) (2 ^ 30) - h.code CAL_SET_WORD (h.convOf u) 152)

/-- The modulator input of the DAC in use takes the committed drive code (R89, R300). -/
def Hw.dacTake (h : Hw) (u : Nat) : Hw :=
  let d := h.dacOf u (h.code U_DRV_CODE_CODE u)
  h.modU u (fun x => { x with dac := d })

/-- What drives a unit's DRV pin: the modulator input held since the last committed tick, forced to 0 while the buffer is LOW (R89,
R91, R295); none, high impedance, while power-on reset is held (R98). -/
def Hw.drvPin (h : Hw) (u : Nat) : Option Int := if h.cold then none else some (if h.bufMode u = 0 then 0 else (h.unit u).dac)

/-- A die's ISO_N pin: high only where its Interlocking releases isolation, low where it holds it, none, undriven, while power-on reset
is held or the die is fenced (R97, R98). -/
def Hw.isoPin (h : Hw) (d : Nat) : Option Bool := if h.cold || (h.die d).fenced then none else some (h.flag ILK_STAT_ISO_REL d)

/-- A die's CALF pin: none, high impedance, while CAL_EXT_CFG.CALF_EN is 0 (R426), or the die gives nothing out; else its REF source, which
the ratio divider forms from AREFX, here by the microvolts that CAL_AREFX holds (R303). -/
def Hw.calfPin (h : Hw) (d : Nat) : Option Nat :=
  if h.cold || (h.die d).fenced || !h.flag CAL_EXT_CFG_CALF_EN d then none else some (h.get CAL_AREFX_UV d)

/-- A head die's XRST_N pin: low from power-on reset until step 4 of start-up (R436), high after; none, undriven, where the die is fenced
(R68). -/
def Hw.xrstPin (h : Hw) (d : Nat) : Option Bool := if (h.die d).fenced then none else some (!h.cold && decide (4 ≤ h.get STN_BOOT_STEP 0))

/-- RESET_n of a head die's DDR5 channel: low from power-on reset until its training begins (R435), high after; none where the die is fenced. -/
def Hw.ddrResetPin (h : Hw) (d : Nat) : Option Bool := if (h.die d).fenced then none else some (!h.cold && (h.die d).ddrCfg.isSome)

/-- A decimator output from its filter sum and dc gain (R154), saturated as R3 states. -/
def decOut (corr : Int → Int) (y : Int) (g : Nat) : Int := satM (sat32 (corr (rdiv (y * 2 ^ 31) (12 * g))))

/-- A loop decimator's filter sum: sinc3 of ratio D_L, over the levels that end at the tick (R154, R155). -/
def loopSum (p : Nat) (lv : List Int) : Int := filterSum (sincH 3 (p / 4)) lv

/-- The gain index and range-word index a path of a unit uses: path 0 VS, 1 IS, 2 SH. -/
def Hw.pathSet (h : Hw) (u path : Nat) : Nat × Nat :=
  match path with
  | 0 => ((h.vent u (h.vrng u)).gain, 188 + 2 * h.vrng u)
  | 1 => ((h.ient u (h.unit u).rng.isSet).gain, 156 + 2 * (h.unit u).rng.isSet)
  | _ => ((h.ient u (h.get U_RANGE_STAT_SH_RNG u)).gain, 156 + 2 * h.get U_RANGE_STAT_SH_RNG u)

/-- A corrected path value of a unit (R294: a siding's converter words, the channel's own range words). -/
def Hw.pathOut (h : Hw) (u path : Nat) (y : Int) (g : Nat) : Int :=
  let p := h.pathSet u path
  decOut (h.corr (h.convOf u) path p.1 u p.2) y g

/-- What identifies the correction sets of a path: of every unit whose measurement makes it up, the converters in use and the change counters
it draws on (R169, R296). -/
def Hw.calId (h : Hw) (u path : Nat) : List (Nat × Nat × Nat) :=
  (Hw.pathFrom 5 h u path).map (fun m => let c := if isPlain m then h.convOf m else m; (c, h.cset c path, h.cset m path))

/-! ### Ceilings and setpoints (R103, R187, R338, R339) -/

/-- A range index that acts as the highest where it is above the table. -/
def Hw.capI (h : Hw) (u i : Nat) : Nat := min i (h.get U_RTAB_PTR_NI_M1 u)
/-- A voltage range index that acts as the highest where it is above the table. -/
def Hw.capV (h : Hw) (u j : Nat) : Nat := min j (h.get U_RTAB_PTR_NV_M1 u)

/-- The ceiling codes of a channel or siding on its ranges in force: voltage, current, power (R339). -/
def Hw.ceil1 (h : Hw) (u : Nat) : Int × Int × Int :=
  let top := fun (x : Int) => min x (2 ^ 31 - 1)
  let src := u
  let code := fun (f : Fld) => top (h.get f src)
  let v := h.convV u (code U_CEIL_V_CODE) (h.capV u (h.get U_CEIL_RNG_VR src)) (h.vrng u)
  let i := h.convI u (code U_CEIL_I_CODE) (h.capI u (h.get U_CEIL_RNG_IR src)) (h.irng u)
  let p := h.convI u (code U_CEIL_P_CODE) (h.capI u (h.get U_CEIL_RNG_PIR src)) (h.irng u)
  let p := h.convV u p (h.capV u (h.get U_CEIL_RNG_PVR src)) (h.vrng u)
  (top v, top i, top p)

/-- The least of the codes over a unit's channels; a consist uses the least of its members' (R339). -/
def Hw.ceils (h : Hw) (u : Nat) : Int × Int × Int :=
  ((h.leaves u).map h.ceil1).foldl (fun a b => (min a.1 b.1, min a.2.1 b.2.1, min a.2.2 b.2.2))
    (2 ^ 31 - 1, 2 ^ 31 - 1, 2 ^ 31 - 1)

/-- The written setpoint of limit law `k` converted to the ranges in force (R187). -/
def Hw.spConv (h : Hw) (u k : Nat) : Int :=
  let fi := h.get U_MODE_MODE u == 1
  let cnv := fun (x : Int) (r : Nat) => if fi then h.convV u x (h.capV u r) (h.vrng u) else h.convI u x (h.capI u r) (h.irng u)
  match k with
  | 1 => if h.flag U_SP_RNG_SP1F u then h.code U_LIM_SP1_CODE u else cnv (h.code U_LIM_SP1_CODE u) (h.get U_SP_RNG_SP1R u)
  | 2 => if h.flag U_SP_RNG_SP2F u then h.code U_LIM_SP2_CODE u else cnv (h.code U_LIM_SP2_CODE u) (h.get U_SP_RNG_SP2R u)
  | _ =>
    let s3 := max 0 (h.code U_LIM_SP3_CODE u)
    let s3 := if h.flag U_SP_RNG_SP3IF u then s3 else h.convI u s3 (h.capI u (h.get U_SP_RNG_SP3IR u)) (h.irng u)
    if h.flag U_SP_RNG_SP3VF u then s3 else h.convV u s3 (h.capV u (h.get U_SP_RNG_SP3VR u)) (h.vrng u)

/-- The converted setpoints clamped to the ceiling codes in hand, and U_CEIL_EFF (R103, R339). -/
def Hw.clampSp (h : Hw) (u : Nat) : Hw :=
  let x := (h.unit u).law
  let fi := h.get U_MODE_MODE u == 1
  let lim := if fi then x.cv else x.ci
  (h.modU u (fun y => { y with law := { y.law with sp1 := clampTo lim x.c1, sp2 := clampTo lim x.c2, sp3 := min x.cp x.c3 } })).putC
    U_CEIL_EFF_CODE u (if fi then x.ci else x.cv)

/-- The setpoints of the limit laws named derived from what is written and from the range table as it stands; the others keep the
values derived before (R187, R448). -/
def Hw.deriveSp (h : Hw) (u : Nat) (l : List Nat) : Hw :=
  (h.modU u (fun y => { y with law := { y.law with
    c1 := if l.contains 1 then h.spConv u 1 else y.law.c1
    c2 := if l.contains 2 then h.spConv u 2 else y.law.c2
    c3 := if l.contains 3 then h.spConv u 3 else y.law.c3 } })).clampSp u

/-- The setpoints of the three limit laws derived. -/
def Hw.recalcSp (h : Hw) (u : Nat) : Hw := h.deriveSp u [1, 2, 3]

/-- The ceiling codes derived on the ranges in force (R339), and the setpoints clamped to them. -/
def Hw.recalcCeil (h : Hw) (u : Nat) : Hw :=
  let (cv, ci, cp) := h.ceils u
  (h.modU u (fun x => { x with law := { x.law with cv := cv, ci := ci, cp := cp } })).clampSp u

/-- The codes derived from the range table, computed again where a range in force changes (R187, R339, R448): ceilings, setpoints,
U_CEIL_EFF. -/
def Hw.recalc (h : Hw) (u : Nat) : Hw := (h.recalcCeil u).recalcSp u

/-! ### Addresses (R43, R58 to R61) -/

/-- Where a 40-bit station address leads. -/
inductive Place where
  /-- A register word: its block, the block's instance and the byte offset within it. -/
  | reg (b : Blk) (inst off : Nat)
  /-- A byte range of a memory aperture that exists. -/
  | mem
  /-- Inside the register region, in no range of R58 and R59, or of an absent or fenced die: reads 0, no error. -/
  | hole
  /-- Reads 0, ignores writes, and the transport reports an access error (R60). -/
  | bad
deriving DecidableEq, Repr

/-- An offset within a die region (R59). -/
def placeDie (d o : Nat) : Place :=
  if o < 0x10000 then .reg .die d o
  else if o < 0x10000 + 34 * 0x800 then
    let w := (o - 0x10000) / 0x800
    .reg .unit (if w < 32 then d * 32 + w else 256 + d * 2 + (w - 32)) ((o - 0x10000) % 0x800)
  else if 0x40000 ≤ o ∧ o < 0x48000 then .reg .eng (d * 8 + (o - 0x40000) / 0x1000) ((o - 0x40000) % 0x1000)
  else if 0x50000 ≤ o ∧ o < 0x54000 then .reg .queue (d * 64 + (o - 0x50000) / 0x100) ((o - 0x50000) % 0x100)
  else if 0x60000 ≤ o ∧ o < 0x70000 then
    if 0x60100 ≤ o ∧ o < 0x60400 then .reg .sens (d * 12 + (o - 0x60100) / 0x40) ((o - 0x60100) % 0x40)
    else .reg .die d o
  else if 0x70000 ≤ o ∧ o < 0x80000 then .reg .die d o
  else if 0x80000 ≤ o ∧ o < 0x90000 then
    if 0x82000 ≤ o ∧ o < 0x82000 + 34 * 0x400 then
      let w := (o - 0x82000) / 0x400
      .reg .cset (if w < 32 then d * 32 + w else 256 + d * 2 + (w - 32)) ((o - 0x82000) % 0x400)
    else .reg .die d o
  else if 0x90000 ≤ o ∧ o < 0xA0000 then
    if 0x90100 ≤ o ∧ o < 0x90300 then .reg .cap (d * 8 + (o - 0x90100) / 0x40) ((o - 0x90100) % 0x40)
    else .reg .die d o
  else .hole

/-- Sizes of the SRAM partitions by aperture 1 to 6 (R16, R58). -/
def sramSize (k : Nat) : Nat :=
  match k with
  | 1 => 0x80000 | 2 => 0x80000 | 3 => 0x40000 | 4 => 0x60000 | 5 => 0x40000 | 6 => 0x20000 | _ => 0

/-- Where a register address leads (R58). -/
def Hw.placeReg (h : Hw) (a : Nat) : Place :=
  if a < 0x10000 then
    if 0x8000 ≤ a ∧ a < 0x8100 then .reg .port ((a - 0x8000) / 0x40) ((a - 0x8000) % 0x40)
    else if 0xA000 ≤ a ∧ a < 0xA200 then .reg .eth ((a - 0xA000) / 0x100) ((a - 0xA000) % 0x100)
    else .reg .stn 0 a
  else if 0x100000 ≤ a ∧ a < 0x900000 then
    let d := (a - 0x100000) / 0x100000
    if h.dieUp d then placeDie d ((a - 0x100000) % 0x100000) else .hole
  else if 0x900000 ≤ a ∧ a < 0x980000 then .reg .unit (512 + (a - 0x900000) / 0x800) ((a - 0x900000) % 0x800)
  else if 0xA00000 ≤ a ∧ a < 0xA40000 then
    let g := (a - 0xA00000) / 0x400
    if h.dieUp (g / 32) then .reg .c32 g ((a - 0xA00000) % 0x400) else .hole
  else .hole

/-- Installed capacity of a DDR5 channel in bytes; 0 behind a fenced head die (R60). -/
def Hw.ddrCap (h : Hw) (c : Nat) : Nat := if h.dieUp c then h.get DDR_CAP_MIB c * 0x100000 else 0

/-- Where `n` bytes from a station address lead (R58 to R60). -/
def Hw.place (h : Hw) (a n : Nat) : Place :=
  if a < 0x1000000 then (if n = 4 ∧ a % 4 = 0 then h.placeReg a else .bad)
  else if a < 0x1000000000 then
    let k := a / 0x100000000; let o := a % 0x100000000
    let d := o / 0x100000
    if 1 ≤ k ∧ k ≤ 6 ∧ d < 8 then
      if o % 0x100000 + n ≤ sramSize k then (if h.dieUp d then .mem else .hole) else .bad
    else .bad
  else if a < 0x2000000000 then (if a - 0x1000000000 + n ≤ h.ddrCap 0 then .mem else .bad)
  else if a < 0x3000000000 then (if a - 0x2000000000 + n ≤ h.ddrCap 1 then .mem else .bad)
  else .bad

/-- The DDR5 channel an address lies in, if any. -/
def ddrChan (a : Nat) : Option Nat :=
  if 0x1000000000 ≤ a ∧ a < 0x2000000000 then some 0 else if 0x2000000000 ≤ a ∧ a < 0x3000000000 then some 1 else none

end Sys2Proof.Machine
end

