-- ==== Sys2Proof/Machine/Law.lean ====
section
/-! DEFINITION. The control engine (spec/04_control.md): section arithmetic, the four laws, arbitration, integrator
clamping, the bumpless initialisation, the share law, and the work of one period. -/

namespace Sys2Proof.Machine

/-- A second-order section: coefficients, their shifts and INTEG (R108). -/
structure Sec where
  b0 : Int
  b1 : Int
  b2 : Int
  a1 : Int
  a2 : Int
  sb0 : Int
  sb1 : Int
  sb2 : Int
  sa1 : Int
  sa2 : Int
  integ : Bool
deriving DecidableEq, Repr

/-- A section from its six words (R107, R108). -/
def secOf (w : Nat → Nat) : Sec :=
  { b0 := sx32 (w 0), b1 := sx32 (w 1), b2 := sx32 (w 2), a1 := sx32 (w 3), a2 := sx32 (w 4),
    sb0 := sxw 5 (bits (w 5) 4 0), sb1 := sxw 5 (bits (w 5) 9 5), sb2 := sxw 5 (bits (w 5) 14 10),
    sa1 := sxw 5 (bits (w 5) 19 15), sa2 := sxw 5 (bits (w 5) 24 20), integ := bit (w 5) 25 }

/-- Section `k` of law `l` of a unit's live set (R107). -/
def Hw.sec (h : Hw) (u l k : Nat) : Sec := secOf (fun w => h.get U_LAW_COEF_VALUE u (l * 48 + k * 6 + w))

/-- The share law's section (R129). -/
def Hw.shareSec (h : Hw) (u : Nat) : Sec := secOf (fun w => h.get U_SHARE_COEF_VALUE u w)

/-- A product at 47 fraction bits: shifted right by 15 − s, toward minus infinity (R109). -/
def term (c s v : Int) : Int := (c * v) / (2 ^ (15 - s).toNat : Nat)

/-- Rounding of the accumulator to 31 fraction bits (R109). -/
def rnd16 (a : Int) : Int := rdiv a (2 ^ 16)

/-- One period of a section: output and candidate new states (R109, R110). -/
def Sec.step (s : Sec) (x : Int) (z : Int × Int) : Int × Int × Int :=
  let y := sat32 (rnd16 (term s.b0 s.sb0 x + z.1 * 2 ^ 16))
  let z1 := sat32 (rnd16 (term s.b1 s.sb1 x - term s.a1 s.sa1 y + z.2 * 2 ^ 16))
  let z2 := sat32 (rnd16 (term s.b2 s.sb2 x - term s.a2 s.sa2 y))
  (y, z1, z2)

/-- A cascade of sections from `k` on, `n` of them: the output and the candidate states (R111). -/
def cascade (sec : Nat → Sec) (z : Nat → Int × Int) (k : Nat) (x : Int) : Nat → Int × List (Nat × Int × Int)
  | 0 => (x, [])
  | n + 1 =>
    let (y, z1, z2) := (sec k).step x (z k)
    let r := cascade sec z (k + 1) y n
    (r.1, (k, z1, z2) :: r.2)

/-- A law's key in the table of law states. -/
def zKey (l k : Nat) : Nat := l * 8 + k

/-- The state of a section of a unit's law. -/
def Hw.zOf (h : Hw) (u l k : Nat) : Int × Int := tget (h.unit u).law.z (zKey l k) (0, 0)

/-- Sections computed (R111). -/
def Hw.nsec (h : Hw) (u l : Nat) : Nat :=
  let n := h.get U_LAW_CFG_NSEC u l
  if n = 0 then 1 else min n 8

/-- A law is enabled; the primary always is (R105). -/
def Hw.lawEn (h : Hw) (u l : Nat) : Bool := l == 0 || h.flag U_LAW_CFG_EN u l

/-- The product of voltage and current codes (R104). -/
def powerOf (v i : Int) : Int := sat32 (rdiv (v * i) (2 ^ 31))

/-- The power setpoint after derating (R104). -/
def Hw.pEff (h : Hw) (u : Nat) : Int := rdiv ((h.unit u).law.sp3 * (h.get U_PWL_DERATE_D u : Int)) (2 ^ 16)

/-- The error of law `l` (R101). -/
def Hw.lawErr (h : Hw) (u l : Nat) (rs v i : Int) : Int :=
  let fi := h.get U_MODE_MODE u == 1
  let s := (h.unit u).law
  match l with
  | 0 => sat32 (rs - (if fi then i else v))
  | 1 => sat32 (s.sp1 - (if fi then v else i))
  | 2 => sat32 (s.sp2 - (if fi then v else i))
  | _ => sat32 (h.pEff u - iabs (powerOf v i))

/-- The lower bound of a law; the power law's is at least 0 (R111). -/
def Hw.lawLo (h : Hw) (u l : Nat) : Int :=
  let lo := h.code U_LAW_LO_CODE u l
  if l = 3 then max lo 0 else lo

/-- The result of one law's computation. -/
structure LawOut where
  en : Bool := false
  e : Int := 0
  /-- Raw output y_l, and clamped output c_l. -/
  y : Int := 0
  c : Int := 0
  /-- States at the start of the period, and candidate states. -/
  z0 : List (Nat × Int × Int) := []
  zn : List (Nat × Int × Int) := []
deriving DecidableEq, Repr

/-- The states a law starts the first closed period from (R125): zero but for the last section's z1. -/
def Hw.lawInit (h : Hw) (u l : Nat) (e g : Int) : Nat → Int × Int :=
  let n := h.nsec u l
  let x := (cascade (h.sec u l) (fun _ => (0, 0)) 0 e (n - 1)).1
  let s := h.sec u l (n - 1)
  let z1 := sat32 (g - rnd16 (term s.b0 s.sb0 x))
  fun k => if k = n - 1 then (z1, 0) else (0, 0)

/-- One law of a period (R101, R109, R111, R125). `hold` is the hold value while the initialisation applies. -/
def Hw.lawOut (h : Hw) (u l : Nat) (rs v i ffv : Int) (hold : Option Int) : LawOut :=
  if h.lawEn u l then
    let e := h.lawErr u l rs v i
    let z : Nat → Int × Int :=
      match hold with
      | none => h.zOf u l
      | some g => h.lawInit u l e (if l = 0 then sat32 (g - ffv) else if l = 3 then iabs g else g)
    let r := cascade (h.sec u l) z 0 e (h.nsec u l)
    let y := if l = 0 then sat32 (r.1 + ffv) else r.1
    let lo := h.lawLo u l
    let hi := h.code U_LAW_HI_CODE u l
    { en := true, e := e, y := y, c := if hi < lo then lo else max lo (min y hi),
      z0 := (List.range 8).map (fun k => (k, (z k).1, (z k).2)), zn := r.2 }
  else {}

/-- Arbitration: the output and the winning law (R115). -/
def arbitrate (o0 o1 o2 o3 : LawOut) : Int × Nat :=
  let (x, w) := (o0.c, 0)
  let (x, w) := if o1.en && decide (o1.c < x) then (o1.c, 1) else (x, w)
  let (x, w) := if o3.en && decide (0 ≤ o0.c) && decide (o3.c < x) then (o3.c, 3) else (x, w)
  let (x, w) := if o2.en && decide (x < o2.c) then (o2.c, 2) else (x, w)
  if o3.en && decide (o0.c < 0) && decide (x < -o3.c) then (-o3.c, 3) else (x, w)

/-- Whether law `l` is clamped in the directions +1 and −1 (R117, R118). `x` is the arbitrated output, `dc` the sign of the
drive clamp where it changed it. -/
def Hw.clampDir (h : Hw) (u l : Nat) (o : LawOut) (c0 x : Int) (win : Nat) (dc : Int) : Bool × Bool :=
  let tr : Int := h.get U_LAW_TRACK_CODE u l
  let lose := win != l
  let minSt := (l == 0 && decide (x < o.c)) || l == 1 || (l == 3 && decide (0 ≤ c0))
  let maxSt := (l == 0 && decide (o.c < x)) || l == 2
  let mir := l == 3 && decide (c0 < 0)
  let hi := decide (h.code U_LAW_HI_CODE u l ≤ o.y) || (lose && minSt && decide (tr < o.c - x))
    || (lose && mir && decide (tr < o.c + x)) || (win == l && decide (0 < dc))
  let lo := decide (o.y ≤ h.lawLo u l) || (lose && maxSt && decide (tr < x - o.c)) || (win == l && decide (dc < 0))
  (hi, lo)

/-- The new state of a section of a clamped law (R119). -/
def clampState (integ : Bool) (dir : Bool × Bool) (z zn : Int × Int) : Int × Int :=
  if integ && ((dir.1 && dir.2) || (dir.1 && decide (0 < zn.1 - z.1)) || (dir.2 && decide (zn.1 - z.1 < 0))) then z else zn

/-- The candidate law states of one law after clamping (R119, R120). Under the initialisation every state of an enabled law
starts from it. -/
def Hw.lawStates (h : Hw) (u l : Nat) (o : LawOut) (dir : Bool × Bool) (init : Bool) (z : Tab Nat (Int × Int)) :
    Tab Nat (Int × Int) :=
  if o.en then
    let z := if init then o.z0.foldl (fun t p => tset t (zKey l p.1) p.2) z else z
    o.zn.foldl (fun t p =>
      let z0 := tget o.z0 p.1 (0, 0)
      tset t (zKey l p.1) (clampState (h.sec u l p.1).integ dir z0 p.2)) z
  else z

/-- The drive clamp limit L (R89). -/
def Hw.drvLim (h : Hw) (u : Nat) : Int := min (h.get U_DRV_LIM_CODE u) 0x7FFFFFFF

/-- The sign of the drive clamp on a code: 0 where it changes nothing (R117, R118). -/
def clampSign (l x : Int) : Int := if l < x then 1 else if x < -l then -1 else 0

/-- The work of a period computed by the laws (R101 to R120, R125): `v`, `i` the feedback, `rs` the slewed reference. -/
def Hw.lawWork (h : Hw) (u : Nat) (rs v i : Int) (hold : Option Int) : Work :=
  let ffv := h.ff u rs
  let o := fun l => h.lawOut u l rs v i ffv hold
  let o0 := o 0; let o1 := o 1; let o2 := o 2; let o3 := o 3
  let (x, win) := arbitrate o0 o1 o2 o3
  let lim := h.drvLim u
  let dc := clampSign lim x
  let upd := fun (z : Tab Nat (Int × Int)) (l : Nat) (ol : LawOut) =>
    h.lawStates u l ol (h.clampDir u l ol o0.c x win dc) hold.isSome z
  let z := upd (upd (upd (upd (h.unit u).law.z 0 o0) 1 o1) 2 o2) 3 o3
  let node := fun (t : Tab Nat Int) (l : Nat) (ol : LawOut) =>
    if ol.en then tset (tset (tset t (0x08 + l) ol.y) (0x0C + l) ol.c) (0x12 + l) ol.e else t
  let nodes := node (node (node (node (h.unit u).law.nodes 0 o0) 1 o1) 2 o2) 3 o3
  { drive := clampTo lim x, limited := dc != 0, win := win, z := z, closed := true,
    zs := (h.unit u).law.zs, nodes := tset (tset nodes 0x06 ffv) 0x10 x }

/-- The share law of a coupled member (R129): correction, new states, drive, and whether the drive clamp changed it. -/
def Hw.shareWork (h : Hw) (u : Nat) (cOut target own : Int) : Work :=
  let s := h.shareSec u
  let z := (h.unit u).law.zs
  let e := sat32 (target - own)
  let (y, z1, z2) := s.step e z
  let lim : Int := h.get U_SHARE_LIM_CODE u
  let corr := clampTo lim y
  let x := sat32 (cOut + corr)
  let dl := h.drvLim u
  let dc := clampSign dl x
  let dir := (decide (lim ≤ y) || decide (0 < dc), decide (y ≤ -lim) || decide (dc < 0))
  { drive := clampTo dl x, limited := dc != 0, win := h.get U_STATE_WIN u,
    z := (h.unit u).law.z, zs := clampState s.integ dir z (z1, z2), corr := corr, closed := true,
    nodes := tset (h.unit u).law.nodes 0x16 corr }

/-- A work that commits a given code, past the drive clamp (R89, R93). -/
def Hw.codeWork (h : Hw) (u : Nat) (d : Int) : Work :=
  let lim := h.drvLim u
  { drive := clampTo lim d, limited := clampSign lim d != 0, z := (h.unit u).law.z,
    zs := (h.unit u).law.zs, corr := h.code U_SHARE_CORR_CODE u, nodes := (h.unit u).law.nodes }

/-- A code moved toward a target by at most a rate (R86). -/
def slewStep (t r rise fall : Int) : Int := if r < t then r + min (t - r) rise else r - min (r - t) fall

/-- The rates of a tick (R87). -/
def Hw.rates (h : Hw) (u : Nat) : Int × Int :=
  let cap : Int := h.get U_SLEW_CAP_RATE u
  let x := h.unit u
  if x.safe.ramp then (min (h.get U_SLEW_SAFE_RATE u) cap, min (h.get U_SLEW_SAFE_RATE u) cap)
  else match x.ref.ovr with
    | some o => (min o cap, min o cap)
    | none => (min (h.get U_SLEW_RISE_RATE u) cap, min (h.get U_SLEW_FALL_RATE u) cap)

/-- One step of the open-loop ramp to zero (R88). -/
def Hw.rampDrive (h : Hw) (u : Nat) : Int :=
  let r : Int := min (h.get U_SLEW_SAFE_RATE u) (h.get U_SLEW_CAP_RATE u)
  slewStep 0 (if (h.unit u).safe.fromHold then h.code U_DRV_HOLD_CODE u else h.code U_DRV_CODE_CODE u) r r

/-- The measurement of the quantity a consist shares (R46): current in a parallel consist, voltage in a series one. That the current is
i_fb, from which the member's LEAK is subtracted, is the model's choice (notes/assumptions/74.md). -/
def Hw.ownShare (h : Hw) (c m : Nat) : Int :=
  if h.get U_CONSIST_CFG_TYPE c == 0 then (h.unit m).smp.iFb else (h.unit m).smp.v

/-- The share target that a consist hands its members (R46): what it was handed itself, where it is a member of a consist of its TYPE, else
its own measurement. That a nested consist whose TYPE differs from its parent's, which shares another quantity, hands down its own
measurement is the model's choice (notes/assumptions/75.md). -/
def Hw.shareTgt (h : Hw) (c : Nat) : Int :=
  let same := if h.isFollower c then (h.unit c).cons.ser == (h.get U_CONSIST_CFG_TYPE c == 1)
    else h.isMember c && h.get U_CONSIST_CFG_TYPE (h.headOf1 c) == h.get U_CONSIST_CFG_TYPE c
  if same then (h.unit c).cons.share else h.ownShare c c

/-- A unit's own sense-lead watch or frozen detector has raised lost feedback that is not cleared (R138, R144). -/
def Hw.lostOwn (h : Hw) (u : Nat) : Bool := bit (h.get U_FAULT_MAP_MAP u) 2 || bit (h.get U_FAULT_MAP_MAP u) 3

/-- A member's work: its share law's, or, on its own feedback known to be bad, the consist output with the correction it had, since no drive
follows such feedback (R138; that the correction stays is the model's choice, notes/assumptions/86.md). -/
def Hw.memberWork (h : Hw) (m : Nat) (out target own : Int) : Work :=
  if h.lostOwn m then { h.codeWork m (sat32 (out + h.code U_SHARE_CORR_CODE m)) with closed := true } else h.shareWork m out target own

/-- The members of a consist that has lost feedback at this tick repeat their drive (R138). -/
def Hw.holdMembers (h : Hw) (c : Nat) : Hw :=
  h.each ((h.tree c).drop 1) (fun h m => h.modU m (fun x => { x with law := { x.law with work := some (h.codeWork m (h.code U_DRV_CODE_CODE m)) } }))

/-- The work of the members of a consist handed an output and a share target, level by level (R46, R53, R129). -/
def Hw.planMembers : Nat → Hw → Nat → Int → Int → Hw
  | 0, h, _, _, _ => h
  | f + 1, h, c, out, target =>
    h.each (h.locals c) (fun h m =>
      let w := h.memberWork m out target (h.ownShare c m)
      let h := h.modU m (fun x => { x with law := { x.law with work := some w },
                                            cons := { x.cons with cOut := out, share := target } })
      if isConsist m then Hw.planMembers f h m w.drive (h.shareTgt m) else h)

/-- The drive code of the contact check for the period (R328). -/
def Hw.checkCode (h : Hw) (u : Nat) : Int :=
  let c := (h.unit u).chk
  if c.phase == 4 && decide (c.k < c.n) then (if decide (c.k < c.n / 2) then c.a else -c.a) else 0

/-- The work of a unit's period from its present state (R70 step 3, R88, R93, R95, R121). A local member's is planned
with its consist's. -/
def Hw.workOf (h : Hw) (u : Nat) : Option Work :=
  let x := h.unit u
  let st := h.st u
  let rs := h.code U_REF_SLEWED_CODE u
  if st == stISOLATED || h.faultIso u then none
  else if st == stCHECKING then some (h.codeWork u (h.checkCode u))
  else if h.isFollower u && !x.safe.direct && x.flt.later.isNone && (h.onLoad u || x.safe.mirr) then some (h.memberWork u x.cons.cOut x.cons.share (if x.cons.ser then x.smp.v else x.smp.iFb))
  else if x.safe.direct then some (h.codeWork u (h.code U_DRV_CODE_CODE u))
  else if h.flag U_STATE_LOOP u then some (h.lawWork u rs x.smp.v x.smp.iFb x.law.init)
  else if x.safe.ramp then
    some (h.codeWork u (if x.safe.wait = 0 then h.rampDrive u else h.code U_DRV_CODE_CODE u))
  else if st == stFAULTED then some (h.codeWork u (h.code U_DRV_HOLD_CODE u))
  else some (h.codeWork u (if h.get U_MODE_OLSRC u == 1 then rs else h.code U_DRV_HOLD_CODE u))

/-- The period's work planned (again) from the present state; a consist's with its members'. -/
def Hw.plan (h : Hw) (u : Nat) : Hw :=
  if h.localMember u then h
  else
    let w := h.workOf u
    let h := h.modU u (fun x => { x with law := { x.law with work := w } })
    if isConsist u then
      match w with
      | none => h.each (h.leaves u) (fun h m => h.modU m (fun x => { x with law := { x.law with work := none } }))
      | some w =>
        if h.st u == stCHECKING then
          h.each (h.leaves u) (fun h m => h.modU m (fun x => { x with law := { x.law with work := some (h.codeWork m (h.checkCode m)) } }))
        else if (h.unit u).flt.later.isSome then h.holdMembers u
        else Hw.planMembers 5 h u w.drive (h.shareTgt u)
    else h

end Sys2Proof.Machine
end

