-- ==== Sys2Proof/Machine/Bins.lean ====
section
/-! DEFINITION. Bins and the records their closes produce (R164 to R173, R268 to R270). -/

namespace Sys2Proof.Machine

/-- The engine bound to a unit, by engine number over the station, if any (R210). -/
def Hw.engOf (h : Hw) (u : Nat) : Option Nat :=
  ((List.range 8).map (fun e => h.dieOf u * 8 + e)).find? (fun e => h.flag TT_BIND_VALID e && h.get TT_BIND_UNIT e == u)

/-- A bin beside its registers. -/
def Hw.bin (h : Hw) (u b : Nat) : BinS := tget (h.unit u).bins b {}

/-- A bin is open. -/
def Hw.binOpen (h : Hw) (u b : Nat) : Bool := h.get U_BIN_STATE u b == 1

/-- Some bin of the unit is open. -/
def Hw.anyOpen (h : Hw) (u : Nat) : Bool := (List.range 4).any (fun b => h.binOpen u b)

/-- The range identity of a quantity: for power the pair of ranges (R167), for SH the entry SH converts. -/
def Hw.rngId (h : Hw) (u qty : Nat) : Nat :=
  match qty with
  | 0 => h.vrng u
  | 1 => h.irng u
  | 2 => h.vrng u * 16 + h.irng u
  | _ => h.get U_RANGE_STAT_SH_RNG u

/-- The range a bin's word 12 reports for a range identity: for power the current range (R167). -/
def rngShown (qty r : Nat) : Nat := if qty = 2 then r % 16 else r

/-- The identity of the correction set of a bin's path (R169, R296); power uses voltage and current. -/
def Hw.binCal (h : Hw) (u qty : Nat) : List (Nat × Nat × Nat) :=
  match qty with
  | 0 => h.calId u 0
  | 1 => h.calId u 1
  | 2 => h.calId u 0 ++ h.calId u 1
  | _ => h.calId u 2

/-- The combination of quantity and rate a bin refuses (R162, R164). -/
def Hw.badSrc (h : Hw) (u qty rate : Nat) : Bool :=
  rate == 0 && (qty == 2 || Hw.noMeas 5 h u (if qty = 0 then 0 else 1))

/-- A bin opened at loop tick `a` (R164, R169). A coupled member's bins do not open (R50). -/
def Hw.openBin (h : Hw) (u b a : Nat) : Hw :=
  if h.isMember u then h
  else
    let qty := h.get U_BIN_SRC_QTY u b
    let rate := h.get U_BIN_SRC_RATE u b
    let src := qty + 4 * rate + 8 * h.get U_BIN_SRC_XOVR u b + 16 * h.get U_BIN_SRC_WHOLE u b + 32 * h.get U_BIN_SRC_RCHG u b
    let cal := h.binCal u qty
    let old := (h.bin u b).cal
    let h := h.put U_BIN_COUNT u 0 b
    let h := h.put U_BIN_SUM u 0 b
    let h := h.put U_BIN_SUMSQ u 0 b
    let h := h.put U_BIN_MIN u 0x7FFFFFFF b
    let h := h.put U_BIN_MAX u 0x80000001 b
    let h := h.put U_BIN_T_FIRST u 0 b
    let h := h.put U_BIN_T_LAST u 0 b
    let h := h.put U_BIN_LAST u 0 b
    let h := h.put U_BIN_OVR u 0 b
    let h := h.put U_BIN_ROUT u 0 b
    let h := h.put U_BIN_COMPL u 0 b
    let h := h.put U_BIN_UNDERRUN u 0 b
    let h := h.put U_BIN_RANGE_OPEN u (rngShown qty (h.rngId u qty)) b
    let h := h.put U_BIN_RCHG_SEEN u 0 b
    let h := h.putB U_BIN_CAL_NEW u (old != some cal) b
    let h := h.put U_BIN_CAL_MID u 0 b
    let h := h.put U_BIN_SIDED u 0 b
    let h := h.put U_BIN_RESTARTED u 0 b
    let h := h.put U_BIN_SAT u 0 b
    let h := h.putB U_BIN_BADSRC u (h.badSrc u qty rate) b
    let h := h.put U_BIN_STATE u 1 b
    h.modU u (fun x => { x with bins := tset x.bins b { closed := (h.bin u b).closed, a := a, src := src, rOpen := h.rngId u qty, cal := old, calOpen := cal } })

/-- A sample offered to a bin (R164 to R167): its value, instant, window start, range identity, over-range flag,
compliance mark, and whether it came from a siding's converters. -/
def Hw.offer (h : Hw) (u b : Nat) (s : Int) (t w rng : Nat) (flagged marked sided : Bool) : Hw :=
  let x := h.bin u b
  let qty := x.src % 4
  if !h.binOpen u b || decide (t ≤ x.a) || h.flag U_BIN_BADSRC u b then h
  else if bit x.src 4 && decide (w < x.a) then h
  else if rng != x.rOpen && !bit x.src 5 then h.incSat U_BIN_ROUT u b
  else
    let h :=
      if rng != x.rOpen then
        let h := h.put U_BIN_ROUT u (satAdd 0xFFFF (h.get U_BIN_ROUT u b) (h.get U_BIN_COUNT u b)) b
        let h := h.put U_BIN_COUNT u 0 b
        let h := h.put U_BIN_SUM u 0 b
        let h := h.put U_BIN_SUMSQ u 0 b
        let h := h.put U_BIN_MIN u 0x7FFFFFFF b
        let h := h.put U_BIN_MAX u 0x80000001 b
        let h := h.put U_BIN_T_FIRST u 0 b
        let h := h.put U_BIN_T_LAST u 0 b
        let h := h.put U_BIN_LAST u 0 b
        let h := h.put U_BIN_OVR u 0 b
        let h := h.put U_BIN_COMPL u 0 b
        let h := h.put U_BIN_RANGE_OPEN u (rngShown qty rng) b
        let h := h.put U_BIN_RCHG_SEEN u 1 b
        h.modU u (fun y => { y with bins := tset y.bins b { x with rOpen := rng } })
      else h
    let h := if flagged then h.incSat U_BIN_OVR u b else h
    let h := if marked then h.incSat U_BIN_COMPL u b else h
    if flagged && bit x.src 3 then h
    else if h.get U_BIN_COUNT u b == 0xFFFFFFFF then h.put U_BIN_SAT u 1 b
    else
      let n := h.get U_BIN_COUNT u b + 1
      let h := h.put U_BIN_COUNT u n b
      let h := h.put U_BIN_SUM u (toW 64 (sxw 64 (h.get U_BIN_SUM u b) + s)) b
      let h := h.put U_BIN_SUMSQ u (h.get U_BIN_SUMSQ u b + (s * s).toNat) b
      let h := h.putC U_BIN_MIN u (min (h.code U_BIN_MIN u b) s) b
      let h := h.putC U_BIN_MAX u (max (h.code U_BIN_MAX u b) s) b
      let h := if n = 1 then h.put U_BIN_T_FIRST u t b else h
      let h := h.put U_BIN_T_LAST u t b
      let h := h.putC U_BIN_LAST u s b
      if sided then h.put U_BIN_SIDED u 1 b else h

/-- The statistic STAT of a bin's closed contents (R173, R254). -/
def binStat (c : BinC) (stat : Nat) : Int :=
  match stat with
  | 0 => tdiv c.sum c.count
  | 1 => c.mn
  | 2 => c.mx
  | _ => c.lastv

/-- The contents of a bin, as they stand. -/
def Hw.binContents (h : Hw) (u b : Nat) : BinC :=
  let x := h.bin u b
  { count := h.get U_BIN_COUNT u b, sum := sxw 64 (h.get U_BIN_SUM u b), mn := h.code U_BIN_MIN u b, mx := h.code U_BIN_MAX u b,
    lastv := h.code U_BIN_LAST u b, ovr := h.get U_BIN_OVR u b, under := h.get U_BIN_UNDERRUN u b,
    compl := h.get U_BIN_COMPL u b, rng := h.get U_BIN_RANGE_OPEN u b, qty := x.src % 4 }

/-- The 32 words of a record's 128-byte form at the closing tick `t` (R269); the FMT bits of word 0 are 0. -/
def Hw.recWords (h : Hw) (u b t : Nat) : List Nat :=
  let x := h.bin u b
  let qty := x.src % 4
  let rate := x.src / 4 % 2
  let eng := match h.engOf u with | some e => e % 8 | none => 0
  let lo := fun n : Nat => n % 2 ^ 32
  let hi := fun n : Nat => n / 2 ^ 32 % 2 ^ 32
  let flags := b2n (decide (0 < h.get U_BIN_COMPL u b)) + 2 * b2n (decide (0 < h.get U_BIN_OVR u b))
    + 4 * b2n (decide (0 < h.get U_BIN_UNDERRUN u b)) + 8 * h.get U_BIN_RESTARTED u b
    + 16 * b2n (h.flag U_BIN_CAL_NEW u b || h.flag U_BIN_CAL_MID u b) + 32 * h.get U_BIN_SIDED u b
  let sum := h.get U_BIN_SUM u b
  let sq := h.get U_BIN_SUMSQ u b
  let ornge := if qty = 0 then h.irng u else h.vrng u
  [ h.get TW_LINE_STAT_NUM 0 + u * 2 ^ 12 + eng * 2 ^ 22 + b * 2 ^ 25 + qty * 2 ^ 29 + rate * 2 ^ 31,
    (h.unit u).recSeq, lo t, hi t,
    flags + h.get U_BIN_SAT u b * 2 ^ 6 + h.get U_BIN_BADSRC u b * 2 ^ 7 + h.get U_BIN_RANGE_OPEN u b * 2 ^ 8
      + h.get U_BIN_RANGE_CLOSE u b * 2 ^ 12 + h.get U_BIN_UNDERRUN u b * 2 ^ 16 + h.get U_BIN_CAL_MID u b * 2 ^ 31,
    h.get U_BIN_COUNT u b, lo sum, hi sum, lo sq, hi sq, lo (sq / 2 ^ 64),
    h.get U_BIN_MIN u b, h.get U_BIN_MAX u b, h.get U_BIN_LAST u b,
    h.get U_BIN_OVR u b + h.get U_BIN_ROUT u b * 2 ^ 16, h.get U_BIN_COMPL u b,
    lo (h.get U_BIN_T_FIRST u b), hi (h.get U_BIN_T_FIRST u b), lo (h.get U_BIN_T_LAST u b), hi (h.get U_BIN_T_LAST u b),
    lo x.a, hi x.a, h.get U_REF_SLEWED_CODE u, h.get U_DRV_CODE_CODE u,
    h.get U_FAULT_FIRST u + h.get U_STATE_WIN u * 2 ^ 8 + h.get U_STATE_LOOP u * 2 ^ 10 + h.st u * 2 ^ 11 + ornge * 2 ^ 14,
    0, 0, 0, 0, 0, 0, 0 ]

/-- The record of a close routed by byte `b` of U_REC_CFG (R268, R270). -/
def Hw.routeRec (h : Hw) (u b t : Nat) : Hw :=
  let d := h.dieOf u
  let w := h.recWords u b t
  let h := h.modU u (fun x => { x with recSeq := (x.recSeq + 1) % 2 ^ 32 })
  if h.flag U_REC_CFG_EN u b then
    h.modD d (fun x => { x with recs := x.recs ++ [{ q := h.get U_REC_CFG_Q u b, unit := u, bin := b, tick := t, words := w }] })
  else h.inc DIE_REC_DISC_COUNT d

/-- A bin closed at tick `t`: a close of a bin that is not open does nothing (R171, R172). -/
def Hw.closeBin (h : Hw) (u b t : Nat) (restarted : Bool) : Hw :=
  if h.binOpen u b then
    let x := h.bin u b
    let qty := x.src % 4
    let h := h.put U_BIN_RANGE_CLOSE u (rngShown qty (h.rngId u qty)) b
    let h := h.put U_BIN_STATE u 2 b
    let h := if restarted then h.put U_BIN_RESTARTED u 1 b else h
    let h := h.modU u (fun y => { y with closedBin := true, bins := tset y.bins b { x with cal := some (h.binCal u qty), closed := some (h.binContents u b) } })
    h.routeRec u b t
  else h

/-- The bins of a mask closed, lowest first (R268). -/
def Hw.closeBins (h : Hw) (u m t : Nat) (restarted : Bool := false) : Hw :=
  h.each (bitIdx 4 m) (fun h b => h.closeBin u b t restarted)

/-- The bins of a mask opened. -/
def Hw.openBins (h : Hw) (u m t : Nat) : Hw := h.each (bitIdx 4 m) (fun h b => h.openBin u b t)

/-- CAL_MID of every open bin whose path's correction set took effect while it was open (R170). -/
def Hw.markCalMid (h : Hw) (u : Nat) : Hw :=
  h.each (List.range 4) (fun h b =>
    let x := h.bin u b
    if h.binOpen u b && decide (h.binCal u (x.src % 4) ≠ x.calOpen) then
      (h.put U_BIN_CAL_MID u 1 b).modU u (fun y => { y with bins := tset y.bins b { x with calOpen := h.binCal u (x.src % 4) } })
    else h)

end Sys2Proof.Machine
end

