-- ==== Sys2Proof/Machine/Corrections.lean ====
section
/-! DEFINITION. Correction sets taking effect (R296, R297), the outcome registers of calibration (R309), and the two-point range
calibration (R313, R314). -/

namespace Sys2Proof.Machine

/-- The paths whose correction a word of a set changes: 0 voltage, 1 current, 2 shadow, 3 drive (R293, R296). -/
def calPaths (w : Nat) : List Nat :=
  if w < 8 then []
  else if w < 152 then [(w - 8) / 48]
  else if w < 154 then [3]
  else if 156 ≤ w ∧ w < 188 then [1, 2]
  else if 188 ≤ w ∧ w < 196 then [0] else []

/-- CAL_LAST, CAL_LAST_TIME and CAL_CNT at the end of a visit (R309): channel or siding, outcome 0 to 2, reason. -/
def Hw.calEnd (h : Hw) (d ch outcome reason : Nat) : Hw :=
  let h := ((h.put CAL_LAST_CH d ch).put CAL_LAST_OUTCOME d outcome).put CAL_LAST_REASON d reason
  (h.put CAL_LAST_TIME_TICK d h.now).inc CAL_CNT_COUNT d outcome

/-- The correction words that wait for a channel or siding take effect at tick `n` (R296, R297): each path whose words change
counts in its PSEQ, TIME is the tick, and an outcome that waited for them is written. -/
def Hw.calApply (h : Hw) (u n : Nat) : Hw :=
  let l := (h.unit u).calPend
  let out := (h.unit u).calOut
  let d := ownDie u
  let g := h.each l (fun h x => h.put CAL_SET_WORD u x.2 x.1)
  let hit := (List.range 4).filter (fun p => l.any (fun x => (calPaths x.1).contains p && h.cset u x.1 != g.cset u x.1))
  let h := g
  let h := h.each hit (fun h p => h.inc CAL_SET_WORD u p)
  let h := if l.isEmpty then h else (h.put CAL_SET_WORD u (n % 2 ^ 32) 4).put CAL_SET_WORD u (n / 2 ^ 32) 5
  let blk := l.any (fun x => decide (8 ≤ x.1) && decide (x.1 < 152))
  let h := if l.isEmpty && !out then h else h.modU u (fun x => { x with
    calPend := [], calOut := false, blockAt := if blk then some n else x.blockAt })
  if out then h.calEnd d (chanOf u) 0 0 else h

/-- Words that wait for a unit's boundary, in place of those that waited (R297); a word that is not among the new ones stays. -/
def Hw.calWait (h : Hw) (u : Nat) (l : List (Nat × Nat)) (out : Bool) : Hw :=
  h.modU u (fun x => { x with calPend := x.calPend.filter (fun p => !l.any (fun q => q.1 == p.1)) ++ l, calOut := x.calOut || out })

/-! ### Two-point range calibration (R313) -/

/-- Division rounded half away from zero by a divisor of either sign; 0 by 0. -/
def rdivI (a b : Int) : Int := if 0 ≤ b then rdiv a b.toNat else rdiv (-a) b.natAbs

/-- A result of CAL_EXT_RANGE at point 1 from the two points (t0, y0) and (t1, y1) (R313, R314). -/
def Hw.extResult (h : Hw) (u qty rng : Nat) (t0 y0 t1 y1 : Int) : Hw :=
  let d := ownDie u
  let w := if qty = 1 then 156 + 2 * rng else 188 + 2 * (rng % 4)
  let roff := h.code CAL_SET_WORD u w
  let gain : Int := h.cset u (w + 1)
  let reading := fun (y : Int) => rdiv ((y - roff) * gain) (2 ^ 30)
  let dt := t1 - t0
  let dr := reading y1 - reading y0
  if 5 * iabs dt < 2 ^ 31 ∨ iabs dt < 100 * iabs (dr - dt) then h.calEnd d (chanOf u) 2 6
  else
    let g := rdivI (dt * 2 ^ 30) (y1 - y0)
    let o := y0 - rdivI (t0 * 2 ^ 30) g
    let free := h.flag CAL_EXT_CFG_FACTORY d || bit (h.cset u 6) 0
    if !free && decide ((h.get CAL_WIN_OFF d : Int) * 2 ^ 31 < iabs (o - roff) * 1000000) then h.calEnd d (chanOf u) 2 1
    else if !free && decide ((h.get CAL_WIN_GAIN d : Int) * gain < iabs (g - gain) * 1000000) then h.calEnd d (chanOf u) 2 2
    else
      let h := ((h.put CAL_LAST_CH d (chanOf u)).put CAL_LAST_OUTCOME d 3).put CAL_LAST_REASON d 0
      let h := h.calWait u [(w, u32 o), (w + 1, u32 g)] true
      if h.closed u then h else h.calApply u h.now

/-- A measurement output of a channel counts for the EXT_RANGE point in course: `y` is the corr() value before the range words. -/
def Hw.extPush (h : Hw) (u path : Nat) (y : Int) : Hw :=
  match (h.unit u).ext with
  | none => h
  | some (qty, rng, pt, t, ys) =>
    if qty ≠ path then h
    else
      let ys := y :: ys
      if ys.length < 16 then h.modU u (fun x => { x with ext := some (qty, rng, pt, t, ys) })
      else
        let d := ownDie u
        let m := rdiv (ys.foldl (· + ·) 0) 16
        let h := (h.modU u (fun x => { x with ext := none })).put CAL_CMD_BUSY d 0
        if pt = 0 then h.modU u (fun x => { x with ext0 := some (qty, rng, t, m) })
        else
          match (h.unit u).ext0 with
          | some (_, _, t0, y0) => (h.modU u (fun x => { x with ext0 := none })).extResult u qty rng t0 y0 t m
          | none => h

/-- CAL_CMD EXT_RANGE (R313): refused unless the channel is CONNECTED_OPEN or CLOSED on the range, with autorange off, and, for
point 1, point 0 has been taken on that range. -/
def Hw.extRange (h : Hw) (d pt : Nat) : Hw :=
    let busy := h.flag CAL_CMD_BUSY d
    let h := h.cond (!busy) (fun h => (h.put CAL_CMD_OP d 6).put CAL_CMD_PT d pt)
    let u := d * 32 + h.get CAL_EXT_CFG_CH d
    let qty := h.get CAL_EXT_CFG_QTY d
    let rng := h.get CAL_EXT_CFG_RNG d
    let on := if qty = 1 then h.irng u == rng else h.vrng u == rng
    let first := match (h.unit u).ext0 with | some (q, r, _, _) => q == qty && r == rng | none => false
    if (h.st u == stOPEN || h.st u == stCLOSED) && on && !h.flag U_RANGE_SEL_AR_EN u && (pt % 2 == 0 || first) then
      if busy then h.put CAL_CMD_RESULT d 4 else
      let h := (h.put CAL_CMD_RESULT d 0).put CAL_CMD_BUSY d 1
      h.modU u (fun x => { x with ext := some (qty, rng, pt % 2, h.code CAL_EXT_TRUE_VALUE d, []) })
    else h.put CAL_CMD_RESULT d 1

end Sys2Proof.Machine
end

