-- ==== Sys2Proof/Machine/Measure.lean ====
section
/-! DEFINITION. Measurement decimators, their outputs, and the C32-compatible window (R156 to R163, R175, R176). -/

namespace Sys2Proof.Machine

/-! ### Settings -/

/-- A decimator of a unit. -/
def Hw.mdec (h : Hw) (u path : Nat) : MdecS := tget (h.unit u).mdec path {}

/-- A decimator of a unit changed. -/
def Hw.modM (h : Hw) (u path : Nat) (f : MdecS → MdecS) : Hw :=
  h.modU u (fun x => { x with mdec := tset x.mdec path (f (tget x.mdec path {})) })

/-- The ratio a D field stands for: 0 is 16,777,216, and values below 32 act as 32. -/
def mdecD (d : Nat) : Nat := if d = 0 then 16777216 else max 32 d

/-- The order an N field stands for. -/
def mdecN (n : Nat) : Nat := if n = 0 then 1 else min n 5

/-- The settling window W in modulator clocks (R157). -/
def MdecS.window (m : MdecS) : Nat := if m.fir then (m.n + 15) * m.d / 4 else m.n * m.d

/-- The dc gain of the filter (R154, R156, R158). -/
def MdecS.dcGain (m : MdecS) : Nat := if m.fir then (m.d / 4) ^ m.n * 4 ^ 5 else m.d ^ m.n

/-- The pending bit of a path in U_MEAS_STAT. -/
def pendFld (path : Nat) : Fld := match path with | 0 => U_MEAS_STAT_VS_PEND | 1 => U_MEAS_STAT_IS_PEND | _ => U_MEAS_STAT_SH_PEND

/-- A write of U_MDEC_VS, U_MDEC_IS or U_MDEC_SH: pending until the next injection boundary (R159). -/
def Hw.mdecWrite (h : Hw) (u path val : Nat) : Hw :=
  let h := (h.put U_MDEC_D u (bits val 23 0) path).put U_MDEC_N u (bits val 26 24) path
  (h.put U_MDEC_FIR u (bits val 27 27) path).put (pendFld path) u 1

/-- A new setting of a path's decimator at tick `n`: it restarts, and where `n` is an output instant of the new setting, that
output is skipped and counted (R160); one of the old setting is counted as its held output is. -/
def Hw.mdecSet (h : Hw) (u path n d k : Nat) (fir : Bool) : Hw :=
  let h := if n % (4 * d) = 0 ∧ (h.mdec u path).pendOut.isNone then h.inc U_MEAS_GAP_COUNT u else h
  h.modM u path (fun x => { x with d := d, n := k, fir := fir, restart := some n })

/-- A ratio that the post-FIR refuses (R158). -/
def firBad (d : Nat) (fir : Bool) : Bool := fir && (d % 4 != 0 || decide (d < 128))

/-- A pending setting at an injection boundary: refused, already in force, or taken by the unit and every member, with a
restart (R158 to R160, R162). -/
def Hw.mdecApply (h : Hw) (u path n : Nat) : Hw :=
  if !h.flag (pendFld path) u then h
  else
    let h := h.put (pendFld path) u 0
    let d := mdecD (h.get U_MDEC_D u path)
    let k := mdecN (h.get U_MDEC_N u path)
    let fir := h.flag U_MDEC_FIR u path
    let m := h.mdec u path
    if firBad d fir then h.put U_MEAS_STAT_BAD u 1
    else if m.d = d ∧ m.n = k ∧ m.fir = fir then h
    else h.each (h.tree u) (fun h m => h.mdecSet m path n d k fir)

/-- The setting of a unit's own registers taken at tick `n` (a member leaving its consist, R49), where R158 admits it, or its consist's
(R162). -/
def Hw.mdecTake (h : Hw) (u src n : Nat) : Hw :=
  h.each (List.range 3) (fun h path =>
    let m := h.mdec src path
    let own := h.mdec u path
    let (d, k, fir) := if u = src then
        (mdecD (h.get U_MDEC_D u path), mdecN (h.get U_MDEC_N u path), h.flag U_MDEC_FIR u path)
      else (m.d, m.n, m.fir)
    if u = src ∧ firBad d fir then h.put U_MEAS_STAT_BAD u 1
    else if own.d = d ∧ own.n = k ∧ own.fir = fir then h
    else h.mdecSet u path n d k fir)

/-! ### The sums of R46 -/

/-- A consist's value from its members' values: the lead's own for the quantity the lead measures alone, else the weighted
sum over W, rounded half away from zero. `rem` gives a remote member's value by index. -/
def Hw.combine (h : Hw) (c : Nat) (sum : Bool) (f : Nat → Int) (rem : Nat → Int) : Int :=
  if sum then
    let w := h.get U_CONSIST_STAT_W c
    let s := (h.members c).foldl (fun (a : Int) m => a + (if m.2.2.2.1 then rem m.1 else f m.2.1) * (m.2.2.2.2 : Int)) 0
    if w = 0 then 0 else satM (rdiv s w)
  else f (h.lead1 c)

/-! ### Outputs -/

/-- An output of a path at instant `x` is skipped after a restart (R160). -/
def MdecS.skips (m : MdecS) (x : Nat) : Bool :=
  match m.restart with | some r => decide (r ≤ x) && decide (x < r + 4 * m.window) | none => false

/-- The current output with LEAK subtracted (R161). -/
def Hw.measLeak (h : Hw) (u x : Nat) (raw : Int) : Int :=
  let a := h.mdec u 0
  let b := h.mdec u 1
  let v := match a.lastOut with
    | some (t, v, _) => if a.d = b.d ∧ a.fir = b.fir ∧ t = x then v else (h.unit u).smp.v
    | none => (h.unit u).smp.v
  satM (raw - h.leak u v)

/-- The C32-compatible window's update (R175, R176). -/
def Hw.c32Update (h : Hw) (g path : Nat) (v : Int) (ovr : Bool) (rng : Nat) : Hw :=
  let new := match path with | 0 => U_C32_STAT_NEW_VS | 1 => U_C32_STAT_NEW_IS | _ => U_C32_STAT_NEW_SH
  let run := match path with | 0 => U_C32_STAT_OVR_RUN_VS | 1 => U_C32_STAT_OVR_RUN_IS | _ => U_C32_STAT_OVR_RUN_SH
  let ov := match path with | 0 => U_C32_STAT_OVR_VS | 1 => U_C32_STAT_OVR_IS | _ => U_C32_STAT_OVR_SH
  let h := if h.flag new g then h.put run g 1 else h
  let h := ((h.putC U_C32_DATA_DATA g v path).putB ov g ovr).put new g 1
  match path with
  | 0 => h.put U_C32_STAT_VRANGE g rng
  | 1 => h.put U_C32_STAT_IRANGE g rng
  | _ => h

/-- The range a path's converter works on: path 0 VS, 1 IS, 2 SH. -/
def Hw.pathRng (h : Hw) (u path : Nat) : Nat :=
  match path with | 0 => h.vrng u | 1 => (h.unit u).rng.isSet | _ => h.get U_RANGE_STAT_SH_RNG u

/-- The bins of a unit are offered a measurement output (R165 to R167). Of the window's two ends the later one counts for COMPLIANCE: the
model's choice (notes/assumptions/97.md). -/
def Hw.measOffer (h : Hw) (u path x : Nat) (v : Int) (ovr : Bool) : Hw :=
  let m := h.mdec u path
  let w := x - 4 * m.window
  let marked := match (h.unit u).law.complAt with | some t => decide (w < t) && decide (t ≤ x) | none => false
  let qty := match path with | 0 => 0 | 1 => 1 | _ => 3
  h.each (List.range 4) (fun h b =>
    let s := (h.bin u b).src
    if s % 4 = qty ∧ s / 4 % 2 = 0 then h.offer u b v x w (h.pathRng u path) ovr marked (h.servedBy u).isSome else h)

/-- An output of a working channel or siding at instant `x` from its filter sum (R154, R157, R160, R161). -/
def Hw.measPlain (h : Hw) (u path x : Nat) (y : Int) (ovr : Bool) : Hw :=
  let m := h.mdec u path
  if m.skips x then h.inc U_MEAS_GAP_COUNT u
  else
    let raw := h.pathOut u path y m.dcGain
    let h := h.modM u path (fun x' => { x' with lastOut := some (x, raw, ovr) })
    let h := h.extPush u path (h.corr0 (h.convOf u) path (h.pathSet u path).1 (rdiv (y * 2 ^ 31) (12 * m.dcGain)))
    let spec := path == 2 && h.flag U_RANGE_STAT_SH_SPEC u
    let v := if path = 1 then h.measLeak u x raw else raw
    if spec then h
    else
      let h := if isChan u then h.c32Update u path v ovr (h.pathRng u path) else h
      h.measOffer u path x v ovr

/-- An output of a coupled consist at instant `x`, from its members' outputs at that instant (R162). -/
def Hw.measConsist (h : Hw) (u path x : Nat) : Hw :=
  let sum := h.isShared u (path == 0)
  if Hw.noMeas 5 h u path then h
  else
    let src := if sum then h.locals u else [h.lead1 u]
    let out := fun m => (h.mdec m path).lastOut
    if src.all (fun m => match out m with | some (t, _, _) => t == x | none => false) then
      let raw := h.combine u sum (fun m => match out m with | some (_, v, _) => v | none => 0) (fun _ => 0)
      let ovr := src.any (fun m => match out m with | some (_, _, o) => o | none => false)
      let h := h.modM u path (fun x' => { x' with lastOut := some (x, raw, ovr) })
      if path == 2 && h.flag U_RANGE_STAT_SH_SPEC u then h
      else h.measOffer u path x (if path = 1 then h.measLeak u x raw else raw) ovr
    else h.inc U_MEAS_GAP_COUNT u

/-- An output at instant `x`. -/
def Hw.measDeliver (h : Hw) (u path x : Nat) (y : Int) (ovr : Bool) : Hw :=
  if isConsist u then h.measConsist u path x else h.measPlain u path x y ovr

/-- The voltage output that a current output at the same instant refers to has been made or is skipped (R161). -/
def Hw.measTurn (h : Hw) (u path x : Nat) : Bool :=
  let a := h.mdec u 0
  let b := h.mdec u 1
  path != 1 || a.d != b.d || a.fir != b.fir || a.skips x || Hw.noMeas 5 h u 0 ||
    (match a.lastOut with | some (t, _, _) => t == x | none => false) ||
    (match a.pendOut with | some (t, _, _) => t == x | none => false)

/-- The output's filter sum, from the levels of its window (R154, R156, R158). -/
def MdecS.sum (m : MdecS) (lv : List Int) : Int := filterSum (filterH m.n m.d m.fir) lv

/-- A measurement decimator produces an output at `x`, a multiple of 4·D (R157), flagged where the overload detector fired in its window
(R163). One whose instant is the unit's next loop tick is held until the restarts of that tick are known (R160). -/
def Hw.measOutput (h : Hw) (u path x : Nat) (lv : List Int) (fired : List Bool) : Hw :=
  let m := h.mdec u path
  let y := m.sum lv
  let ovr := (fired.take m.window).any id
  let last := (h.unit (h.headOf u)).clk.last
  if h.runs u && decide (path < 3) && x % (4 * m.d) == 0 && decide (h.now ≤ x) && decide (last < x) && h.measTurn u path x then
    let h := { h with now := x }
    if x % h.period u = 0 then h.modM u path (fun z => { z with pendOut := some (x, y, ovr) })
    else h.measDeliver u path x y ovr
  else h

/-- The outputs held for tick `n`, a consist's members' first (R160, R166). -/
def Hw.measHeld (h : Hw) (u n : Nat) : Hw :=
  h.each (h.tree u).reverse (fun h m =>
    h.each (List.range 3) (fun h path =>
      match (h.mdec m path).pendOut with
      | some (x, y, ovr) => (h.modM m path (fun z => { z with pendOut := none })).measDeliver m path (min x n) y ovr
      | none => h))

/-- A read of a C32 data register: the value, and the path's NEW cleared (R176). -/
def Hw.c32Read (h : Hw) (g path : Nat) : Nat × Hw :=
  let new := match path with | 0 => U_C32_STAT_NEW_VS | 1 => U_C32_STAT_NEW_IS | _ => U_C32_STAT_NEW_SH
  (h.get U_C32_DATA_DATA g path, h.put new g 0)

end Sys2Proof.Machine
end

