-- ==== Sys2Proof/Machine/Arbiter.lean ====
section
/-! DEFINITION. Token arbitration (R35 to R38), and the points bus, whose operations carry their pattern with them
(R189 to R193). -/

namespace Sys2Proof.Machine

/-- The request a free token goes to (R36, R37), as an index into the requests `(rank, who, losses)`, given one above the last requester
granted at each rank: rank 1 first; then a request that has lost 16 grants; then by rank, round-robin. Which of several that have lost 16
goes first is the model's choice: the one that asked first (notes/assumptions/11.md). -/
def pickReq (l : List (Nat × Nat × Nat)) (last : Tab Nat Nat) : Option Nat :=
  let ix := l.zipIdx
  let rr := fun (c : List ((Nat × Nat × Nat) × Nat)) (rank : Nat) =>
    let lo := tget last rank 0
    let best := fun (c : List ((Nat × Nat × Nat) × Nat)) =>
      c.foldl (fun (b : Option ((Nat × Nat × Nat) × Nat)) x =>
        match b with | none => some x | some y => if x.1.2.1 < y.1.2.1 then some x else some y) none
    let after := c.filter (fun x => decide (lo ≤ x.1.2.1))
    (best (if after = [] then c else after)).map (fun x => x.2)
  let ilk := ix.filter (fun x => x.1.1 == 1)
  let starved := ix.filter (fun x => decide (16 ≤ x.1.2.2))
  if ilk ≠ [] then rr ilk 1
  else match starved with
    | x :: _ => some x.2
    | [] =>
      let top := l.foldl (fun m x => min m x.1) 99
      rr (ix.filter (fun x => x.1.1 == top)) top

/-- A request that may be granted: of rank 1 at most one holds an aux modulator, which `one` says (R178). -/
def ArbS.eligible (a : ArbS) (one : Bool) (r : Req) : Bool := !(one && r.rank == 1 && a.hold.any (fun q => q.rank == 1))

/-- A request granted: the lowest free instance of `n` is its own. -/
def ArbS.take (a : ArbS) (n : Nat) (r : Req) : ArbS :=
  { a with hold := a.hold ++ [r], inst := a.inst ++ [((List.range n).find? (fun i => !a.inst.contains i)).getD 0],
           last := tset a.last r.rank (r.who + 1) }

/-- The next grant of a token with `n` instances, if one is free and a request may be granted; every other request has lost one
(R36, R37). -/
def ArbS.grant (a : ArbS) (n : Nat) (one : Bool := false) : ArbS :=
  let l := a.pend.filter (a.eligible one)
  if a.hold.length < n then
    match (pickReq (l.map (fun r => (r.rank, r.who, r.losses))) a.last).bind (fun i => l[i]?) with
    | none => a
    | some r => { a.take n r with pend := (a.pend.erase r).map (fun x => { x with losses := x.losses + 1 }) }
  else a

/-- `k` grants in turn, as far as instances and requests last. -/
def ArbS.grants (a : ArbS) (n : Nat) (one : Bool) : Nat → ArbS
  | 0 => a
  | k + 1 => (a.grant n one).grants n one k

/-- A request granted or queued on a token with `n` instances (R36). Requests of one instant are simultaneous: they are decided
together, from what stood before the first of them. -/
def ArbS.request (a : ArbS) (n : Nat) (one : Bool) (now : Nat) (r : Req) : ArbS :=
  let a := if a.since == some now then
      { a with hold := a.hold0, inst := a.inst0, pend := a.pend0, last := a.last0, arr := a.arr ++ [r] }
    else { a with since := some now, arr := [r], hold0 := a.hold, inst0 := a.inst, pend0 := a.pend, last0 := a.last }
  ({ a with pend := a.pend ++ a.arr }).grants n one n

/-- A holder releases the token, and it is granted again (R36, R37). -/
def ArbS.release (a : ArbS) (n : Nat) (one : Bool) (who : Nat) : ArbS :=
  match a.hold.findIdx? (fun r => r.who == who) with
  | some i => ArbS.grant { a with hold := a.hold.eraseIdx i, inst := a.inst.eraseIdx i, since := none } n one
  | none => ArbS.grant a n one

/-! ### The points bus -/

/-- The points bus of a die with its registers following the operation on the bus (DIE_PB_STAT). -/
def Hw.setPts (h : Hw) (d : Nat) (p : PtsS) : Hw :=
  let h := h.modD d (fun x => { x with pts := p })
  match p.cur with
  | some op => (h.putB DIE_PB_STAT_BUSY d true).put DIE_PB_STAT_OWNER_CH d op.ch
  | none => h.putB DIE_PB_STAT_BUSY d false

/-- The operation a free bus is granted to, and those that go on waiting. -/
def pickOp (l : List PtsOp) (last : Tab Nat Nat) : Option (PtsOp × List PtsOp) :=
  match pickReq (l.map (fun o => (o.rank, o.ch, o.losses))) last with
  | none => none
  | some i => (l[i]?).map (fun op => (op, l.eraseIdx i))

/-- The Interlocking's latch of a safe pattern. -/
def PtsOp.isSafe (o : PtsOp) : Bool := match o.why with | .safe _ _ => true | _ => false

/-- The latch of a loop-open change counted off: the last one is its latch instant (R207). -/
def RngS.openLatch (r : RngS) (t : Nat) : RngS :=
  if r.openWait = 0 then r
  else { r with openWait := r.openWait - 1, openLam := if r.openWait = 1 then some t else r.openLam }

/-- An operation withdrawn for a safe pattern (R21, R205): a loop-open change then has its latch. -/
def Hw.opGone (h : Hw) (o : PtsOp) : Hw :=
  match o.why with
  | .openChg u => h.modU u (fun x => { x with rng := x.rng.openLatch h.now })
  | _ => h

/-- A points operation requested: granted on arrival where the bus is free, else it waits by rank; requests of one instant that
find the bus free are decided together, and the losers have lost one grant (R36, R37, R191). An operation that a safe pattern of its
own position displaces is withdrawn (R21). -/
def Hw.ptsReq (h : Hw) (d : Nat) (op : PtsOp) : Hw :=
  let p := (h.die d).pts
  match p.cur with
  | none =>
    if p.q.isEmpty then
      h.setPts d { p with cur := some op, latched := false, last := tset p.last op.rank (op.ch + 1), since := some h.now, old := p.last,
                          granted := h.now }
    else h.setPts d { p with q := p.q ++ [op] }
  | some c =>
    if p.since == some h.now && !p.latched then
      if op.isSafe && c.ch == op.ch && !c.isSafe then (h.setPts d { p with cur := some op, last := tset p.old op.rank (op.ch + 1) }).opGone c
      else
        match pickOp ((c :: p.q ++ [op]).map (fun o => { o with losses := 0 })) p.old with
        | some (o, r) => h.setPts d { p with cur := some o, q := r.map (fun o => { o with losses := 1 }), last := tset p.old o.rank (o.ch + 1) }
        | none => h
    else h.setPts d { p with q := p.q ++ [op] }

/-- The bus released: the waiting operation of highest rank takes it (R36, R37). -/
def Hw.ptsNext (h : Hw) (d : Nat) : Hw :=
  let p := (h.die d).pts
  match pickOp p.q p.last with
  | none => h.setPts d { p with cur := none, latched := false, since := none }
  | some (op, r) =>
    h.setPts d { p with cur := some op, latched := false, since := none, last := tset p.last op.rank (op.ch + 1),
                        q := r.map (fun x => { x with losses := x.losses + 1 }), granted := h.now }

/-- The position of a unit on its die's bus; a siding uses the position of the channel it serves (R189). -/
def Hw.ptsCh (h : Hw) (u : Nat) : Nat := chanOf (h.servedUnit u) % 32

/-- The pattern of a position once the operations requested for it so far are made. -/
def Hw.patAfter (h : Hw) (m : Nat) : Nat :=
  let p := (h.die (ownDie m)).pts
  let ops := ((match p.cur with | some o => if p.latched then [] else [o] | none => []) ++ p.q).filter (fun o => o.ch == h.ptsCh m)
  match ops.getLast? with | some o => o.pat | none => h.get U_PTS_STAT_PAT (h.servedUnit m)

/-- The operations still waiting for a unit's position are withdrawn where the Interlocking latches its pattern (R21, R205). -/
def Hw.dropOps (h : Hw) (m : Nat) : Hw :=
  let p := (h.die (ownDie m)).pts
  let gone := p.q.filter (fun o => o.ch == h.ptsCh m && !o.isSafe)
  let h := h.modD (ownDie m) (fun x => { x with pts := { x.pts with q := x.pts.q.filter (fun o => !gone.contains o) } })
  h.each gone Hw.opGone

/-- A unit's safe pattern requested for the position of one of its channels (R141, R192, R333). -/
def Hw.safeOp (h : Hw) (u m : Nat) (err : Bool) : Hw :=
  (h.dropOps m).ptsReq (ownDie m) { ch := h.ptsCh m, pat := h.get U_SAFE_PAT_SAFE m, rank := 1, why := .safe u err }

/-- The Interlocking requests a latch of the safe pattern of a unit's channels at rank 1 (R141, R192, R333). -/
def Hw.reqSafe (h : Hw) (u : Nat) (err : Bool) : Hw := h.each (h.leaves u) (fun h m => h.safeOp u m err)

/-! ### The bus's frames and signals (R189 to R191) -/

/-- A 24-bit frame (R190): position, command (0 WRITE, 1 READ, 2 BCAST), data. -/
def pbFrame (ch cmd data : Nat) : Nat := ch % 32 * 2 ^ 19 + cmd % 8 * 2 ^ 16 + data % 2 ^ 16

/-- A PBCLK period of a die in metronome ticks (R189). -/
def Hw.pbTicks (h : Hw) (d : Nat) : Nat := 8 * 2 ^ h.get DIE_PB_CFG_DIV d

/-- λ of the operation on a die's bus: 24 PBCLK periods from its grant (R191). -/
def Hw.ptsLam (h : Hw) (d : Nat) : Nat := (h.die d).pts.granted + 24 * h.pbTicks d

/-- The operation on a die's bus releases the token 50 PBCLK periods from its grant (R191). -/
def Hw.ptsEnd (h : Hw) (d : Nat) : Nat := (h.die d).pts.granted + 50 * h.pbTicks d

/-- The power-up sequence holds the bus for the BCAST operation and 32 READs of 50 PBCLK periods each (R193). -/
def Hw.initEnd (h : Hw) (d t : Nat) : Nat := t + 33 * 50 * h.pbTicks d

/-- PBCLK, PBDAT and PBLAT in period `k` of an operation, `high` in the second half of a period: periods 0 to 23 carry the frame `w`, if any,
PBLAT is high in period 24 after one, periods 26 to 49 carry the READ frame of position `ch`; PBDAT changes on PBCLK's falling edge, with
which a period begins, and all are low between frames (R189 to R191). -/
def opPins (w : Option Nat) (ch k : Nat) (high : Bool) : Bool × Bool × Bool :=
  if k < 24 then (match w with | some f => (high, bit f (23 - k), false) | none => (false, false, false))
  else if k < 26 then (false, false, k == 24 && w.isSome)
  else if k < 50 then (high, bit (pbFrame ch 1 0) (49 - k), false)
  else (false, false, false)

/-- PBCLK, PBDAT and PBLAT of a die at instant `t`, none while they are undriven (R98, R189 to R191, R193): the power-up sequence sends a
BCAST frame with 0, whose READ is of position 0, and then a READ of each position; an operation sends its WRITE frame. -/
def Hw.pbPins (h : Hw) (d t : Nat) : Option (Bool × Bool × Bool) :=
  if h.cold then none
  else
    let p := (h.die d).pts
    let w := h.pbTicks d
    let at_ := fun (a : Nat) => ((t - a) / w, decide (w ≤ 2 * ((t - a) % w)))
    let idle := some (false, false, false)
    match p.initAt.filter (fun a => decide (a ≤ t) && decide (t < h.initEnd d a)) with
    | some a =>
      let (k, high) := at_ a
      if k < 50 then some (opPins (some (pbFrame 0 2 0)) 0 k high) else some (opPins none (k / 50 - 1) (k % 50) high)
    | none =>
      match p.cur with
      | none => idle
      | some op => if t < p.granted then idle else (let (k, high) := at_ p.granted; some (opPins (some (pbFrame op.ch 0 op.pat)) op.ch k high))

end Sys2Proof.Machine
end

