-- ==== Sys2Proof/Machine/Range.lean ====
section
/-! DEFINITION. The range logic (spec/07_ranges.md): settings of the current paths, the ranges in force, changes between
neighbours and their abandonment, range writes, autorange. -/

namespace Sys2Proof.Machine

/-- A measurement decimator restarts at a tick (R160): path 0 VS, 1 IS, 2 SH. -/
def Hw.restartDec (h : Hw) (u path n : Nat) : Hw :=
  h.modU u (fun x => { x with mdec := tset x.mdec path { tget x.mdec path {} with restart := some n } })

/-- Converters that have not sensed a unit's inputs before take over at tick `n`: its paths restart and none is settled (R160, R195). -/
def Hw.newConv (h : Hw) (u n : Nat) : Hw :=
  (h.each [0, 1, 2] (fun h p => h.restartDec u p n)).modU u (fun x => { x with rng := { x.rng with isAt := n, shAt := n, vsAt := n } })

/-- IS of one unit takes an entry's sense input and gain at tick `n`; where it stands on that setting nothing changes. -/
def Hw.isOne (h : Hw) (m r n : Nat) : Hw :=
  let h := h.modU m (fun x => { x with rng := { x.rng with isNext := none } })
  if (h.unit m).rng.isSet = r then h
  else (h.modU m (fun x => { x with rng := { x.rng with isSet := r, isAt := n } })).restartDec m 1 n

/-- SH of one unit takes an entry's setting at tick `n` (R195); where it stands on that setting nothing changes. -/
def Hw.shOne (h : Hw) (m r n : Nat) : Hw :=
  let h := h.modU m (fun x => { x with rng := { x.rng with shNext := none } })
  if h.get U_RANGE_STAT_SH_RNG m = r then h
  else ((h.put U_RANGE_STAT_SH_RNG m r).modU m (fun x => { x with rng := { x.rng with shAt := n } })).restartDec m 2 n

/-- IS of a unit and every member under it takes an entry's setting at tick `n` (R47, R160, R206). -/
def Hw.setIs (h : Hw) (u r n : Nat) : Hw := h.each (h.tree u) (fun h m => h.isOne m r n)

/-- SH of a unit and every member under it takes an entry's setting at tick `n` (R47, R195). -/
def Hw.setSh (h : Hw) (u r n : Nat) : Hw := h.each (h.tree u) (fun h m => h.shOne m r n)

/-- ARMED and SH_SPEC of a unit and every member under it (R47, R197). -/
def Hw.setArm (h : Hw) (u : Nat) (b : Bool) : Hw :=
  h.each (h.tree u) (fun h m => (h.putB U_RANGE_STAT_ARMED m b).putB U_RANGE_STAT_SH_SPEC m b)

/-- T and r_s carried to another range of the forced quantity (R186). -/
def Hw.convRef (h : Hw) (u : Nat) (f : Int → Int) : Hw :=
  let h := h.putC U_REF_TARGET_CODE u (f (h.code U_REF_TARGET_CODE u))
  let h := h.putC U_REF_SLEWED_CODE u (f (h.code U_REF_SLEWED_CODE u))
  h.modU u (fun x => { x with ref := { x.ref with rBefore := f x.ref.rBefore, tBefore := f x.ref.tBefore } })

/-- The current range in force changes (R184, R186, R187): derived codes are computed again and the run of i_raw ends (R137). -/
def Hw.setIrng (h : Hw) (u r : Nat) : Hw :=
  if (h.tree u).all (fun m => h.irng m == r) then h
  else
    let h := h.each (h.tree u) (fun h m =>
      let a := h.irng m
      if a = r then h
      else
        let h := if h.get U_MODE_MODE m == 1 then h.convRef m (fun x => h.convI m x a r) else h
        (h.put U_RANGE_STAT_IRNG_F m r).modU m (fun x => { x with wat := { x.wat with fi := {} } }))
    h.each (h.tree u) (fun h m => h.recalc m)

/-- The voltage range in force changes (R184, R186, R187). -/
def Hw.setVrng (h : Hw) (u r n : Nat) : Hw :=
  if (h.tree u).all (fun m => h.vrng m == r) then h
  else
    let h := h.each (h.tree u) (fun h m =>
      let a := h.vrng m
      if a = r then h
      else
        let h := if h.get U_MODE_MODE m == 0 then h.convRef m (fun x => h.convV m x a r) else h
        ((h.put U_RANGE_STAT_VRNG_F m r).modU m (fun x => { x with rng := { x.rng with vsAt := n } })).restartDec m 0 n)
    h.each (h.tree u) (fun h m => h.recalc m)

/-- The designated current path (R196): 0 IS, 1 SH; the run of i_raw ends at a change (R137). -/
def Hw.setDes (h : Hw) (u x : Nat) : Hw :=
  h.each (h.tree u) (fun h m =>
    if h.get U_RANGE_STAT_DES m = x then h
    else (h.put U_RANGE_STAT_DES m x).modU m (fun y => { y with wat := { y.wat with fi := {} } }))

/-- A unit's range record changed. -/
def Hw.modR (h : Hw) (u : Nat) (f : RngS → RngS) : Hw := h.modU u (fun x => { x with rng := f x.rng })

/-- PHASE of a unit and every member under it. -/
def Hw.setPhase (h : Hw) (u p : Nat) : Hw := h.each (h.tree u) (fun h m => h.put U_RANGE_STAT_PHASE m p)

/-- Two entries are PGA-only neighbours (R183). -/
def pgaOnly (a b : REnt) : Bool := a.pat == b.pat && a.sense == b.sense

/-- SH leaves ARMED and returns to TRACK, the arming refuted (R197, R200). -/
def Hw.refuteArm (h : Hw) (u n : Nat) : Hw :=
  if (h.unit u).rng.arm.isSome || (h.unit u).rng.armNext.isSome then
    let h := if (h.unit u).rng.arm.isSome then (h.inc DIE_SPEC_CNT_COUNT (h.dieOf u) 2).setSh u (h.unit u).rng.isSet n else h
    (h.modR u (fun r => { r with arm := none, armNext := none })).setArm u false
  else h

/-- A change from the range in force to a neighbour `b`, decided at tick `t` (R201). -/
def Hw.startChange (h : Hw) (u b t : Nat) : Hw :=
  let a := h.irng u
  let ea := h.ient u a
  let eb := h.ient u b
  let pga := pgaOnly ea eb
  let upw := ea.up == b
  let hh := if pga || upw then b else a
  let s := if pga || upw then b else a
  let p := h.period u
  let h :=
    match (h.unit u).rng.arm with
    | some (k, _) => if k = s then h.modR u (fun r => { r with arm := none, armNext := none }) else h.refuteArm u (t + p)
    | none => h.modR u (fun r => { r with armNext := none })
  let r := (h.unit u).rng
  let on := h.get U_RANGE_STAT_SH_RNG u == s
  let h := h.modR u (fun r => { r with begun := r.begun + 1, active := true, a := a, b := b, h := hh, pga := pga, decided := t, designated := 0,
                                       makeWait := 0, lamM := none, retarget := none, brkReq := false, brkWait := 0,
                                       lamB := none, reIs := false, tell := true })
  let h := h.put U_RANGE_STAT_DN_RUN u 0
  if on && decide (r.shAt + 5 * p ≤ t) then h
  else
    let h := h.inc DIE_SPEC_CNT_COUNT (h.dieOf u) 3
    if on then h else h.modR u (fun r => { r with shNext := some s })

/-- A change decided at the tick before shows in U_RANGE_STAT (R198, R201): its target, WAIT_SH until SH is designated, and no
arming. -/
def Hw.showChange (h : Hw) (u : Nat) : Hw :=
  let r := (h.unit u).rng
  if !r.tell then h
  else
    let h := ((h.modR u (fun r => { r with tell := false })).put U_RANGE_STAT_TARGET u r.b).setArm u false
    if r.active && r.designated == 0 then h.setPhase u 1 else h

/-- Whether a change waits for its designation and SH is settled on its shadow setting at tick `n` (R195, R201). -/
def Hw.desDue (h : Hw) (u n : Nat) : Bool :=
  let r := (h.unit u).rng
  let p := h.period u
  r.active && r.designated == 0 && r.shNext.isNone && decide (r.decided + p ≤ n) && decide (r.shAt + 3 * p ≤ n)

/-- A pattern requested for every channel under a unit, where it differs from the pattern that will stand (R193, R203):
the hardware and the number of operations made. -/
def Hw.reqPats (h : Hw) (u rank : Nat) (why : PtsWhy) (pat : Nat → Nat) : Hw × Nat :=
  let todo := (h.leaves u).filter (fun m => h.patAfter m != pat m)
  (h.each todo (fun h m => h.ptsReq (ownDie m) { ch := h.ptsCh m, pat := pat m, rank := rank, why := why }), todo.length)

/-- The designation of SH at tick `d` (R201, R202), with MAKE requested for a points change (R203). -/
def Hw.designate (h : Hw) (u d : Nat) : Hw :=
  let r := (h.unit u).rng
  let h := (h.showChange u).modR u (fun x => { x with designated := d })
  let h := (h.setDes u 1).setIrng u r.h
  if r.pga then ((h.setIs u r.b d).setPhase u 4).modR u (fun x => { x with lamM := some d })
  else
    let h := h.setPhase u 2
    let (h', k) := h.reqPats u 3 (.make u) (fun m => (h.ient m r.a).pat ||| (h.ient m r.b).pat ||| (h.vent m (h.vrng m)).pat)
    if k = 0 then h'.modR u (fun x => { x with lamM := some d }) else h'.modR u (fun x => { x with makeWait := k })

/-- Retarget at tick `m` (R203). -/
def Hw.retargetDue (h : Hw) (u n : Nat) : Bool :=
  let r := (h.unit u).rng
  r.active && !r.pga && r.designated != 0 && r.retarget.isNone &&
    (match r.lamM with | some l => decide (l ≤ n) | none => false)

/-- IS takes b's sense input and gain (R203). -/
def Hw.retargetIs (h : Hw) (u n : Nat) : Hw :=
  (h.setIs u (h.unit u).rng.b n).modR u (fun x => { x with retarget := some n })

/-- S_make of a change in ticks: SETTLE of b where PAT_b has a bit that PAT_a lacks; the largest among members (R203, R206). -/
def Hw.sMake (h : Hw) (u a b : Nat) : Nat :=
  (h.leaves u).foldl (fun s m =>
    let ea := h.ient m a; let eb := h.ient m b
    max s (if eb.pat &&& ea.pat = eb.pat then 0 else ticksOfUs eb.settle)) 0

/-- BREAK is due at tick `n` (R203). -/
def Hw.breakDue (h : Hw) (u n : Nat) : Bool :=
  let r := (h.unit u).rng
  r.active && !r.pga && r.retarget.isSome && !r.brkReq &&
    (match r.lamM with | some l => decide (l + h.sMake u r.a r.b ≤ n) | none => false)

/-- BREAK requested at tick `n` (R203). -/
def Hw.requestBreak (h : Hw) (u n : Nat) : Hw :=
  let r := (h.unit u).rng
  let (h', k) := h.reqPats u 3 (.brk u) (fun m => (h.ient m r.b).pat ||| (h.vent m (h.vrng m)).pat)
  let h' := (h'.setPhase u 3).modR u (fun x => { x with brkReq := true })
  if k = 0 then (h'.setPhase u 4).modR u (fun x => { x with lamB := some n }) else h'.modR u (fun x => { x with brkWait := k })

/-- The return of a change is due at tick `n` (R202, R203, R205). -/
def Hw.returnDue (h : Hw) (u n : Nat) : Bool :=
  let r := (h.unit u).rng
  let p := h.period u
  if r.reIs then r.isNext.isNone && decide (r.isAt + 3 * p ≤ n)
  else if !r.active || r.designated = 0 then false
  else if r.pga then decide (r.designated + 3 * p ≤ n)
  else
    match r.lamB, r.retarget with
    | some l, some m => decide (l + h.sMake u r.b r.a + 3 * p ≤ n) && decide (m + 3 * p ≤ n)
    | _, _ => false

/-- The next step of a walk toward a range (R207): the neighbour on the side on which the target lies. -/
def Hw.walkStep (h : Hw) (u target : Nat) : Option Nat :=
  let a := h.irng u
  let reach := fun (f : REnt → Nat) =>
    ((List.range 16).foldl (fun (s : Nat × Bool) _ => let n := f (h.ient u s.1); (n, s.2 || n == target)) (a, false)).2
  if a = target then none
  else if reach REnt.up then some (h.ient u a).up
  else if reach REnt.dn then some (h.ient u a).dn
  else none

/-- A walk begun or continued from tick `t` (R207); none is decided while a siding takes over or returns (R205). -/
def Hw.doWalk (h : Hw) (u t : Nat) : Hw :=
  match (h.unit u).rng.walk with
  | none => h
  | some g =>
    match h.walkStep u g with
    | none => h.modR u (fun r => { r with walk := none })
    | some b => if h.sidMoves u then h else h.startChange u b t

/-- The tick's samples are not settled on a setting that has just changed (R204). -/
def Hw.unsettle (h : Hw) (u : Nat) (i v : Bool) : Hw :=
  h.each (h.tree u) (fun h m => h.modU m (fun x => { x with smp := { x.smp with
    setI := x.smp.setI && !i, setS := x.smp.setS && !i, setV := x.smp.setV && !v } }))

/-- The settings of a loop-open change enter at tick `n`, and it is complete (R204, R207). -/
def Hw.openApply (h : Hw) (u n : Nat) : Hw :=
  let r := (h.unit u).rng
  let h := h.modR u (fun r => { r with openOn := false, openLam := none, prevX := none })
  let i := !(h.tree u).all (fun m => h.irng m == r.openI && (h.unit m).rng.isSet == r.openI)
  let v := !(h.tree u).all (fun m => h.vrng m == r.openV)
  let h := ((h.setIs u r.openI n).setSh u r.openI n).setIrng u r.openI
  (((h.setVrng u r.openV n).unsettle u i v).setPhase u 0).inc U_RANGE_CHG_COUNT u

/-- A change made with the loop open: an arming ends (R200); the new connect pattern is latched in one operation, shown as MAKE; where
no position's pattern changes it is complete at the tick itself (R193, R207). -/
def Hw.openChange (h : Hw) (u i j n : Nat) : Hw :=
  if h.irng u == i && (h.unit u).rng.isSet == i && h.vrng u == j then h
  else
    let h := h.refuteArm u n
    let (h', k) := h.reqPats u 3 (.openChg u) (fun m => h.patOf m i j)
    let h' := h'.modR u (fun r => { r with begun := r.begun + 1, openOn := true, openI := i, openV := j, openWait := k, openLam := none })
    if k = 0 then h'.openApply u n else (h'.setPhase u 2).put U_RANGE_STAT_TARGET u i

/-- Ranges taken at once by a unit whose output is isolated (R207: the selection is used at CHECKING). -/
def Hw.takeRanges (h : Hw) (u i j n : Nat) : Hw := (((h.setIs u i n).setSh u i n).setIrng u i).setVrng u j n

/-- What stands in a unit's own registers and no write while it is coupled may change, but its consist does: U_DRV_HOLD, OLSRC, the ranges
in force, the settings of IS and SH, the designation, U_FAULT.ISOLATED (R49, R50). -/
def Hw.ownRegs (h : Hw) (m : Nat) : List Nat :=
  [h.get U_DRV_HOLD_CODE m, h.get U_MODE_OLSRC m, h.irng m, h.vrng m, (h.unit m).rng.isSet, h.get U_RANGE_STAT_SH_RNG m,
   h.get U_RANGE_STAT_DES m, h.get U_FAULT_ISOLATED m]

/-- A unit's own registers put back as they stood before coupling, at tick `n` (R49). -/
def Hw.ownBack (h : Hw) (m n : Nat) (l : List Nat) : Hw :=
  let g := fun k => l.getD k 0
  let moved := h.irng m != g 2 || h.vrng m != g 3
  let h := ((h.put U_DRV_HOLD_CODE m (g 0)).put U_MODE_OLSRC m (g 1)).put U_RANGE_STAT_IRNG_F m (g 2)
  let h := if h.vrng m = g 3 then h
    else ((h.put U_RANGE_STAT_VRNG_F m (g 3)).modU m (fun x => { x with rng := { x.rng with vsAt := n } })).restartDec m 0 n
  let h := ((h.isOne m (g 4) n).shOne m (g 5) n).put U_RANGE_STAT_DES m (g 6)
  let h := h.put U_FAULT_ISOLATED m (g 7)
  if moved then h.recalc m else h

/-- A range that is written and accepted acts (R207): recorded only where the output is isolated or its isolation is requested (R21);
held while a change is in progress (R208); a walk with the loop closed; else one operation. -/
def Hw.rangeGo (h : Hw) (u n : Nat) (ir vr : Option Nat) : Hw :=
  if (ir.isNone && vr.isNone) || h.st u == stISOLATED || h.faultIso u || (h.unit u).safe.req then h
  else if h.rngBusy u then h.modR u (fun r => { r with heldI := ir.orElse (fun _ => r.heldI), heldV := vr.orElse (fun _ => r.heldV) })
  else if h.closed u then
    match ir with
    | some i => (h.modR u (fun r => { r with walk := some i })).doWalk u n
    | none => h
  else h.openChange u (ir.getD (h.irng u)) (vr.getD (h.vrng u)) n

/-- The ranges of a write as the state at tick `n` admits them (R185, R207): LCK with the loop closed in force-current mode and for the
voltage, ignored under autorange. -/
def Hw.rangeAct (h : Hw) (u n : Nat) (ir vr : Option Nat) : Hw :=
  let fi := h.get U_MODE_MODE u == 1
  let cl := h.closed u
  let lockI := ir.isSome && cl && fi
  let ign := ir.isSome && cl && !fi && h.arEn u
  let lockV := vr.isSome && cl
  let h := if lockI || lockV then h.put U_FLAGS_COEF_LOCKED u 1 else h
  let h := if ign then h.put U_RANGE_SEL_IGN u 1 else h
  let ir := if lockI || ign then none else ir
  let vr := if lockV then none else vr
  let h := match ir with | some i => h.put U_RANGE_SEL_IRNG u i | none => h
  let h := match vr with | some j => h.put U_RANGE_SEL_VRNG u j | none => h
  h.rangeGo u n ir vr

/-- A write of U_RANGE_SEL acts at tick `n` (R185, R207, R208): the fields written. AR_EN = 1 ends a walk and discards what is held for
it. -/
def Hw.rangeWrite (h : Hw) (u n : Nat) (ir vr ar : Option Nat) : Hw :=
  let h := match ar with
    | none => h
    | some x =>
      if h.hasFoll u then h
      else (if x = 1 then h.modR u (fun r => { r with walk := none, heldI := if r.walk.isSome then none else r.heldI }) else h).put
        U_RANGE_SEL_AR_EN u x
  h.rangeAct u n ir vr

/-- The writes held while a change was in progress act at the tick it ends, as the state then in force admits them (R208). -/
def Hw.applyHeld (h : Hw) (u n : Nat) : Hw :=
  let r := (h.unit u).rng
  if r.heldI.isSome || r.heldV.isSome then
    (h.modR u (fun r => { r with heldI := none, heldV := none, walk := none })).rangeAct u n r.heldI r.heldV
  else h.doWalk u n

/-- At a tick with no change in progress, what is held or still to be walked to acts: after an abandonment, or once a siding's takeover
or return is over (R205, R208). -/
def Hw.heldTick (h : Hw) (u n : Nat) : Hw :=
  let r := (h.unit u).rng
  if !h.rngBusy u && (r.heldI.isSome || r.heldV.isSome || r.walk.isSome) && !h.localMember u then h.applyHeld u n else h

/-- The return of a change at tick `n` (R202, R203), or IS designated again after an abandonment (R205). -/
def Hw.returnIs (h : Hw) (u n : Nat) : Hw :=
  let r := (h.unit u).rng
  let h := (((h.setDes u 0).setIrng u r.b).setSh u r.b n).setPhase u 0
  let h := if r.reIs then h else h.inc U_RANGE_CHG_COUNT u
  let h := h.modR u (fun r => { r with active := false, reIs := false, lastRet := n, everRet := true, prevX := none })
  h.applyHeld u n

/-- Points operations of a change that have not begun are withdrawn. -/
def Hw.dropChangeOps (h : Hw) (u : Nat) : Hw :=
  h.each ((h.leaves u).map ownDie) (fun h d =>
    h.modD d (fun x => { x with pts := { x.pts with q := x.pts.q.filter (fun o =>
      match o.why with | .make v => v != u | .brk v => v != u | _ => true) } }))

/-- A change in progress abandoned at tick `n` (R205): the connected pattern becomes that of range a before λ_M, and that of h from λ_M
on, latched by the Interlocking where it differs from what stands or is still to be latched (R193). -/
def Hw.abandon (h : Hw) (u n : Nat) : Hw :=
  let r := (h.unit u).rng
  let h := (h.showChange u).modR u (fun r => { r with walk := none })
  if !r.active then h
  else
    let after := if r.pga then r.designated != 0 else r.lamM.isSome
    let back := if after then r.h else r.a
    let h := h.dropChangeOps u
    let h := if r.pga then h else (h.reqPats u 1 (.abandon u) (fun m => h.patOf m back (h.vrng m))).1
    let h := h.modR u (fun x => { x with makeWait := 0, brkWait := 0 })
    if after then
      let h := if r.pga || (h.tree u).all (fun m => (h.unit m).rng.isSet == r.h) then h else h.modR u (fun x => { x with isNext := some r.h })
      ((h.setPhase u 4).put U_RANGE_STAT_TARGET u r.h).modR u (fun x => { x with active := false, reIs := true, b := r.h })
    else
      let h := ((h.setIrng u r.a).setDes u 0).setSh u r.a n
      (h.setPhase u 0).modR u (fun x => { x with active := false, shNext := none })

/-- Autorange runs (R198). -/
def Hw.arRuns (h : Hw) (u : Nat) : Bool :=
  h.arEn u && h.get U_MODE_MODE u == 0 && h.onLoad u && !h.isMember u

/-- The highest range autorange may select (U_AR_LIM.HI). -/
def Hw.arHi (h : Hw) (u : Nat) : Nat := min (h.get U_AR_LIM_HI u) (h.get U_RTAB_PTR_NI_M1 u)

/-- The next step toward the autorange bounds where the range in force lies outside them (R199): the neighbour on their side. -/
def Hw.arStep (h : Hw) (u : Nat) : Option Nat :=
  let a := h.irng u
  let e := h.ient u a
  if h.arHi u < a then [e.dn, e.up].find? (fun b => decide (b < a))
  else if a < h.get U_AR_LIM_LO u then [e.up, e.dn].find? (fun b => decide (a < b)) else none

/-- An up change the samples of the tick decide (R199). -/
def Hw.arUp (h : Hw) (u : Nat) : Option Nat :=
  let a := h.irng u
  let e := h.ient u a
  let s := (h.unit u).smp
  if e.up != a && decide (e.up ≤ h.arHi u) &&
      ((e.upTh != 0 && decide ((e.upTh : Int) * 2 ^ 15 ≤ iabs s.iRaw)) || s.ovI) then some e.up else none

/-- A down change is allowed from the range in force (R199). -/
def Hw.arDnOk (h : Hw) (u : Nat) : Bool :=
  let a := h.irng u
  let e := h.ient u a
  e.dn != a && decide (h.get U_AR_LIM_LO u ≤ e.dn) && e.dnTh != 0

/-- The autorange decisions of tick `t` (R199, R200): the up change, the down count, and the arming of SH. -/
def Hw.autorange (h : Hw) (u t : Nat) : Hw :=
  let x := h.unit u
  let idle := !h.rngBusy u
  let bar := h.sidMoves u
  if !h.arRuns u || !idle then
    (h.put U_RANGE_STAT_DN_RUN u 0).modR u (fun r => { r with prevX := none })
  else
    let a := h.irng u
    let e := h.ient u a
    let s := x.smp
    match (if bar then none else h.arStep u) with
    | some b => h.startChange u b t
    | none =>
      if !s.setI then (h.put U_RANGE_STAT_DN_RUN u 0).modR u (fun r => { r with prevX := none })
      else
        match (if bar then none else h.arUp u) with
        | some b => h.startChange u b t
        | none =>
          let low := e.dnTh != 0 && decide (iabs s.iRaw ≤ (e.dnTh : Int) * 2 ^ 15) && !s.ovI && !h.flag U_STATE_COMPLIANCE u
          let h := if low then h.incSat U_RANGE_STAT_DN_RUN u else h.put U_RANGE_STAT_DN_RUN u 0
          let h :=
            match x.rng.prevX, x.rng.arm with
            | some (px, pr), none =>
              if pr = a then
                let ds := iabs s.iRaw - iabs px
                let q := iabs s.iRaw + (h.get U_AR_CFG_HORIZON u : Int) * ds
                if decide (0 < ds) && e.up != a && decide (e.up ≤ h.arHi u) && e.upTh != 0 && decide ((e.upTh : Int) * 2 ^ 15 ≤ q) then
                  h.modR u (fun r => { r with armNext := some e.up })
                else if decide (ds < 0) && h.arDnOk u && pgaOnly e (h.ient u e.dn) && decide (q ≤ (e.dnTh : Int) * 2 ^ 15) then
                  h.modR u (fun r => { r with armNext := some e.dn })
                else h
              else h
            | _, _ => h
          h.modR u (fun r => { r with prevX := some (s.iRaw, a) })

/-- A down change is decided at the last tick (R199). -/
def Hw.downDue (h : Hw) (u : Nat) : Bool :=
  let x := h.unit u
  let n := x.clk.last
  let p := h.period u
  h.arRuns u && !h.rngBusy u && !h.sidMoves u && h.arDnOk u &&
    decide (max 1 (h.get U_AR_CFG_DN_N u) ≤ h.get U_RANGE_STAT_DN_RUN u) && !h.flag U_STATE_COMPLIANCE u &&
    (!x.rng.everRet || decide (x.rng.lastRet + h.get U_AR_CFG_HOLDOFF u * p ≤ n))

/-- An arming of SH has lasted TTL periods at the last tick (R200). -/
def Hw.armDue (h : Hw) (u : Nat) : Bool :=
  match (h.unit u).rng.arm with
  | some (_, t) => decide (t + max 1 (h.get U_AR_CFG_TTL u) * h.period u ≤ (h.unit u).clk.last) && !(h.unit u).rng.active
  | none => false

/-- Settings of IS and SH that enter at tick `n` (R195, R200, R201, R205). -/
def Hw.shTick (h : Hw) (u n : Nat) : Hw :=
  let h := h.showChange u
  let h := match (h.unit u).rng.isNext with | some i => h.setIs u i n | none => h
  let r := (h.unit u).rng
  match r.shNext with
  | some s => h.setSh u s n
  | none =>
    match r.armNext with
    | some k => ((h.setSh u k n).modR u (fun r => { r with arm := some (k, n), armNext := none })).setArm u true
    | none => h

end Sys2Proof.Machine
end

