-- ==== Sys2Proof/Machine/Flags.lean ====
section
/-! DEFINITION. Faults and what they do (R138 to R144), taking a unit off its load and isolating it (R88, R94, R332 to
R335), and the halt of an engine that follows (R215). -/

namespace Sys2Proof.Machine

/-! ### Engine halts -/

/-- The engine's entries taken out of the queue; what a FLUSH names and what stood at the guard instant lose theirs (R71, R79). -/
def RefS.dropEng (r : RefS) : RefS :=
  let keep := fun l : List RefEntry => l.filter (fun e => e.src == 0)
  { r with q := keep r.q, ready := (keep (r.q.take r.ready)).length, flush := (keep (r.q.take r.flush)).length }

/-- The entries that a unit's engine pushed are discarded (R215, R220, R251, R259). -/
def Hw.dropEng (h : Hw) (u : Nat) : Hw := h.modU u (fun x => { x with ref := x.ref.dropEng })

/-- The engine pushes nothing more, closes every open bin and releases the queue (R215), with the cause WHY. -/
def Hw.haltEng (h : Hw) (e why n : Nat) : Hw :=
  let s := h.get TT_STAT_STATE e
  if s == 1 || s == 2 || s == 3 then
    let u := h.get TT_BIND_UNIT e
    let h := (h.dropEng u).measHeld u n
    let h := h.closeBins u 15 n
    let h := h.put TT_STAT_STATE e 4
    let h := h.put TT_STAT_OWNS e 0
    let h := h.put TT_STAT_WHY e why
    let h := if h.flag TT_JUMP_PEND e then ((h.put TT_JUMP_PEND e 0).put TT_JUMP_REQ e 0).put TT_JUMP_RESULT e 3 else h
    let h := h.put TT_JSTAT_PENDJ e 0
    h.modE e (fun x => { x with act := .none, ready := none, acc := {}, back := none, parts := [], noPred := false, pred := none, openIn := none, jump := none,
                                restart := none, cut := none, jx := none, startAt := none, kept := false,
                                need := none, togo := 0, seen := [], seenNow := [],
                                thermDone := false, missing := false, sflags := 0, jumping := false })
  else h

/-- The bound engine of a unit that enters SAFING or FAULTED halts, unless its own ISOLATE is the cause (R213, R215). -/
def Hw.haltOf (h : Hw) (u n : Nat) (own : Bool) : Hw :=
  match h.engOf u with
  | some e =>
    if own then h
    else h.haltEng e (if bit (h.get U_FAULT_MAP_MAP u) 8 then 5 else 4) n
  | none => h

/-! ### States -/

/-- STATE of a unit; a coupled member mirrors its consist except while SIDED (R50). -/
def Hw.setSt (h : Hw) (u s : Nat) : Hw :=
  h.each (h.tree u) (fun h m => if m != u && h.st m == stSIDED && (s == 2 || s == 3) then h else h.put U_STATE_STATE m s)

/-- LOOP of a unit and every member under it. -/
def Hw.setLoop (h : Hw) (u : Nat) (b : Bool) : Hw := h.each (h.tree u) (fun h m => h.putB U_STATE_LOOP m b)

/-- U_FAULT.ISOLATED of a unit and every member under it. -/
def Hw.setIsoFlag (h : Hw) (u v : Nat) : Hw := h.each (h.tree u) (fun h m => h.put U_FAULT_ISOLATED m v)

/-- The loop opens (R94, R116): the hold value takes the last committed drive code, OLSRC is 0, WIN and COMPLIANCE read 0. -/
def Hw.openLoop (h : Hw) (u : Nat) : Hw :=
  let h := h.setLoop u false
  let h := h.each (h.tree u) (fun h m =>
    let h := h.put U_DRV_HOLD_CODE m (h.get U_DRV_CODE_CODE m)
    let h := h.put U_MODE_OLSRC m 0
    (h.put U_STATE_WIN m 0).put U_STATE_COMPLIANCE m 0)
  h.modU u (fun x => { x with law := { x.law with init := none } })

/-- T and r_s at 0 (R72). -/
def Hw.zeroRef (h : Hw) (u : Nat) : Hw :=
  let h := (h.put U_REF_TARGET_CODE u 0).put U_REF_SLEWED_CODE u 0
  h.modU u (fun x => { x with ref := { x.ref with ovr := none, rBefore := 0, tBefore := 0 } })

/-- T_SAFE of a die in metronome ticks (R336). -/
def Hw.tSafe (h : Hw) (d : Nat) : Nat := max 1 (min 100 (h.get ILK_CFG_TSAFE d)) * 24576

/-- The registers of a unit's die that its ticks use, as they stand. -/
def Hw.dieCfgNow (h : Hw) (u : Nat) : DieCfg :=
  let d := h.dieOf u
  { tsafe := h.tSafe d, settle := h.get ILK_CFG_ISO_SETTLE d, smin := h.get CAL_TKO_SHADOW_MIN d, tol := h.get CAL_TKO_TOL_CODE d }

/-- Those registers as a unit's tick uses them: a write counts from the tick whose guard instant follows it (R446). -/
def Hw.dcfg (h : Hw) (u : Nat) : DieCfg := (h.unit u).dcfg.getD (h.dieCfgNow u)

/-- T_PB of a die in metronome ticks: 33 points operations of 50 PBCLK periods (R191, R333). -/
def Hw.tPb (h : Hw) (d : Nat) : Nat := 33 * 50 * 8 * 2 ^ h.get DIE_PB_CFG_DIV d

/-- The earlier of a deadline and another (R332). -/
def earlier (a : Option Nat) (b : Nat) : Option Nat :=
  match a with | none => some b | some x => some (min x b)

/-- A unit's off-load record changed. -/
def Hw.modS (h : Hw) (u : Nat) (f : SafeS → SafeS) : Hw := h.modU u (fun x => { x with safe := f x.safe })

/-- The ramp to zero starts at tick `n` (R88): the queue is flushed, T is 0, and the tick's slew step, where it has been made,
is made again as a ramp step. -/
def Hw.startRamp (h : Hw) (u n : Nat) : Hw :=
  let h := h.modU u (fun x => { x with ref := { x.ref with q := [], ready := 0, flush := 0, ovr := none },
                                       safe := { x.safe with ramp := true, rampDone := false } })
  let h := h.put U_REF_TARGET_CODE u 0
  if (h.unit u).ref.slewAt = some n then
    let (a, b) := h.rates u
    h.putC U_REF_SLEWED_CODE u (slewStep 0 (h.unit u).ref.rBefore a b)
  else h

/-- A unit enters SAFING at tick `n` (R67, R88, R205, R332). A follower that does so by itself, not with its consist, leaves the consist's
loop: its own drive ramps (R56). -/
def Hw.enterSafing (h : Hw) (u n : Nat) (fin : RampEnd) (dl : Option Nat) (own : Bool) : Hw :=
  let h := h.abandon u n
  let h := h.haltOf u n own
  let h := if h.isFollower u && !(h.unit u).safe.mirr && h.flag U_STATE_LOOP u then h.openLoop u else h
  let h := h.setSt u stSAFING
  let h := h.modS u (fun s => { s with fin := fin, deadline := dl, req := false, latched := false, rb := false, direct := false,
                                       inTh := s.inTh })
  h.startRamp u n

/-- The dies of a unit isolated at tick `n` assert ISO_N at the tick after, if no other unit of theirs is live (R335). -/
def Hw.isoMark (h : Hw) (u n : Nat) : Hw := h.each (h.leaves u) (fun h m => h.modD (ownDie m) (fun x => { x with isoDue := some n }))

/-- A unit is FAULTED with its output isolated at once (R67): ISOLATED or CHECKING with a fault. A buffer that drove the contact check stays
on until the latch of the safe pattern (R330). -/
def Hw.faultIsolated (h : Hw) (u n : Nat) : Hw :=
  let h := h.abandon u n
  let h := h.haltOf u n false
  let out := h.st u == stCHECKING
  let h := h.each (h.tree u) (fun h m => h.modS m (fun s => { s with out := out, latched := s.latched && !out }))
  let h := (h.setSt u stFAULTED).setIsoFlag u 1
  let h := h.isoMark u n
  let h := h.modU u (fun x => { x with chk := { x.chk with phase := 0, heldIso := false, heldOwn := false }, safe := { x.safe with ramp := false } })
  h.zeroRef u

/-- Immediate isolation of a unit on its load (R141, R352): the safe pattern is requested with no ramp of the drive. Until the readback
a unit that was not FAULTED shows SAFING, with R88's rules for the queue and T, which no rule states: the model's choice
(notes/assumptions/78.md); a FAULTED one stays FAULTED (R142). -/
def Hw.isolateNow (h : Hw) (u n : Nat) (err : Bool) : Hw :=
  let h := h.abandon u n
  let h := h.haltOf u n false
  let h := if h.flag U_STATE_LOOP u then h.openLoop u else h
  let h := if h.st u == stFAULTED then h.modS u (fun s => { s with ramp := false }) else (h.setSt u stSAFING).startRamp u n
  let h := h.modS u (fun s => { s with rampDone := true, direct := true, fin := .faultedIsolated, req := true,
                                       latched := false, rb := false, started := (h.leaves u).length })
  h.reqSafe u err

/-- The unit enters FAULTED, connected, holding its drive (R141). -/
def Hw.faultConnected (h : Hw) (u n : Nat) : Hw :=
  let h := h.abandon u n
  let h := h.haltOf u n false
  let h := if h.flag U_STATE_LOOP u then h.openLoop u else h
  let h := h.setSt u stFAULTED
  let h := h.setIsoFlag u 0
  let h := h.modS u (fun s => { s with ramp := false, rampDone := false })
  h.zeroRef u

/-! ### Faults -/

/-- The action of a unit's fault policy (U_FAULT_POL). -/
def Hw.policy (h : Hw) (u : Nat) : Nat := match h.get U_FAULT_POL_POLICY u with | 0 => 1 | 1 => 2 | _ => 3

/-- The action a code calls for on a unit (R139, R141): 0 Record, 1 HOLD, 2 ZERO, 3 ISOLATE, 4 immediate isolation. FLT_REMOTE_LOST
under SHARE and FLT_THERM bring their own. -/
def Hw.faultAct (h : Hw) (u code : Nat) : Nat :=
  match code with
  | 5 => 3
  | 7 => 4
  | 8 => 0
  | 9 => 3
  | 11 => 4
  | _ => h.policy u

/-- A fault recorded on a unit at tick `t` (R140): of several codes of one tick FIRST, if it was 0, and LAST take the lowest. -/
def Hw.recordFault (h : Hw) (u code t : Nat) : Hw :=
  let h := h.inc U_FAULT_COUNT_COUNT u
  if bit (h.get U_FAULT_MAP_MAP u) (code - 1) then h
  else
    let f := (h.unit u).flt
    let same := f.recAt == some t
    let fst := h.get U_FAULT_FIRST u == 0
    let codes := if same then code :: f.recs else [code]
    let low := codes.foldl min 255
    let h := h.modU u (fun x => { x with flt := { x.flt with recAt := some t, recs := codes, firstNow := fst || (same && f.firstNow) } })
    let h := h.put U_FAULT_MAP_MAP u (setBit (h.get U_FAULT_MAP_MAP u) (code - 1))
    let h := (h.put U_FLAGS_FAULT u 1).put U_FAULT_LAST u low
    if fst then (h.put U_FAULT_FIRST u code).put U_FAULT_TIME_TICK u t
    else if same && f.firstNow then h.put U_FAULT_FIRST u low
    else h

/-- What a unit is, to be restored where a stronger action of the same tick replaces a weaker one (R141). -/
def Hw.preFault (h : Hw) (u : Nat) : PreFault :=
  { state := h.st u, loop := h.get U_STATE_LOOP u, win := h.get U_STATE_WIN u, compl := h.get U_STATE_COMPLIANCE u,
    hold := h.get U_DRV_HOLD_CODE u, olsrc := h.get U_MODE_OLSRC u, t := h.get U_REF_TARGET_CODE u,
    r := h.get U_REF_SLEWED_CODE u, ovr := (h.unit u).ref.ovr, q := (h.unit u).ref.q, ready := (h.unit u).ref.ready, ramp := (h.unit u).safe.ramp }

/-- The unit put back as it was before the tick's first fault acted. -/
def Hw.restoreFault (h : Hw) (u : Nat) (p : PreFault) : Hw :=
  let h := h.setSt u p.state
  let h := h.setLoop u (p.loop == 1)
  let h := (h.put U_STATE_WIN u p.win).put U_STATE_COMPLIANCE u p.compl
  let h := (h.put U_DRV_HOLD_CODE u p.hold).put U_MODE_OLSRC u p.olsrc
  let h := (h.put U_REF_TARGET_CODE u p.t).put U_REF_SLEWED_CODE u p.r
  h.modU u (fun x => { x with ref := { x.ref with ovr := p.ovr, q := p.q, ready := p.ready }, safe := { x.safe with ramp := p.ramp } })

/-- The loop opens on bad feedback, or an open-loop drive stops following r_s, and the drive holds for a period (R138). -/
def Hw.loseFeedback (h : Hw) (u : Nat) : Hw :=
  let h := if h.flag U_STATE_LOOP u then
      let h := h.openLoop u
      if h.st u == stCLOSED then h.setSt u stOPEN else h
    else h.each (h.tree u) (fun h m => (h.put U_DRV_HOLD_CODE m (h.get U_DRV_CODE_CODE m)).put U_MODE_OLSRC m 0)
  h.modS u (fun s => { s with wait := 1 })

/-- A follower whose own fault acts no longer follows its consist's output (R56, R411). -/
def Hw.ownCourse (h : Hw) (u : Nat) : Hw :=
  if h.isFollower u && (h.unit u).safe.mirr then
    let h := if h.flag U_STATE_LOOP u then h.openLoop u
      else h.each (h.tree u) (fun h m => h.put U_DRV_HOLD_CODE m (h.get U_DRV_CODE_CODE m))
    h.modS u (fun s => { s with mirr := false })
  else h

/-- An action applied to a unit at tick `t` for a fault of tick `base`, from which the deadline counts (R67, R141, R142, R332). -/
def Hw.applyAct (h : Hw) (u t base code act : Nat) : Hw :=
  let h := if act = 0 then h else h.ownCourse u
  let s := h.st u
  let dl := base + (h.dcfg u).tsafe
  let h := if act ≥ 3 && (h.onLoad u || s == stSAFING || (s == stFAULTED && !h.flag U_FAULT_ISOLATED u)) then
    h.put U_ILK_STAT_CAUSE u 5 else h
  if act = 0 && !(s == stISOLATED || s == stCHECKING) then h
  else if s == stISOLATED then
    let h := h.faultIsolated u t
    if code == 11 || (act == 4 && !((h.leaves u).all (fun m => (h.unit m).safeLatched))) then h.reqSafe u (code == 11) else h
  else if s == stCHECKING then (h.faultIsolated u t).reqSafe u (code == 11)
  else if s == stFAULTED && h.flag U_FAULT_ISOLATED u then (if act == 4 then h.reqSafe u (code == 11) else h)
  else if act == 4 then h.isolateNow u t (code == 11)
  else if s == stSAFING then
    h.modS u (fun x =>
      match x.fin with
      | .isolated => { x with fin := .faultedIsolated }
      | .faultedConnected => if act == 3 then { x with fin := .faultedIsolated, deadline := earlier x.deadline dl } else x
      | .faultedIsolated => x)
  else if s == stFAULTED then
    if act == 1 then h
    else
      let h := h.modS u (fun x => { x with
        fin := if act == 3 then .faultedIsolated else if x.ramp then x.fin else .faultedConnected,
        deadline := if act == 3 then earlier x.deadline dl else x.deadline })
      h.startRamp u t
  else if act == 1 then h.faultConnected u t
  else h.enterSafing u t (if act == 3 then .faultedIsolated else .faultedConnected) (if act == 3 then some dl else none) false

/-- Captures of a unit whose trigger condition a test of KIND and ARG finds to hold (R150). -/
def Hw.capHit (h : Hw) (u : Nat) (p : Nat → Nat → Bool) : Hw :=
  h.each ((List.range 8).map (fun c => h.dieOf u * 8 + c)) (fun h c =>
    if h.get MUS_CAP_STAT_STATE c == 1 && h.get MUS_CAP_UNIT_UNIT c == u && p (h.get MUS_CAP_TRIG_KIND c) (h.get MUS_CAP_TRIG_ARG c)
    then h.modC c (fun x => { x with trigN := true }) else h)

/-- A unit, its consist, that one's, up to the outermost (R48: depth at most 4). -/
def Hw.chain (h : Hw) (u : Nat) : List Nat :=
  let a := h.headOf1 u; let b := h.headOf1 a; let c := h.headOf1 b
  [u, a, b, c, h.headOf1 c].eraseDups

/-- A fault whose action is the unit's policy: the consist's replaces a follower's, whose station tells it (R51). -/
def Hw.polAct (h : Hw) (u code : Nat) : Nat :=
  if h.isFollower u && [1, 2, 3, 4, 6, 12].contains code then 0 else h.faultAct u code

/-- A fault raised on a unit at tick `t`, with an action where the code's own does not apply (R140, R141, R144). A member's is raised on
its consist, at every level up to the outermost, which acts, and recorded on each of them (R51). -/
def Hw.raiseAt (h : Hw) (u0 code : Nat) (own : Option Nat) (t : Nat) : Hw :=
  let u := h.headOf u0
  let h := h.each (h.chain u0) (fun h m => h.recordFault m code t)
  let lost := (code == 3 || code == 4) && !h.isFollower u
  let act := own.getD (h.polAct u code)
  let f := (h.unit u).flt
  let same := f.any && f.tick == t
  let pre := if same then f.pre else some (h.preFault u)
  let act' := if same then max act f.act else act
  let lost' := if same then lost || f.lost else lost
  let h := h.modU u (fun x => { x with flt := { x.flt with
    tick := t, any := true, act := act', lost := lost', pre := pre } })
  let h := h.put U_FAULT_ACTION u (max (h.get U_FAULT_ACTION u) (min act 3))
  let h := h.capHit u (fun k a => k == 2 && (a == 0 || a == code))
  let undo := same && decide (f.act < act' ∨ f.lost ≠ lost') && (match f.pre with | some p => p.state == 2 || p.state == 3 || p.state == 6 | none => false)
  let h := if undo then (match f.pre with | some p => h.restoreFault u p | none => h) else h
  let defer := lost' && act' != 0 && act' != 4 && h.onLoad u
  let h := if lost' && (!same || undo) && (h.onLoad u || h.st u == stCHECKING) then (h.abandon u t).loseFeedback u else h
  let h := if defer then h.modU u (fun x => { x with flt := { x.flt with later := some act' } })
    else
      let h := if act' = 4 then h.modU u (fun x => { x with flt := { x.flt with later := none } }) else h
      if same && !undo && act ≤ f.act && f.act ≠ 0 then (if code = 11 && h.faultIso u then h.reqSafe u true else h)
      else h.applyAct u t t code act'
  h.plan u

/-- The action that lost feedback of the tick before left applies at tick `t` (R138). -/
def Hw.lostAct (h : Hw) (u t : Nat) : Hw :=
  let f := (h.unit u).flt
  match f.later with
  | some act => (h.modU u (fun x => { x with flt := { x.flt with later := none } })).applyAct u t f.tick 0 act
  | none => h

/-- A fault raised on a unit at its last tick (R140). -/
def Hw.raiseAct (h : Hw) (u0 code : Nat) (own : Option Nat) : Hw := h.raiseAt u0 code own (h.unit (h.headOf u0)).clk.last

/-- A tagged value presented to a commit port is stopped: it is counted, and its unit takes FLT_SPEC (R33, R78). -/
def Hw.specBlock (h : Hw) (u : Nat) : Hw :=
  (h.inc DIE_SPEC_BLOCK_COUNT (h.dieOf u)).modU u (fun x => { x with pend := x.pend ++ [{ act := .fault 12 9 }] })

/-! ### Sensors mapped to a unit (R349) -/

/-- Sensor `n` of die `d` is mapped to a channel or siding. -/
def Hw.mapsLeaf (h : Hw) (d n m : Nat) : Bool :=
  if n < 4 then ownDie m == d
  else if isChan m then ownDie m == d && bit (h.get TH_MAP_CH (d * 12 + n)) (m % 32)
  else (List.range 32).any (fun c => h.servedBy (ownDie m * 32 + c) == some m && ownDie m == d && bit (h.get TH_MAP_CH (d * 12 + n)) c)

/-- Sensor `n` of die `d` is mapped to a unit (R349): a consist to every sensor that maps any of its members. -/
def Hw.maps (h : Hw) (d n u : Nat) : Bool := (h.leaves u).any (fun m => h.mapsLeaf d n m)

/-- Every sensor of the station. -/
def allSensors : List (Nat × Nat) := (List.range 8).flatMap (fun d => (List.range 12).map (fun n => (d, n)))

/-- A sensor mapped to the unit is at STOP or above (R143, R351). -/
def Hw.thermHigh (h : Hw) (u : Nat) : Bool :=
  allSensors.any (fun p => h.maps p.1 p.2 u && decide (3 ≤ h.get TH_VAL_LEVEL (p.1 * 12 + p.2)))

/-! ### Faults that wait -/

/-- FLT_THERM is recorded also on the members that a sensor at STOP or above maps (R51, R144, R351). -/
def Hw.thermMembers (h : Hw) (u code n : Nat) : Hw :=
  if code = 9 then h.each (((h.tree u).drop 1).filter h.thermHigh) (fun h m => h.recordFault m code n) else h

/-- A fault that waited for a tick of its unit is raised at tick `n` (R57, R192, R352): its action is the code's own (9), the fault policy
as it stands (8), or the one named. -/
def Hw.dueFault (h : Hw) (u code act n : Nat) : Hw :=
  (h.thermMembers u code n).raiseAt u code (match act with | 9 => none | 8 => some (h.policy (h.headOf u)) | a => some a) n

/-- A fault raised with the action of its code. -/
def Hw.raise (h : Hw) (u code : Nat) : Hw := h.raiseAct u code none

/-- A record of a unit's watch changed. -/
def Hw.modW (h : Hw) (u : Nat) (f : WatchS → WatchS) : Hw := h.modU u (fun x => { x with wat := f x.wat })

/-- The registers a clear sets to 0 (R143). A policy action that R138 has deferred goes with them: the model's choice
(notes/assumptions/96.md). -/
def Hw.clearRegs (h : Hw) (m : Nat) : Hw :=
  let h := ((h.put U_FAULT_FIRST m 0).put U_FAULT_LAST m 0).put U_FAULT_ACTION m 0
  let h := ((h.put U_FAULT_MAP_MAP m 0).put U_SUP_STAT_FE_RUN m 0).put U_SUP_STAT_SLW_RUN m 0
  let h := (h.put U_FRZ_STAT_FRZ_RUN m 0).put U_LATE_STAT_RUN m 0
  (h.modW m (fun _ => {})).modU m (fun x => { x with flt := {} })

/-! ### Isolation -/

/-- An isolate request (or another cause of R332) examined at tick `n`, with its deadline. -/
def Hw.isolateReq (h : Hw) (u n dl cause : Nat) (own : Bool) : Hw :=
  let s := h.st u
  if s == stISOLATED || h.faultIso u then h
  else
    let h := h.put U_ILK_STAT_CAUSE u cause
    if s == stCHECKING then
      if cause == 4 then h.modU u (fun x => { x with chk := { x.chk with heldIso := true, heldOwn := if x.chk.heldIso then x.chk.heldOwn else own } })
      else (h.each (h.tree u) (fun h m => h.put U_CHK_RES_OUTCOME m 3)).raiseAt u 7 none n
    else if s == stSAFING then
      h.modS u (fun x => { x with
        deadline := earlier x.deadline dl,
        fin := match x.fin with | .faultedConnected => .faultedIsolated | y => y })
    else if s == stFAULTED then
      (h.modS u (fun x => { x with fin := .faultedIsolated, deadline := earlier x.deadline dl })).startRamp u n
    else h.enterSafing u n .isolated (some dl) own

/-- The Interlocking requests the isolation latch of a unit (R333). A position that shows the safe pattern already needs no
operation (R193): its buffer is LOW from the request. -/
def Hw.requestIso (h : Hw) (u : Nat) : Hw :=
  let n := (h.unit u).clk.last
  let same := (h.leaves u).filter (fun m => h.patAfter m == h.get U_SAFE_PAT_SAFE m)
  let rest := (h.leaves u).filter (fun m => h.patAfter m != h.get U_SAFE_PAT_SAFE m)
  let h := h.modS u (fun s => { s with req := true, started := rest.length, rb := rest.isEmpty, rbAt := n })
  let h := h.each same (fun h m => (h.dropOps m).modU m (fun x => { x with safeLatched := true, safe := { x.safe with latched := true } }))
  h.each rest (fun h m => h.safeOp u m false)

/-- ISOLATED, or FAULTED, isolated, at tick `n` (R67, R72, R302, R333). -/
def Hw.isolated (h : Hw) (u n : Nat) : Hw :=
  let s := (h.unit u).safe
  let faulted := h.st u == stFAULTED || (match s.fin with | .isolated => false | _ => true)
  let h := if h.flag U_STATE_LOOP u then h.openLoop u else h
  let h := h.setSt u (if faulted then stFAULTED else stISOLATED)
  let h := h.setIsoFlag u 1
  let h := h.modU u (fun x => { x with safe := { cause := x.safe.cause, causeDl := x.safe.causeDl, isoAt := some n }, law := { x.law with work := none } })
  let h := h.zeroRef u
  h.isoMark u n

end Sys2Proof.Machine
end

