-- ==== Sys2Proof/Machine/Regs.lean ====
section
/-! DEFINITION. Register words: the fields that a word of a block holds, what a read of the word returns, and what a write
of it does to plain fields (R8 to R11). Fields whose writes start an action are handled where their command is. -/

namespace Sys2Proof.Machine

/-- A part of a field that lies in a word: the field, its instance, the first bit in the word, the first bit of the field,
and the number of bits. -/
structure Hit where
  fld : Fld
  i : Nat
  at_ : Nat
  from_ : Nat
  n : Nat
deriving DecidableEq, Repr

/-- Instance `i` of a field as far as it lies in the 32 bits from bit `w` of its block. -/
def hitAt (f : Fld) (w i : Nat) : Option Hit :=
  let p := f.pos + f.stride * i
  if p < w + 32 ∧ w < p + f.width then
    let lo := max p w
    let hi := min (p + f.width) (w + 32)
    some { fld := f, i := i, at_ := lo - w, from_ := lo - p, n := hi - lo }
  else none

/-- The instances of a field that lie in a word. -/
def hitsOf (f : Fld) (w : Nat) : List Hit :=
  if f.stride = 0 then (hitAt f w 0).toList
  else
    let i0 := (w + 1 - f.pos - f.width + f.stride - 1) / f.stride
    let i1 := (w + 32 - f.pos + f.stride - 1) / f.stride
    (List.range (min i1 f.count - i0)).filterMap (fun k => hitAt f w (i0 + k))

/-- The fields of the word at a byte offset of a block. -/
def hits (b : Blk) (off : Nat) : List Hit := (blockFields b).flatMap (fun f => hitsOf f (8 * off))

/-- A word from the values of its fields; a bit of no field reads 0 (R10). -/
def wordOf (l : List Hit) (v : Hit → Nat) : Nat :=
  l.foldl (fun a x => a + v x / 2 ^ x.from_ % 2 ^ x.n * 2 ^ x.at_) 0

/-- The part of a written word that belongs to a field, in place within the field. -/
def Hit.part (x : Hit) (val : Nat) : Nat := val / 2 ^ x.at_ % 2 ^ x.n * 2 ^ x.from_

/-- A field's value with the bits of a hit replaced by those of a written word. -/
def Hit.merge (x : Hit) (old val : Nat) : Nat :=
  old - old / 2 ^ x.from_ % 2 ^ x.n * 2 ^ x.from_ + x.part val

/-- A field's value with the bits written as 1 cleared (R11, W1C). -/
def Hit.clear (x : Hit) (old val : Nat) : Nat :=
  (List.range x.n).foldl (fun o k => if bit val (x.at_ + k) then clrBit o (x.from_ + k) else o) old

/-- The value a stored field reads as: write-only fields, commands' write-only sides and the like read what is stored; a
WO field reads 0 (R11). -/
def Hw.fieldRead (h : Hw) (inst : Nat) (x : Hit) : Nat := if x.fld.acc = .wo then 0 else h.get x.fld inst x.i

/-- Bits of instance `i` of a field that read 0 or values that act as others on being written: the low address bits of aligned bases, the
check length of U_CHK_CFG.N, the reserved bits of a section's shift word (R10, R108). -/
def fixField (f : Fld) (i v : Nat) : Nat :=
  if f = MUS_CAP_EXT_BASE_ADDR then v / 4096 * 4096
  else if f = TT_START_PC_ADDR then v / 8 * 8
  else if f = STN_IMG_ADDR_ADDR then v / 64 * 64
  else if f = U_CHK_CFG_N then v / 4 * 4
  else if (f = U_LAW_COEF_VALUE ∨ f = U_SHARE_COEF_VALUE) ∧ i % 6 = 5 then v % 2 ^ 26
  else v

/-- A write of a word to the plain fields (RW, and W1C clears) that a test admits (R10, R11). -/
def Hw.writeFields (h : Hw) (b : Blk) (inst off val : Nat) (p : Fld → Bool) : Hw :=
  h.each (hits b off) (fun h x =>
    if !p x.fld then h
    else match x.fld.acc with
      | .rw | .lck => h.put x.fld inst (fixField x.fld x.i (x.merge (h.get x.fld inst x.i) val)) x.i
      | .w1c => h.put x.fld inst (x.clear (h.get x.fld inst x.i) val) x.i
      | _ => h)

/-- Words that wait, with a guard instant passed. -/
def guardW (l : List (Nat × Nat × Bool)) : List (Nat × Nat × Bool) := l.map (fun p => (p.1, p.2.1, true))

/-- The words of a capture that have waited for a guard instant take effect (R446). -/
def Hw.capWords (h : Hw) (c : Nat) : Hw :=
  let l := (h.cap c).pendW
  (h.modC c (fun x => { x with pendW := l.filter (fun p => !p.2.2) })).each (l.filter (fun p => p.2.2))
    (fun h p => h.writeFields .cap c p.1 p.2.1 (fun _ => true))

/-- The words of an engine that have waited for a guard instant take effect (R446). -/
def Hw.engWords (h : Hw) (e : Nat) : Hw :=
  let l := (h.eng e).pendW
  (h.modE e (fun x => { x with pendW := l.filter (fun p => !p.2.2) })).each (l.filter (fun p => p.2.2))
    (fun h p => h.writeFields .eng e p.1 p.2.1 (fun _ => true))

/-- Every word of an engine that waits takes effect at once, where no tick is to come (R446). -/
def Hw.engWordsNow (h : Hw) (e : Nat) : Hw := (h.modE e (fun x => { x with pendW := guardW x.pendW })).engWords e

/-- Every word of a capture that waits takes effect at once. -/
def Hw.capWordsNow (h : Hw) (c : Nat) : Hw := (h.modC c (fun x => { x with pendW := guardW x.pendW })).capWords c

/-- The value a write would give a field. -/
def Hw.writtenVal (h : Hw) (inst : Nat) (x : Hit) (val : Nat) : Nat := fixField x.fld x.i (x.merge (h.get x.fld inst x.i) val)

/-- A word holds a field with a given access type. -/
def hasAcc (b : Blk) (off : Nat) (a : Acc) : Bool := (hits b off).any (fun x => x.fld.acc == a)

/-- A word holds a field that admits plain writes. -/
def hasPlain (b : Blk) (off : Nat) : Bool := (hits b off).any (fun x => x.fld.acc == .rw || x.fld.acc == .lck || x.fld.acc == .w1c)

end Sys2Proof.Machine
end

