-- ==== Sys2Proof/Machine/Loop.lean ====
section
/-! DEFINITION. Law-set loads, the loop commands at their tick, and words written to a unit window at their tick
(R11, R106, R107, R123 to R128, R446). -/

namespace Sys2Proof.Machine

/-- Byte offset of image `s` in the coefficient SRAM of a unit's die (R106). -/
def Hw.lawImage (h : Hw) (u s : Nat) : Nat := h.get U_LAWSET_PTR_OFFS u * 64 + s * 0x340

/-- The image lies within the coefficient partition (R106). -/
def Hw.lawImageOk (h : Hw) (u s : Nat) : Bool := decide (h.lawImage u s + 0x340 ≤ 0x60000)

/-- The live field that word `w` of an image is copied to (R106). -/
def Hw.putLawWord (h : Hw) (u w v : Nat) : Hw :=
  if w < 192 then h.put U_LAW_COEF_VALUE u (fixField U_LAW_COEF_VALUE w v) w
  else if w < 196 then (h.put U_LAW_CFG_NSEC u (bits v 3 0) (w - 192)).put U_LAW_CFG_EN u (bits v 4 4) (w - 192)
  else if w < 204 then
    (if w % 2 = 0 then h.put U_LAW_HI_CODE u v ((w - 196) / 2) else h.put U_LAW_LO_CODE u v ((w - 196) / 2))
  else h.put U_LAW_TRACK_CODE u v (w - 204)

/-- The copy of image `s` into the live set, every law state set to 0 (R106). -/
def Hw.copyLaw (h : Hw) (u s : Nat) : Hw :=
  let a := coefBase (h.dieOf u) + h.lawImage u s
  let h := h.each (List.range 208) (fun h w => h.putLawWord u w (h.rd32 (a + 4 * w)))
  h.modU u (fun x => { x with law := { x.law with z := [] } })

/-- A law-set load: made, or refused with RESULT 4 of U_LOOP_CMD (R106). -/
def Hw.loadLaw (h : Hw) (u s : Nat) : Hw :=
  if h.lawImageOk u s then h.copyLaw u s else h.put U_LOOP_CMD_RESULT u 4

/-- The state that a SIDED unit's LOOP names counts for loop commands (R300, R123). -/
def Hw.loopSt (h : Hw) (u : Nat) : Nat :=
  if h.st u == stSIDED then (if h.flag U_STATE_LOOP u then stCLOSED else stOPEN) else h.st u

/-- The loop closes at tick `n` with a hold value (R125, R129). -/
def Hw.closeLoop (h : Hw) (u : Nat) (hold : Int) : Hw :=
  let h := h.setLoop u true
  let h := if h.st u == stSIDED then h else h.setSt u stCLOSED
  let h := h.each (h.tree u) (fun h m => h.modU m (fun x => { x with law := { x.law with zs := (0, 0) } }))
  h.modU u (fun x => { x with law := { x.law with init := some hold } })

/-- A loop command examined at its tick (R123, R125, R127): its RESULT and what it does. A tick at which feedback is lost refuses a close
(R124, R138). -/
def Hw.loopCmd (h : Hw) (u cmd mode law : Nat) : Hw :=
  let h := (h.put U_LOOP_CMD_BUSY u 0).put U_LOOP_CMD_CMD u cmd
  let s := h.loopSt u
  let res := fun (h : Hw) r => h.put U_LOOP_CMD_RESULT u r
  let lost := (h.unit u).flt.later.isSome
  match cmd with
  | 1 => if s == stOPEN && !lost then (res h 0).closeLoop u (h.code U_DRV_HOLD_CODE u) else res h 1
  | 2 =>
    if s == stCLOSED then
      let h := (res h 0).openLoop u
      if h.st u == stCLOSED then h.setSt u stOPEN else h
    else res h 1
  | 3 =>
    if (s == stCLOSED || s == stOPEN) && !lost then
      if h.lawImageOk u law then
        let h := if mode = 1 then h.abandon u (h.unit u).clk.last else h
        let d := h.code U_DRV_CODE_CODE u
        let h := ((res h 0).putC U_DRV_HOLD_CODE u d).put U_MODE_OLSRC u 0
        let same := h.get U_MODE_MODE u == mode
        let h := ((h.put U_MODE_MODE u mode).put U_MODE_LAW u law).copyLaw u law
        let h := if same then h else h.deriveSp u [1, 2]
        h.closeLoop u d
      else res h 4
    else res h 1
  | 4 => if h.closed u then res h 1 else (res h 0).loadLaw u (h.get U_MODE_LAW u)
  | _ => h

/-- A U_LOOP_CMD write (R123): RESULT 3 on a coupled member, 2 while a command waits; else it waits for its tick. -/
def Hw.loopWrite (h : Hw) (u cmd mode law : Nat) : Hw :=
  if h.flag U_LOOP_CMD_BUSY u then h.put U_LOOP_CMD_RESULT u 2
  else if h.isMember u then (h.put U_LOOP_CMD_RESULT u 3).put U_FLAGS_COUPLED_WR u 1
  else
    let h := ((h.put U_LOOP_CMD_CMD u cmd).put U_LOOP_CMD_NEW_MODE u mode).put U_LOOP_CMD_NEW_LAW u law
    if cmd = 0 ∨ 4 < cmd then h
    else if h.runs u then
      (h.put U_LOOP_CMD_BUSY u 1).modU u (fun x => { x with pend := x.pend ++ [{ act := .loop cmd mode law }] })
    else h.put U_LOOP_CMD_RESULT u 1

/-- Fields of a unit window that a write of their word does not reach through plain writes: they have commands of their
own, or another moment. -/
def tickPlain (f : Fld) : Bool :=
  f != U_LOOP_CTRL_RATE && f != U_RANGE_SEL_IRNG && f != U_RANGE_SEL_VRNG && f != U_RANGE_SEL_AR_EN && f != U_ILK_CFG_FIXMASK
    && f != U_MODE_LAW && f != U_LOOP_CMD_NEW_MODE && f != U_LOOP_CMD_NEW_LAW

/-- An operator cause qualified at instant `t` on a unit that is not isolated: it enters SAFING at a tick fixed by the instant
(R332); of two causes the earlier deadline counts. -/
def Hw.setCause (h : Hw) (u cause t : Nat) : Hw :=
  if h.st u == stISOLATED || h.faultIso u then h
  else
    let dl := t + h.tSafe (h.dieOf u)
    (h.put U_ILK_STAT_CAUSE u cause).modS u (fun s => match s.cause with
      | none => { s with cause := some (cause, t), causeDl := dl }
      | some (_, t0) => { s with cause := some (cause, t0), causeDl := min s.causeDl dl })

/-- A FIXMASK written at tick `n` (R325): a mask that newly names an absent input acts as an absence qualified at that tick. -/
def Hw.fixmaskAt (h : Hw) (u v n : Nat) : Hw :=
  let old := h.get U_ILK_CFG_FIXMASK u
  let h := h.put U_ILK_CFG_FIXMASK u v
  if (bitIdx 8 v).any (fun k => !bit old k && !bit (h.get STN_PANEL_FIX 0) k) then h.setCause u 3 n else h

/-- The limit laws whose setpoints a word of the window is about, where it changes them (R187, R448): their codes, the fields of U_SP_RNG,
and, at a change of U_MODE.MODE, the two whose limited quantity it changes. -/
def Hw.spOf (h0 h : Hw) (u off : Nat) : List Nat :=
  let ch := fun f : Fld => h0.get f u != h.get f u
  if off = 0x84 then [1] else if off = 0x88 then [2] else if off = 0x8C then [3]
  else if off = 0x40 then (if ch U_MODE_MODE then [1, 2] else [])
  else if off = 0x414 then
    (if ch U_SP_RNG_SP1R || ch U_SP_RNG_SP1F then [1] else []) ++ (if ch U_SP_RNG_SP2R || ch U_SP_RNG_SP2F then [2] else []) ++
      (if ch U_SP_RNG_SP3IR || ch U_SP_RNG_SP3IF || ch U_SP_RNG_SP3VR || ch U_SP_RNG_SP3VF then [3] else [])
  else []

/-- A word written to a unit window takes effect at a tick (R11, R446): LCK fields only with the loop open. The law set that a new
U_MODE.LAW loads follows every such word of the tick (R124). -/
def Hw.wordAtTick (h : Hw) (u off val : Nat) : Hw :=
  let h0 := h
  let cl := h.closed u
  let h := if cl && hasAcc .unit off .lck then h.put U_FLAGS_COEF_LOCKED u 1 else h
  let h := h.writeFields .unit u off val (fun f => tickPlain f && !(f.acc == .lck && cl))
  let h := if off = 0x50 ∧ bit val 7 then (match h.engOf u with | some e => h.put TT_SR_STAT_UNDERRUN e 0 | none => h) else h
  let h := if off = 0x640 then h.fixmaskAt u (bits val 7 0) (h.unit (h.headOf u)).clk.last else h
  let h := if off = 0xA0 ∧ cl = false then h.put U_LOOP_CTRL_RATE u (bits val 2 0) else h
  let l := Hw.spOf h0 h u off
  if l.isEmpty then h else h.deriveSp u l

/-- U_MODE.LAW written with the loop open: a change loads the law set it names, or is refused (R106, R124). -/
def Hw.lawWrite (h : Hw) (u l : Nat) : Hw :=
  if h.closed u || l == h.get U_MODE_LAW u then h
  else if h.lawImageOk u l then (h.put U_MODE_LAW u l).copyLaw u l
  else h.put U_LOOP_CMD_RESULT u 4

/-- A word of a unit that has no ticks takes effect at once. -/
def Hw.wordNow (h : Hw) (u off val : Nat) : Hw :=
  let h := h.wordAtTick u off val
  if off = 0x40 then h.lawWrite u (bits val 2 1) else h

end Sys2Proof.Machine
end

