-- ==== Sys2Proof/Machine/Connect.lean ====
section
/-! DEFINITION. Connecting a unit and its contact check (R327 to R331), and taking it off its load and isolating it
(R332 to R335). -/

namespace Sys2Proof.Machine

/-! ### Causes -/

/-- Every fixture input that a unit and its members require is present (R325, R51). -/
def Hw.fixOk (h : Hw) (u : Nat) : Bool :=
  (h.tree u).all (fun m => (bitIdx 8 (h.get U_ILK_CFG_FIXMASK m)).all (fun k => bit (h.get STN_PANEL_FIX 0) k))

/-- The units of the station that stand at the head of their own chain and run. -/
def Hw.heads (h : Hw) : List Nat :=
  ((List.range 256 ++ (List.range 16).map (· + 256) ++ (List.range 256).map (· + 512)).filter
    (fun u => h.runs u && !h.localMember u))

/-- The first loop tick whose guard instant falls more than 100 ns after a cause: 20 ns are 4.9 and 100 ns are 24.6 metronome
ticks (R332). -/
def safingTick (t n : Nat) : Bool := decide (t + 30 ≤ n)

/-- An affected unit enters SAFING at its tick `n` (R332), which takes its samples first; in CHECKING, the check is interrupted
(R331). -/
def Hw.unitSafing (h : Hw) (u n : Nat) : Hw :=
  match (h.unit u).safe.cause with
  | none => h
  | some (c, t) =>
    if safingTick t n then h.modS u (fun s => { s with cause := none, causeDl := 0, due := some (c, s.causeDl) }) else h

/-- The cause that acts at tick `n` (R332). -/
def Hw.safingDue (h : Hw) (u n : Nat) : Hw :=
  match (h.unit u).safe.due with
  | none => h
  | some (c, dl) => (h.modS u (fun s => { s with due := none })).isolateReq u n dl c false

/-! ### Connecting -/

/-- The refusal of a connect request, 0 where it is accepted (R327). -/
def Hw.connResult (h : Hw) (u : Nat) : Nat :=
  let d := h.dieOf u
  if h.st u != stISOLATED then 1
  else if h.flag ILK_STAT_ILK_OPEN d then 2
  else if h.flag ILK_STAT_ABORT d then 3
  else if !h.fixOk u then 4
  else if !(h.get STN_STATE_STATE 0 == 3 || h.get STN_STATE_STATE 0 == 5) || (h.die d).fenced then 5
  else if (h.leaves u).any (fun m => h.flag U_DRV_STAT_DRV_OT m) then 6
  else if h.isMember u || (isConsist u && !h.isCoupled u) then 7
  else 0

/-- The length of the contact check in periods (U_CHK_CFG.N). -/
def Hw.chkN (h : Hw) (u : Nat) : Nat := max 16 (min 4096 (h.get U_CHK_CFG_N u / 4 * 4))

/-- ISO_N of a die released at an instant, where it is asserted (R328). -/
def Hw.isoRelease (h : Hw) (d n : Nat) : Hw :=
  if h.flag ILK_STAT_ISO_REL d then h
  else ((h.put ILK_STAT_ISO_REL d 1).put ILK_STAT_BACKSTOP d 0).modD d (fun x => { x with isoAt := n, isoDue := none })

/-- CHECKING entered at tick `n` on ranges `i` and `j` (R327, R328, R207). -/
def Hw.chkEnter (h : Hw) (u n i j : Nat) : Hw :=
  let h := (h.takeRanges u i j n).modU u (fun x => { x with cons := { x.cons with fst := [] } })
  let h := h.setSt u stCHECKING
  let h := h.each (h.tree u) (fun h m =>
    let h := (h.put U_FAULT_ISOLATED m 0).put U_DRV_CODE_CODE m 0
    let h := h.modU m (fun x => { x with chk := { phase := 1, start := n, n := h.chkN m, a := h.get U_CHK_AMP_CODE m },
                                          safe := {}, law := { x.law with work := none } })
    if isPlain m then h.isoRelease (ownDie m) n else h)
  h.zeroRef u

/-! ### The contact check -/

/-- The connect pattern is due: ISO_SETTLE has passed since the release of ISO_N on every die of the unit (R328). -/
def Hw.chkLatchDue (h : Hw) (u n : Nat) : Bool :=
  h.st u == stCHECKING && (h.unit u).chk.phase == 1 && decide ((h.unit u).chk.start ≤ n) &&
    (h.leaves u).all (fun m => decide ((h.die (ownDie m)).isoAt + ticksOfUs (h.dcfg m).settle ≤ n))

/-- The connect pattern of the ranges in force requested at rank 1 at tick `n`, for each position whose pattern changes
(R193, R328). -/
def Hw.chkLatchReq (h : Hw) (u n : Nat) : Hw :=
  let h := h.each (h.leaves u) (fun h m => h.modU m (fun x => { x with safeLatched := false }))
  let (h, k) := h.reqPats u 1 (.connect u) (fun m => h.patOf m (h.irng m) (h.vrng m))
  h.modU u (fun x => { x with chk := { x.chk with phase := if k = 0 then 3 else 2, wait := k, lam := n } })

/-- SETTLE_max of a unit in metronome ticks: the larger of the SETTLE values of its ranges in force (R328, R181). -/
def Hw.settleMax (h : Hw) (u : Nat) : Nat :=
  (h.leaves u).foldl (fun s m => max s (ticksOfUs (max (h.ient m (h.irng m)).settle (h.vent m (h.vrng m)).settle))) 0

/-- k0 is due (R328). -/
def Hw.chkSettledDue (h : Hw) (u n : Nat) : Bool :=
  h.st u == stCHECKING && (h.unit u).chk.phase == 3 && decide ((h.unit u).chk.lam + h.settleMax u ≤ n)

/-- The check begins at k0 = `n` (R328). -/
def Hw.chkSettled (h : Hw) (u n : Nat) : Hw :=
  h.each (h.tree u) (fun h m => h.modU m (fun x => { x with chk := { x.chk with phase := 4, start := n, k := 0, sp := 0, sm := 0, cm := false, ovr := false } }))

/-- An accepted connect request at tick a = `n` on ranges `i` and `j` (R327, R328): the pattern is requested at a itself where ISO_SETTLE
has passed, and k0 is a too where no position's pattern changes and nothing is to settle. -/
def Hw.connAccept (h : Hw) (u n i j : Nat) : Hw :=
  let h := h.chkEnter u n i j
  let h := if h.chkLatchDue u n then h.chkLatchReq u n else h
  if h.chkSettledDue u n then h.chkSettled u n else h

/-- A connect request examined at tick `n`: its RESULT, and what it does (R327). -/
def Hw.connReq (h : Hw) (u n : Nat) : Nat × Hw :=
  let r := h.connResult u
  if r = 0 then (0, h.connAccept u n (h.get U_RANGE_SEL_IRNG u) (h.get U_RANGE_SEL_VRNG u)) else (r, h)

/-- A U_CONN_CMD write (R327): RESULT 8 while a command waits; on a coupled member the lowest cause that holds, 7 at
the latest (R447); a unit that has no ticks is answered at
once. -/
def Hw.connWrite (h : Hw) (u cmd : Nat) : Hw :=
  if h.isMember u then (h.put U_CONN_CMD_RESULT u (if cmd = 1 then h.connResult u else 7)).put U_FLAGS_COUPLED_WR u 1
  else if h.flag U_CONN_CMD_BUSY u then h.put U_CONN_CMD_RESULT u 8
  else
    let h := h.put U_CONN_CMD_CMD u cmd
    if cmd = 0 ∨ 2 < cmd then h
    else if h.runs u then
      (h.put U_CONN_CMD_BUSY u 1).modU u (fun x => { x with pend := x.pend ++ [{ act := .conn cmd }] })
    else if cmd = 1 then h.put U_CONN_CMD_RESULT u (h.connResult u) else h.put U_CONN_CMD_RESULT u 0

/-- A U_CONN_CMD command examined at tick `n`. -/
def Hw.connAtTick (h : Hw) (u n cmd : Nat) : Hw :=
  let h := h.put U_CONN_CMD_BUSY u 0
  if cmd = 1 then
    let (r, h) := h.connReq u n
    h.put U_CONN_CMD_RESULT u r
  else (h.put U_CONN_CMD_RESULT u 0).isolateReq u n (n + (h.dcfg u).tsafe) 4 false

/-- The check's bookkeeping of tick `n` (R329). -/
def Hw.chkTick (h : Hw) (u n : Nat) : Hw :=
  h.modU u (fun x =>
    let c := x.chk
    if c.phase = 4 ∧ c.start < n ∧ c.k < c.n then
      let k := c.k + 1
      { x with chk := { c with k := k,
                               sp := if c.n / 4 < k ∧ k ≤ c.n / 2 then c.sp + x.smp.v else c.sp,
                               sm := if 3 * c.n / 4 < k then c.sm + x.smp.v else c.sm,
                               cm := c.cm || h.flag U_SUP_STAT_SLW_NOW u, ovr := c.ovr || x.smp.ovV } }
    else x)

/-- The mismatch m of a finished check (R329). -/
def Hw.chkM (h : Hw) (u : Nat) : Nat :=
  let c := (h.unit u).chk
  let k := h.code U_CHK_K_K u
  if k = 0 then 0
  else
    let dv := tdiv (c.sp - c.sm) (c.n / 4)
    let dx := rdiv (2 * c.a * k) (2 ^ 30)
    if dx = 0 then 0xFFFF else min 0xFFFF ((dv - dx).natAbs * 2 ^ 16 / dx.natAbs)

/-- A finished check passes (R329). -/
def Hw.chkPass (h : Hw) (u : Nat) : Bool :=
  let c := (h.unit u).chk
  decide (h.chkM u ≤ h.get U_CHK_CFG_TH u) && !c.cm && !c.ovr

/-- The followers under a unit: the consist and the member index. -/
def Hw.followers (h : Hw) (u : Nat) : List (Nat × Nat) :=
  ((h.tree u).filter isConsist).flatMap (fun c => ((h.members c).filter (fun m => m.2.2.2.1)).map (fun m => (c, m.1)))

/-- The state a follower's station last told. -/
def Hw.follSt (h : Hw) (p : Nat × Nat) : Nat := tget (h.unit p.1).cons.fst p.2 0

/-- A follower has failed its check: FAULTED (R51). -/
def Hw.follFail (h : Hw) (p : Nat × Nat) : Bool := h.follSt p == 5 || h.follSt p == 7

/-- Every channel of the unit has finished its check, and every follower's station has told how its own ended (R51). -/
def Hw.chkEnd (h : Hw) (u : Nat) : Bool :=
  h.st u == stCHECKING && (h.leaves u).all (fun m => (h.unit m).chk.phase == 4 && decide ((h.unit m).chk.n ≤ (h.unit m).chk.k)) &&
    (h.followers u).all (fun p => h.follSt p == 2 || h.follFail p)

/-- The result registers of a finished check (U_CHK_RES). -/
def Hw.chkRecord (h : Hw) (u m : Nat) (pass cm ovr : Bool) : Hw :=
  let h := (h.put U_CHK_RES_M u m).put U_CHK_RES_OUTCOME u (if pass then 1 else 2)
  (h.putB U_CHK_RES_CM u cm).putB U_CHK_RES_OVR u ovr

/-- A served channel enters SIDED where its unit reaches CONNECTED_OPEN (R311). -/
def Hw.sideAttached (h : Hw) (u : Nat) : Hw :=
  h.each (h.leaves u) (fun h m => if (h.servedBy m).isSome then ((h.put U_STATE_STATE m stSIDED).put U_STATE_SIDED_BY m ((h.servedBy m).getD 0 % 2)).put CAL_SID_PHASE (ownDie m) 2 ((h.servedBy m).getD 0 % 2) else h)

/-- The check evaluated at its last tick e (R329 to R331): CONNECTED_OPEN with drive and hold value 0, or FLT_CONTACT. -/
def Hw.chkResult (h : Hw) (u : Nat) : Hw :=
  let n := (h.unit u).clk.last
  let l := h.leaves u
  let bad := l.filter (fun m => !h.chkPass m)
  let h := h.each l (fun h m => h.chkRecord m (h.chkM m) (h.chkPass m) (h.unit m).chk.cm (h.unit m).chk.ovr)
  let h := if isConsist u then
      h.chkRecord u (l.foldl (fun a m => max a (h.chkM m)) 0) (bad.isEmpty && (h.followers u).all (fun p => !h.follFail p)) (l.any (fun m => (h.unit m).chk.cm)) (l.any (fun m => (h.unit m).chk.ovr))
    else h
  let held := (h.unit u).chk.heldIso
  let heldOwn := (h.unit u).chk.heldOwn
  let far := (h.followers u).filter h.follFail
  if !(bad.isEmpty && far.isEmpty) then (h.each bad (fun h m => h.raise m 7)).each far (fun h p => h.raise p.1 7)
  else
    let h := (h.setSt u stOPEN).each (h.tree u) (fun h m => (h.put U_DRV_HOLD_CODE m 0).modU m (fun x => { x with chk := {} }))
    let h := (h.zeroRef u).sideAttached u
    let h := if held then h.isolateReq u n (n + (h.dcfg u).tsafe) 4 heldOwn |>.modS u (fun s => { s with fromHold := true }) else h.autorange u n
    h.plan u

/-! ### Isolation -/

/-- A sample of the forced quantity is within U_SAFE_TH (R333). -/
def Hw.inSafeTh (h : Hw) (u : Nat) : Bool :=
  let s := (h.unit u).smp
  decide (iabs (if h.get U_MODE_MODE u == 1 then s.iFb else s.v) ≤ (h.get U_SAFE_TH_CODE u : Int))

/-- The last tick is the deadline tick: the last loop tick at or before the deadline minus T_PB, or past it (R333). -/
def Hw.atDeadline (h : Hw) (u : Nat) : Bool :=
  match (h.unit u).safe.deadline with
  | none => false
  | some d => decide (d < (h.unit u).clk.last + h.period u + h.tPb (h.dieOf u))

/-- The isolation latch is to be requested at the last tick (R333). -/
def Hw.isolationDue (h : Hw) (u : Nat) : Bool :=
  let s := (h.unit u).safe
  (h.st u == stSAFING || (h.st u == stFAULTED && !h.flag U_FAULT_ISOLATED u)) && !s.req &&
    (match s.fin with | .faultedConnected => false | _ => s.ramp || s.rampDone) &&
    ((s.rampDone && decide (4 ≤ s.inTh)) || h.atDeadline u)

/-- The isolation latch requested; a hot isolation is marked (R333). -/
def Hw.isolationRequest (h : Hw) (u : Nat) : Hw :=
  let s := (h.unit u).safe
  let early := s.rampDone && decide (4 ≤ s.inTh)
  let h := if !early && !h.inSafeTh u then (h.put U_ILK_STAT_HOT_ISO u 1).inc ILK_HOT_COUNT (h.dieOf u) else h
  h.requestIso u

/-- The readback of the isolation latch has completed before tick `n` (R333). -/
def Hw.isolationDone (h : Hw) (u n : Nat) : Bool :=
  let s := (h.unit u).safe
  s.req && s.rb && decide (s.rbAt < n)

end Sys2Proof.Machine
end

