-- ==== Sys2Proof/Machine/Crypto.lean ====
section
/-! DEFINITION. The cryptography that the spec names by its standards (R366, R376, R381): SHA-384, and the verification of ECDSA signatures
of FIPS 186-5 on the curve brainpoolP384r1 of RFC 5639. A signature that the station makes is a free value (Config). -/

namespace Sys2Proof.Machine

/-! ### SHA-384 (R315, R341, R366, R381) -/

/-- Arithmetic on 64-bit words: sum, rotation and complement. -/
def add64 (a b : Nat) : Nat := (a + b) % 2 ^ 64
/-- A 64-bit word rotated right. -/
def rot64 (n x : Nat) : Nat := x >>> n ||| x <<< (64 - n) % 2 ^ 64
/-- A 64-bit word complemented. -/
def not64 (x : Nat) : Nat := 2 ^ 64 - 1 - x

/-- The round constants 0 to 15. -/
def shaK0 : List Nat :=
  [0x428a2f98d728ae22, 0x7137449123ef65cd, 0xb5c0fbcfec4d3b2f, 0xe9b5dba58189dbbc,
   0x3956c25bf348b538, 0x59f111f1b605d019, 0x923f82a4af194f9b, 0xab1c5ed5da6d8118,
   0xd807aa98a3030242, 0x12835b0145706fbe, 0x243185be4ee4b28c, 0x550c7dc3d5ffb4e2,
   0x72be5d74f27b896f, 0x80deb1fe3b1696b1, 0x9bdc06a725c71235, 0xc19bf174cf692694]

/-- The round constants 16 to 31. -/
def shaK1 : List Nat :=
  [0xe49b69c19ef14ad2, 0xefbe4786384f25e3, 0x0fc19dc68b8cd5b5, 0x240ca1cc77ac9c65,
   0x2de92c6f592b0275, 0x4a7484aa6ea6e483, 0x5cb0a9dcbd41fbd4, 0x76f988da831153b5,
   0x983e5152ee66dfab, 0xa831c66d2db43210, 0xb00327c898fb213f, 0xbf597fc7beef0ee4,
   0xc6e00bf33da88fc2, 0xd5a79147930aa725, 0x06ca6351e003826f, 0x142929670a0e6e70]

/-- The round constants 32 to 47. -/
def shaK2 : List Nat :=
  [0x27b70a8546d22ffc, 0x2e1b21385c26c926, 0x4d2c6dfc5ac42aed, 0x53380d139d95b3df,
   0x650a73548baf63de, 0x766a0abb3c77b2a8, 0x81c2c92e47edaee6, 0x92722c851482353b,
   0xa2bfe8a14cf10364, 0xa81a664bbc423001, 0xc24b8b70d0f89791, 0xc76c51a30654be30,
   0xd192e819d6ef5218, 0xd69906245565a910, 0xf40e35855771202a, 0x106aa07032bbd1b8]

/-- The round constants 48 to 63. -/
def shaK3 : List Nat :=
  [0x19a4c116b8d2d0c8, 0x1e376c085141ab53, 0x2748774cdf8eeb99, 0x34b0bcb5e19b48a8,
   0x391c0cb3c5c95a63, 0x4ed8aa4ae3418acb, 0x5b9cca4f7763e373, 0x682e6ff3d6b2b8a3,
   0x748f82ee5defb2fc, 0x78a5636f43172f60, 0x84c87814a1f0ab72, 0x8cc702081a6439ec,
   0x90befffa23631e28, 0xa4506cebde82bde9, 0xbef9a3f7b2c67915, 0xc67178f2e372532b]

/-- The round constants 64 to 79. -/
def shaK4 : List Nat :=
  [0xca273eceea26619c, 0xd186b8c721c0c207, 0xeada7dd6cde0eb1e, 0xf57d4f7fee6ed178,
   0x06f067aa72176fba, 0x0a637dc5a2c898a6, 0x113f9804bef90dae, 0x1b710b35131c471b,
   0x28db77f523047d84, 0x32caab7b40c72493, 0x3c9ebe0a15c9bebc, 0x431d67c49c100d4c,
   0x4cc5d4becb3e42b6, 0x597f299cfc657e2a, 0x5fcb6fab3ad6faec, 0x6c44198c4a475817]

/-- The initial hash value of SHA-384. -/
def sha384Init : List Nat :=
  [0xcbbb9d5dc1059ed8, 0x629a292a367cd507, 0x9159015a3070dd17, 0x152fecd8f70e5939,
   0x67332667ffc00b31, 0x8eb44a8768581511, 0xdb0c2e0d64f98fa7, 0x47b5481dbefa4fa4]

/-- The message schedule continued by `n` words; the last 16 words stand newest first. -/
def shaSchedule : Nat → List Nat → List Nat
  | 0, _ => []
  | n + 1, w =>
    let g := fun k => w.getD k 0
    let x := g 1; let y := g 14
    let s1 := rot64 19 x ^^^ rot64 61 x ^^^ x >>> 6
    let s0 := rot64 1 y ^^^ rot64 8 y ^^^ y >>> 7
    let v := add64 (add64 s1 (g 6)) (add64 s0 (g 15))
    v :: shaSchedule n ((v :: w).take 16)

/-- One round on the working variables a to h. -/
def shaRound (v : List Nat) (kw : Nat) : List Nat :=
  match v with
  | [a, b, c, d, e, f, g, h] =>
    let t1 := (h + (rot64 14 e ^^^ rot64 18 e ^^^ rot64 41 e) + (e &&& f ^^^ not64 e &&& g) + kw) % 2 ^ 64
    let t2 := (rot64 28 a ^^^ rot64 34 a ^^^ rot64 39 a) + (a &&& b ^^^ a &&& c ^^^ b &&& c)
    [add64 t1 t2, a, b, c, add64 d t1, e, f, g]
  | _ => v

/-- A block of 16 words compressed into the hash value. -/
def shaBlock (hv w : List Nat) : List Nat :=
  let ws := w ++ shaSchedule 64 w.reverse
  let k := shaK0 ++ shaK1 ++ shaK2 ++ shaK3 ++ shaK4
  List.zipWith add64 hv ((List.zipWith (· + ·) ws k).foldl shaRound hv)

/-- A big-endian number of bytes. -/
def ofBytesBE (l : List Nat) : Nat := l.foldl (fun a b => a * 256 + b % 256) 0

/-- The 128-byte blocks of a padded message, as words, by count. -/
def shaBlocks : Nat → List Nat → List (List Nat)
  | 0, _ => []
  | n + 1, l => (List.range 16).map (fun i => ofBytesBE ((l.drop (8 * i)).take 8)) :: shaBlocks n (l.drop 128)

/-- The SHA-384 digest of bytes, its byte 0 lowest. -/
@[irreducible] def sha384 (l : List Nat) : Nat :=
  let n := l.length
  let pad := l ++ 0x80 :: List.replicate ((239 - n % 128) % 128) 0 ++ (bytesOf 16 (8 * n)).reverse
  let hv := (shaBlocks (pad.length / 128) pad).foldl shaBlock sha384Init
  ((hv.take 6).flatMap (fun w => (bytesOf 8 w).reverse)).foldr (fun b a => b + 256 * a) 0

/-! ### ECDSA on brainpoolP384r1 (R366, R367) -/

/-- The field prime of the curve. -/
def bpP : Nat := 0x8CB91E82A3386D280F5D6F7E50E641DF152F7109ED5456B412B1DA197FB71123ACD3A729901D1A71874700133107EC53
/-- The coefficient A. -/
def bpA : Nat := 0x7BC382C63D8C150C3C72080ACE05AFA0C2BEA28E4FB22787139165EFBA91F90F8AA5814A503AD4EB04A8C7DD22CE2826
/-- The coefficient B. -/
def bpB : Nat := 0x04A8C7DD22CE28268B39B55416F0447C2FB77DE107DCD2A62E880EA53EEB62D57CB4390295DBC9943AB78696FA504C11
/-- The generator. -/
def bpGx : Nat := 0x1D1C64F068CF45FFA2A63A81B7C13F6B8847A3E77EF14FE3DB7FCAFE0CBD10E8E826E03436D646AAEF87B2E247D4AF1E
/-- Its second coordinate. -/
def bpGy : Nat := 0x8ABE1D7520F9C2A45CB1EB8E95CFD55262B70B29FEEC5864E19C054FF99129280E4646217791811142820341263C5315
/-- The order of the generator. -/
def bpN : Nat := 0x8CB91E82A3386D280F5D6F7E50E641DF152F7109ED5456B31F166E6CAC0425A7CF3AB6AF6B7FC3103B883202E9046565

/-- A power modulo `m`, by the bits of the exponent, `k` of them. -/
def powMod (m a e : Nat) : Nat → Nat
  | 0 => 1
  | k + 1 =>
    let r := powMod m a (e / 2) k
    let s := r * r % m
    if e % 2 = 1 then s * a % m else s

/-- The inverse modulo a prime of 384 bits. -/
def invMod (m a : Nat) : Nat := powMod m a (m - 2) 384

/-- The sum of two points of the curve; none is the point at infinity. -/
def bpAdd (x y : Option (Nat × Nat)) : Option (Nat × Nat) :=
  match x, y with
  | none, q => q
  | q, none => q
  | some (x1, y1), some (x2, y2) =>
    if x1 = x2 ∧ (y1 + y2) % bpP = 0 then none
    else
      let l := if x1 = x2 then (3 * x1 * x1 + bpA) * invMod bpP (2 * y1 % bpP) % bpP
        else (y2 + bpP - y1) * invMod bpP ((x2 + bpP - x1) % bpP) % bpP
      let x3 := (l * l + 2 * bpP - x1 - x2) % bpP
      some (x3, (l * (x1 + bpP - x3) + bpP - y1) % bpP)

/-- A multiple of a point, by the bits of the scalar, `k` of them. -/
def bpMul (e : Nat) (q : Option (Nat × Nat)) : Nat → Option (Nat × Nat)
  | 0 => none
  | k + 1 =>
    let r := bpMul (e / 2) q k
    let s := bpAdd r r
    if e % 2 = 1 then bpAdd s q else s

/-- The signature r‖s verifies over a digest under an uncompressed public key 04‖X‖Y, all big-endian (R366). -/
@[irreducible] def ecdsaVerify (key : List Nat) (digest : Nat) (sig : List Nat) : Bool :=
  let x := ofBytesBE ((key.drop 1).take 48)
  let y := ofBytesBE ((key.drop 49).take 48)
  let r := ofBytesBE (sig.take 48)
  let s := ofBytesBE ((sig.drop 48).take 48)
  let e := ofBytesBE (bytesOf 48 digest)
  let onCurve := key.headD 0 == 4 && decide (x < bpP) && decide (y < bpP) && y * y % bpP == (x * x * x + bpA * x + bpB) % bpP
  let w := invMod bpN s
  let pt := bpAdd (bpMul (e * w % bpN) (some (bpGx, bpGy)) 384) (bpMul (r * w % bpN) (some (x, y)) 384)
  onCurve && decide (0 < r) && decide (r < bpN) && decide (0 < s) && decide (s < bpN) &&
    (match pt with | none => false | some q => q.1 % bpN == r)

end Sys2Proof.Machine
end

