-- ==== Sys2Proof/Machine/Capture.lean ====
section
/-! DEFINITION. Muslin captures (R145 to R151). -/

namespace Sys2Proof.Machine

/-- A die's Muslin SRAM (R58). -/
def muslinBase (d : Nat) : Nat := 0x0200000000 + d * 0x100000

/-- The enabled trace selections of a unit in order of index: index and node (R147). -/
def Hw.traceSel (h : Hw) (u : Nat) : List (Nat × Nat) :=
  ((List.range 16).filter (fun j => h.flag U_TRC_SEL_EN u j)).map (fun j => (j, h.get U_TRC_SEL_NODE u j))

/-- The size of an entry with `n` nodes: 16 + 4·n bytes rounded up to a multiple of 16 (R147). -/
def entrySize (n : Nat) : Nat := ceilTo 16 (16 + 4 * n)

/-- The first byte and the length in bytes of a capture's ring (R148, R151), from the registers as they stand: one rewritten while a
capture runs acts on it (the model's choice, notes/assumptions/73.md). -/
def Hw.capRing (h : Hw) (c : Nat) : Nat × Nat :=
  if h.flag MUS_CAP_BUF_EXT c then (h.get MUS_CAP_EXT_BASE_ADDR c / 4096 * 4096, h.get MUS_CAP_EXT_SIZE_NBLK c * 4096)
  else (muslinBase (c / 8) + h.get MUS_CAP_BUF_BLOCK c * 4096, h.get MUS_CAP_BUF_NBLK c * 4096)

/-- The capture's unit runs and lies on the capture's die (R145). -/
def Hw.capUnitOk (h : Hw) (c : Nat) : Bool :=
  let u := h.get MUS_CAP_UNIT_UNIT c
  h.runs u && h.dieOf u == c / 8

/-- Two byte ranges overlap. -/
def overlap (a b : Nat × Nat) : Bool := decide (a.1 < b.1 + b.2) && decide (b.1 < a.1 + a.2)

/-- The RESULT of an ARM: 0 where it is accepted, else the first refusal that holds (R149, R447). -/
def Hw.armResult (h : Hw) (c : Nat) : Nat :=
  let n := (h.traceSel (h.get MUS_CAP_UNIT_UNIT c)).length
  let r := h.capRing c
  let cap := r.2 / entrySize n
  if !h.capUnitOk c then 1
  else if n = 0 then 2
  else if cap < h.get MUS_CAP_DEPTH_PRE c + h.get MUS_CAP_DEPTH_POST c + 1 then 3
  else if (List.range 64).any (fun k => k != c && h.get MUS_CAP_STAT_STATE k != 0 && overlap r (h.capRing k)) then 4
  else if h.flag MUS_CAP_BUF_EXT c && (ddrChan r.1).isNone || h.flag MUS_CAP_BUF_EXT c && !(match h.place r.1 r.2 with | .mem => true | _ => false) then 5
  else 0

/-- An ARM examined (R149). An ARM of a capture that is not IDLE restarts it, or on a refusal leaves it IDLE: the model's choice
(notes/assumptions/73.md). -/
def Hw.armExam (h : Hw) (c : Nat) : Hw :=
  let r := h.armResult c
  let h := h.put MUS_CAP_STAT_RESULT c r
  if r = 0 then
    let e := entrySize (h.traceSel (h.get MUS_CAP_UNIT_UNIT c)).length
    let h := (h.put MUS_CAP_STAT_STATE c 1).put MUS_CAP_STAT_PRE_SHORT c 0
    let h := ((h.put MUS_CAP_WIDX_INDEX c 0).put MUS_CAP_GEOM_ESIZE c e).put MUS_CAP_CAP_CAP c ((h.capRing c).2 / e)
    h.modC c (fun x => { pendW := x.pendW })
  else (h.put MUS_CAP_STAT_STATE c 0).modC c (fun x => { x with arm := false })

/-- MUS_CAP_CMD ARM written: examined at the unit's next loop tick; where the unit is none of a die that is up, no tick of it
comes and the refusal is reported at once (R149). -/
def Hw.capArm (h : Hw) (c : Nat) : Hw :=
  let h := h.put MUS_CAP_CMD_CMD c 1
  if h.runs (h.get MUS_CAP_UNIT_UNIT c) then h.modC c (fun x => { x with arm := true }) else h.armExam c

/-- MUS_CAP_CMD STOP: IDLE at once (R149). -/
def Hw.capStop (h : Hw) (c : Nat) : Hw :=
  ((h.put MUS_CAP_CMD_CMD c 2).put MUS_CAP_STAT_STATE c 0).modC c (fun x => { x with arm := false, trig := false, trigN := false, trigE := false })

/-- MUS_CAP_CMD FORCE: the next captured entry is the trigger entry (R150). -/
def Hw.capForce (h : Hw) (c : Nat) : Hw :=
  let h := h.put MUS_CAP_CMD_CMD c 3
  if h.get MUS_CAP_STAT_STATE c = 1 then h.modC c (fun x => { x with trig := true }) else h

/-- After POST further entries a triggered capture is DONE (R149). -/
def Hw.capDone (h : Hw) (c : Nat) : Hw :=
  if h.get MUS_CAP_STAT_STATE c = 2 ∧ h.get MUS_CAP_DEPTH_POST c ≤ (h.cap c).post then h.put MUS_CAP_STAT_STATE c 3 else h

/-- The values of a period that its start fixes: references, feedback, LEAK and the last committed SH sample (R145, R146, R197). -/
def Hw.traceBase (h : Hw) (u : Nat) : Tab Nat Int :=
  let s := (h.unit u).smp
  [(0x00, h.code U_REF_SLEWED_CODE u), (0x01, h.code U_REF_TARGET_CODE u), (0x02, s.v), (0x03, s.iRaw), (0x04, s.iFb),
   (0x05, powerOf s.v s.iFb), (0x07, h.leak u s.v), (0x17, s.shC)]

/-- The value of a traced node, once the period's work is committed or dropped (R145, R146). -/
def Hw.nodeVal (h : Hw) (u : Nat) (base : Tab Nat Int) (k : Nat) : Int :=
  if k = 0x11 then h.code U_DRV_CODE_CODE u
  else if 0x20 ≤ k ∧ k < 0x60 then
    let m := k - 0x20
    let z := h.zOf u (m / 16) (m % 16 / 2)
    if m % 2 = 0 then z.1 else z.2
  else tget base k (tget (h.unit u).law.nodes k 0)

/-- The period that began at `tick` as its captures enter it, once its work is committed or dropped (R145). -/
def Hw.traceTake (h : Hw) (u tick : Nat) (late : Bool) (base : Tab Nat Int) : Hw :=
  let v := (List.range 16).map (fun j => h.nodeVal u base (h.get U_TRC_SEL_NODE u j))
  h.modU u (fun x => { x with trc := some { tick := tick, late := late, vals := v, win := h.get U_STATE_WIN u,
                                            compl := h.flag U_STATE_COMPLIANCE u } })

/-- The words of an entry (R147); LOOP and STATE are those at the tick at which it is written. -/
def Hw.entryWords (h : Hw) (u seq : Nat) (t : TraceS) (trig gap : Bool) (vals : List Int) : List Nat :=
  let n := vals.length
  let w2 := u + n * 2 ^ 10 + t.win * 2 ^ 15 + b2n t.compl * 2 ^ 17 + b2n t.late * 2 ^ 18
    + b2n trig * 2 ^ 19 + b2n gap * 2 ^ 20 + h.get U_STATE_LOOP u * 2 ^ 21 + h.st u * 2 ^ 22
  let body := [t.tick % 2 ^ 32, t.tick / 2 ^ 32, w2, seq % 2 ^ 32] ++ vals.map u32
  body ++ List.replicate ((entrySize n - 16 - 4 * n) / 4) 0

/-- The compare of trigger kind 3 (R150). -/
def capCmp (op : Nat) (x a b : Int) : Bool :=
  match op with
  | 0 => decide (a < x)
  | 1 => decide (x < a)
  | 2 => decide (a ≤ x) && decide (x ≤ b)
  | _ => decide (x < a) || decide (b < x)

/-- Whether a condition of the unit's period itself triggers (kinds 3, 5, 6 of R150). -/
def Hw.capTest (h : Hw) (c u : Nat) (t : TraceS) : Bool :=
  let prev := (h.unit u).trcCompl
  match h.get MUS_CAP_TRIG_KIND c with
  | 3 => capCmp (h.get MUS_CAP_TRIG_OP c) (t.vals.getD (h.get MUS_CAP_TRIG_ARG c % 16) 0) (h.code MUS_CAP_TA_CODE c) (h.code MUS_CAP_TB_CODE c)
  | 5 => t.compl && !prev
  | 6 => !t.compl && prev
  | _ => false

/-- Bytes in the staging buffer of a die, which its captures share (R151). -/
def Hw.staged4K (h : Hw) (d : Nat) : Nat :=
  (List.range 8).foldl (fun a k => a + ((h.cap (d * 8 + k)).stage.map (fun p => 4 * p.2.length)).foldl (· + ·) 0) 0

/-- An entry stored: in SRAM, or into the staging buffer of DDR5 mode, where a full buffer drops it (R148, R151). What lies beyond the
Muslin SRAM is not written: the model's choice (notes/assumptions/73.md). -/
def Hw.capStore (h : Hw) (c e idx : Nat) (words : List Nat) : Hw :=
  if h.flag MUS_CAP_BUF_EXT c then
    if 4096 < h.staged4K (c / 8) + e then (h.inc MUS_CAP_DROP_COUNT c).modC c (fun x => { x with gap := true })
    else h.modC c (fun x => { x with stage := x.stage ++ [(idx, words)], gap := false })
  else
    let o := h.get MUS_CAP_BUF_BLOCK c * 4096 + idx * e
    if o + e ≤ sramSize 2 then h.wrWords (muslinBase (c / 8) + o) words else h

/-- The period of a unit that has ended, entered in one capture (R145 to R150). The trigger conditions count by the period in which
they hold: those of the present tick are the next period's. -/
def Hw.capEntry (h : Hw) (c u : Nat) (t : TraceS) : Hw :=
  let st := h.get MUS_CAP_STAT_STATE c
  if (st = 1 ∨ st = 2) ∧ h.get MUS_CAP_UNIT_UNIT c = u then
    let h := if st == 1 && h.capTest c u t then h.modC c (fun x => { x with trig := true }) else h
    let x := h.cap c
    if st = 2 ∧ h.get MUS_CAP_DEPTH_POST c ≤ x.post then h
    else if 0 < x.dec then h.modC c (fun x => { x with dec := x.dec - 1 })
    else
      let trig := st == 1 && x.trig
      let e := h.get MUS_CAP_GEOM_ESIZE c
      let cap := h.get MUS_CAP_CAP_CAP c
      let idx := x.seq % 2 ^ 32 % cap
      let vals := (h.traceSel u).map (fun p => t.vals.getD p.1 0)
      let h := h.capStore c e idx (h.entryWords u x.seq t trig x.gap vals)
      let h := h.put MUS_CAP_WIDX_INDEX c ((x.seq + 1) % 2 ^ 32 % cap)
      let h := h.modC c (fun y => { y with seq := x.seq + 1, dec := h.get MUS_CAP_UNIT_DEC c,
                                           post := if st = 2 then x.post + 1 else 0, trig := false })
      if trig then
        ((h.put MUS_CAP_STAT_STATE c 2).put MUS_CAP_TIDX_INDEX c idx).putB MUS_CAP_STAT_PRE_SHORT c
          (decide (x.seq < h.get MUS_CAP_DEPTH_PRE c))
      else h
  else h

/-- The captures that trace a unit of their own die. -/
def Hw.capsOf (h : Hw) (u : Nat) : List Nat :=
  ((List.range 8).map (fun c => h.dieOf u * 8 + c)).filter (fun c => h.get MUS_CAP_UNIT_UNIT c == u)

/-- A tick of a unit begins (R150): what triggered in the period that ends counts for its entry, and the events seen at this tick for
the next one. -/
def Hw.capBegin (h : Hw) (u : Nat) : Hw :=
  h.each (h.capsOf u) (fun h c => h.modC c (fun x => { x with trig := x.trig || x.trigN, trigN := x.trigE, trigE := false }))

/-- The captures of a unit at the end of its tick: the period that has ended is entered. -/
def Hw.capTick (h : Hw) (u : Nat) : Hw :=
  match (h.unit u).trc with
  | none => h
  | some t => (h.each (h.capsOf u) (fun h c => h.capEntry c u t)).modU u (fun x => { x with trc := none, trcCompl := t.compl })

/-- The ARM commands that wait for a unit's tick, on any die (R149). -/
def Hw.armTick (h : Hw) (u : Nat) : Hw :=
  h.each (List.range 64) (fun h c => if (h.cap c).arm && h.get MUS_CAP_UNIT_UNIT c == u then h.armExam c else h)

end Sys2Proof.Machine
end

