-- ==== Sys2Proof/Machine/Points.lean ====
section
/-! DEFINITION. The points bus: the latch of an operation and its readback (R98, R189 to R193). -/

namespace Sys2Proof.Machine

/-- The channel a position of a die's bus belongs to (R189). -/
def posUnit (d ch : Nat) : Nat := d * 32 + ch % 32

/-- A die's ISO_N asserted (R335). -/
def Hw.isoAssert (h : Hw) (d : Nat) : Hw := (h.put ILK_STAT_ISO_REL d 0).modD d (fun x => { x with isoDue := none })

/-- A fault that waits for the first loop tick of a unit whose guard instant follows (R192, R352). -/
def Hw.faultLater (h : Hw) (u code act : Nat) : Hw :=
  h.modU u (fun x => { x with pend := x.pend ++ [{ act := .fault code act }] })

/-- What the latch of an operation at `t` means to its requester (R201 to R207, R328, R330, R333). -/
def Hw.ptsLatched (h : Hw) (d t : Nat) (op : PtsOp) : Hw :=
  let ch := posUnit d op.ch
  match op.why with
  | .make u => h.modR u (fun r => if r.makeWait = 0 then r else
      { r with makeWait := r.makeWait - 1, lamM := if r.makeWait = 1 then some t else none })
  | .brk u =>
    let last := (h.unit u).rng.brkWait == 1
    let h := h.modR u (fun r => if r.brkWait = 0 then r else
      { r with brkWait := r.brkWait - 1, lamB := if r.brkWait = 1 then some t else none })
    if last then h.setPhase u 4 else h
  | .openChg u => h.modR u (fun r => r.openLatch t)
  | .connect u =>
    let h := h.modU ch (fun x => { x with safeLatched := false })
    h.modU u (fun x => if x.chk.phase = 2 then
      { x with chk := { x.chk with wait := x.chk.wait - 1, lam := t, phase := if x.chk.wait = 1 then 3 else 2 } } else x)
  | .safe _ _ => h.modU ch (fun x => { x with safe := { x.safe with latched := true } })
  | .abandon _ => h
  | .mirror _ => h
  | .image => h

/-- POINTS_LATCH at λ, 24 PBCLK periods from the grant: the position's pattern is the one written (R191). -/
def Hw.ptsLatch (h : Hw) (d t : Nat) : Hw :=
  let p := (h.die d).pts
  match p.cur with
  | none => h
  | some op =>
    if p.latched || t != h.ptsLam d then h
    else
      let h := { h with now := max h.now t }
      let h := h.put U_PTS_STAT_PAT (posUnit d op.ch) op.pat
      let h := h.setPts d { p with latched := true, lam := t }
      h.ptsLatched d t op

/-- The safe pattern of a position is latched and read back (R141, R333). -/
def Hw.safeRead (h : Hw) (d ch u t : Nat) : Hw :=
  let h := h.modU (posUnit d ch) (fun x => { x with safeLatched := true })
  h.modS u (fun s => if s.req then { s with started := s.started - 1, rb := s.started ≤ 1, rbAt := t } else s)

/-- A readback that differs from the pattern written (R192, R335). -/
def Hw.ptsMismatch (h : Hw) (d t : Nat) (op : PtsOp) : Hw :=
  let h := ((h.inc DIE_PB_ERR_COUNT d).put DIE_PB_STAT_ERR d 1).put DIE_PB_STAT_ERR_CH d op.ch
  match op.why with
  | .safe u true =>
    let h := (h.isoAssert d).safeRead d op.ch u t
    h.each (h.heads.filter (fun v => v != u && h.live v && (h.leaves v).any (fun m => ownDie m == d))) (fun h v => h.faultLater v 11 4)
  | .safe _ false => (h.isoAssert d).faultLater (posUnit d op.ch) 11 4
  | _ => h.faultLater (posUnit d op.ch) 11 4

/-- POINTS_READBACK 50 PBCLK periods from the grant: the READ of the latched position completes, and the bus is free again (R191,
R192). -/
def Hw.ptsReadback (h : Hw) (d t rb : Nat) : Hw :=
  let p := (h.die d).pts
  match p.cur with
  | none => h
  | some op =>
    if !p.latched || t != h.ptsEnd d then h
    else
      let h := { h with now := max h.now t }
      let h := h.put U_PTS_STAT_RB (posUnit d op.ch) rb
      let h :=
        if rb % 65536 = op.pat then
          match op.why with
          | .safe u _ => h.safeRead d op.ch u t
          | .image => h.modU (posUnit d op.ch) (fun x => { x with safeLatched := true })
          | _ => h
        else h.ptsMismatch d t op
      h.ptsNext d

/-- The power-up broadcast of all-zeros and the readbacks of the 32 positions (R98, R193); a missing readback reads 0. -/
def Hw.ptsInit (h : Hw) (d : Nat) (rbs : List Nat) : Hw :=
  h.each (List.range 32) (fun h c =>
    let rb := (rbs.getD c 0) % 65536
    let h := (h.put U_PTS_STAT_PAT (posUnit d c) 0).put U_PTS_STAT_RB (posUnit d c) rb
    if rb = 0 then h
    else (((h.inc DIE_PB_ERR_COUNT d).put DIE_PB_STAT_ERR d 1).put DIE_PB_STAT_ERR_CH d c).faultLater (posUnit d c) 11 4)

end Sys2Proof.Machine
end

