-- ==== Sys2Proof/Machine/Tokens.lean ====
section
/-! DEFINITION. The tokens of the shared resources (R35 to R38), by resource. -/

namespace Sys2Proof.Machine

/-- The die of a resource. -/
def resDie : Res → Nat
  | .aux d | .points d | .cal d | .siding d _ | .twill d _ | .nvm d | .snap d => d

/-- The tokens of a resource (R35). -/
def resCount : Res → Nat
  | .aux _ => 6
  | .snap _ => 16
  | _ => 1

/-- The arbiter of a resource. -/
def DieS.arb (x : DieS) : Res → ArbS
  | .aux _ => x.aux
  | .points _ => {}
  | .cal _ => x.cal
  | .siding _ s => if s = 0 then x.sid0 else x.sid1
  | .twill _ c => if c = 0 then x.twill0 else x.twill1
  | .nvm _ => x.nvm
  | .snap _ => x.snap

/-- A die with the arbiter of a resource replaced. -/
def DieS.setArb (x : DieS) (r : Res) (a : ArbS) : DieS :=
  match r with
  | .aux _ => { x with aux := a }
  | .points _ => x
  | .cal _ => { x with cal := a }
  | .siding _ s => if s = 0 then { x with sid0 := a } else { x with sid1 := a }
  | .twill _ c => if c = 0 then { x with twill0 := a } else { x with twill1 := a }
  | .nvm _ => { x with nvm := a }
  | .snap _ => { x with snap := a }

/-- The arbiter of a resource. -/
def Hw.arb (h : Hw) (r : Res) : ArbS := (h.die (resDie r)).arb r

/-- Tokens that may be granted: none of the NVM controller while its die is in thermal shut-down (R353). -/
def Hw.avail (h : Hw) (r : Res) : Nat :=
  match r with
  | .nvm d => if h.flag TH_SUP_STAT_SHUT d then 0 else 1
  | r => resCount r

/-- The longest wait of a request of rank 1 or 2 for an aux modulator (R178). -/
def Hw.auxWait (h : Hw) (r : Res) (new : List Req) : Hw :=
  match r with
  | .aux d => h.put DIE_AUX_WMAX_TICKS d
      (new.foldl (fun m q => if q.rank ≤ 2 then max m (h.now - q.at_) else m) (h.get DIE_AUX_WMAX_TICKS d))
  | _ => h

/-- An arbiter stored back, with the waits and the grant instants of what it granted (R177, R178). -/
def Hw.setArb (h : Hw) (r : Res) (a : ArbS) : Hw :=
  let old := (h.arb r).hold
  let new := a.hold.filter (fun q => !old.contains q)
  let h := (h.modD (resDie r) (fun x => x.setArb r a)).auxWait r new
  match r with
  | .aux d => h.modD d (fun x => { x with auxAt := a.hold.map (fun q =>
      (q.who, if old.contains q then (tfind x.auxAt q.who).getD h.now else h.now)) })
  | _ => h

/-- At most one request of rank 1 holds an instance: the aux modulators (R178). -/
def oneIlk : Res → Bool
  | .aux _ => true
  | _ => false

/-- A resource whose grant is used in the command that makes it, so that no later request of the instant can be decided with it: a snapshot
slot takes its copy, a Twill path its burst. (notes/assumptions/11.md.) -/
def usedAtOnce : Res → Bool
  | .snap _ => true
  | .twill _ _ => true
  | _ => false

/-- A token requested: granted on arrival where one is free and nothing waits, else pending (R36). The request to the points
bus is for an operation on the position that `who` names, with the pattern that stands there. -/
def Hw.tokReq (h : Hw) (r : Res) (q : Req) : Hw :=
  match r with
  | .points d => h.ptsReq d { ch := q.who % 32, pat := h.get U_PTS_STAT_PAT (posUnit d q.who), rank := q.rank, why := .image }
  | r =>
    let a := (h.arb r).request (h.avail r) (oneIlk r) h.now { q with losses := 0, at_ := h.now }
    h.setArb r (if usedAtOnce r then { a with since := none } else a)

/-- A token released by its holder, and granted again (R36, R37). The points bus is released by its readback. -/
def Hw.tokRel (h : Hw) (r : Res) (who : Nat) : Hw :=
  match r with
  | .points _ => h
  | r => h.setArb r ((h.arb r).release (h.avail r) (oneIlk r) who)

/-- Grants that may be made now, for instance when thermal shut-down ends (R353). -/
def Hw.tokGrant (h : Hw) (r : Res) : Hw := h.setArb r ((h.arb r).grant (h.avail r) (oneIlk r))

/-- A requester holds a token of a resource. -/
def Hw.holds (h : Hw) (r : Res) (who : Nat) : Bool := (h.arb r).hold.any (fun q => q.who == who)

/-- A pending request withdrawn. -/
def Hw.tokDrop (h : Hw) (r : Res) (who : Nat) : Hw :=
  h.setArb r { h.arb r with pend := (h.arb r).pend.filter (fun q => q.who != who), since := none }

/-- The resources of a die. -/
def dieRes (d : Nat) : List Res := [.aux d, .cal d, .siding d 0, .siding d 1, .twill d 0, .twill d 1, .nvm d, .snap d]

/-- A request is bound to the next tick of a unit or of a unit that ticks with it. -/
def Hw.boundTo (h : Hw) (u : Nat) (q : Req) : Bool := match q.bound with | some v => (h.tree u).contains v | none => false

/-- The ranks of the requests bound to a unit's next tick that have no grant. -/
def Hw.boundRanks (h : Hw) (u : Nat) : List Nat :=
  ((List.range 8).flatMap dieRes).flatMap (fun r => ((h.arb r).pend.filter (fun q => h.boundTo u q)).map (fun q => q.rank))

/-- The requests bound to a unit's next tick that have no grant at its guard instant are withdrawn and counted (R38). -/
def Hw.withdrawBound (h : Hw) (u : Nat) : Hw :=
  h.each ((List.range 8).flatMap dieRes) (fun h r =>
    let a := h.arb r
    let k := (a.pend.filter (h.boundTo u)).length
    if k = 0 then h
    else
      let h := h.setArb r { a with pend := a.pend.filter (fun q => !h.boundTo u q), since := none }
      h.put DIE_TOKEN_LATE_COUNT (resDie r) (h.get DIE_TOKEN_LATE_COUNT (resDie r) + k))

/-- The number of a DDR5 requester of a die at its Twill arbiters: timetable engines 0 to 7, Muslin captures 16 to 23, queues 64 to
127 (R36). -/
def twEng (e : Nat) : Nat := e % 8
/-- A capture's. -/
def twCap (c : Nat) : Nat := 16 + c % 8
/-- A queue's. -/
def twQueue (q : Nat) : Nat := 64 + q % 64
/-- The patrol scrub's. -/
def twScrub : Nat := 160
/-- The signal box's. -/
def twBox : Nat := 161

/-- A token asked for, unless the requester holds it or its request waits. -/
def Hw.twAsk (h : Hw) (r : Res) (who rank : Nat) : Hw :=
  if h.holds r who || (h.arb r).pend.any (fun q => q.who == who) then h else h.tokReq r { who := who, rank := rank }

/-- A burst under a token: a requester that holds it makes its burst and releases it, any other waits for its grant. -/
def Hw.burstOf (h : Hw) (r : Res) (who rank : Nat) (f : Hw → Hw) : Hw :=
  let h := h.twAsk r who rank
  if h.holds r who then (f h).tokRel r who else h

/-- A burst of a die to or from a DDR5 address under the Twill path's token (R18, R35, R36): the token is asked for unless a request
waits; a requester that holds it makes its burst and releases it, any other waits for its grant. An address outside DDR5 needs no
token. -/
def Hw.burst (h : Hw) (d addr who rank : Nat) (f : Hw → Hw) : Hw :=
  match ddrChan addr with
  | none => f h
  | some c => h.burstOf (.twill d c) who rank f

/-! ### The ring guard (R267) -/

/-- Size of an engine's stream ring. -/
def Hw.ringSize (h : Hw) (e : Nat) : Nat := 2 ^ h.get TT_SR_SIZE_LOG2 e

/-- An engine's mark, whether it is set, and RP, as committed: what a predicted path has done to them does not count (R31). -/
def Hw.ringMark (h : Hw) (e : Nat) : Nat × Bool × Nat :=
  match (h.eng e).pred with
  | some p => (p.snap.mark, p.snap.marked == 1, p.snap.rp)
  | none => (h.get TT_SR_MARK_VALUE e, h.flag TT_SR_STAT_MARKED e, h.get TT_SR_RP_VALUE e)

/-- A write of `n` bytes at an address touches the protected region of an engine's stream ring: the bytes from its mark up to RP
(R267). -/
def Hw.ringHit (h : Hw) (e a n : Nat) : Bool :=
  let b := h.get TT_SR_BASE_ADDR e
  let s := h.ringSize e
  let (mark, marked, rp) := h.ringMark e
  let len := (rp + 2 ^ 32 - mark) % 2 ^ 32
  marked && (List.range n).any (fun i =>
    decide (b ≤ a + i) && decide (a + i < b + s) && decide ((a + i - b + (s - mark % s)) % s < len))

/-- A write `f` of `n` bytes at an address through the ring guard of DDR5: one that touches a protected byte is dropped whole (R267). A long
transfer passes it in pieces (notes/assumptions/98.md). -/
def Hw.ringGuard (h : Hw) (a n : Nat) (f : Hw → Hw) : Hw :=
  let l := if (ddrChan a).isSome then (List.range 64).filter (fun e => h.ringHit e a n) else []
  if l.isEmpty then f h
  else h.each l (fun h e => (h.inc TT_SR_PDROP_COUNT e).put TT_SR_STAT_PROT e 1)

end Sys2Proof.Machine
end

