-- ==== Sys2Proof/Machine/Links.lean ====
section
/-! DEFINITION. The station's state (R69), ATTN_N's sources (R416), and the Tweed ports: their link state, the frames that wait
on them, and the routes frames take (R384 to R396). -/

namespace Sys2Proof.Machine

/-! ### The station -/

/-- One of the ATTN_N sources LINK (0), STATE (1) and TIME (2) set (R416). -/
def Hw.attnSrc (h : Hw) (i : Nat) : Hw := h.put SPI_ATTN_SRC_EVS 0 (setBit (h.get SPI_ATTN_SRC_EVS 0) i)

/-- STN_STATE.STATE set; a change is an ATTN_N source (R69, R416). -/
def Hw.setStn (h : Hw) (s : Nat) : Hw :=
  if h.get STN_STATE_STATE 0 = s then h else (h.put STN_STATE_STATE 0 s).attnSrc 1

/-- The station serves: RUN, SAFE or DARK. -/
def Hw.serves (h : Hw) : Bool := let s := h.get STN_STATE_STATE 0; s == 3 || s == 4 || s == 5

/-- STATE of a station that serves, as its conditions give it: SAFE before DARK before RUN (R69). -/
def Hw.stnServe (h : Hw) : Hw :=
  h.setStn (if h.flag STN_STATE_ILK_OPEN 0 then 4 else if h.flag STN_STATE_DARK_B 0 then 5 else 3)

/-- The dies of a station. -/
def allDies : List Nat := List.range 8

/-- A line as the head dies drive it (R320): a fenced head die's drive is cut. -/
def Hw.headLine (h : Hw) (f : DieS → Bool) : Bool := [0, 1].any (fun d => h.dieUp d && f (h.die d))

/-- ILK_OPEN and ABORT shown as the head dies drive them (R320, R323). -/
def Hw.lines (h : Hw) : Hw :=
  let lid := h.headLine (fun x => x.ilkA)
  let ab := h.headLine (fun x => x.abA)
  let h := h.putB STN_STATE_ILK_OPEN 0 lid
  let h := h.each allDies (fun h d => (h.putB ILK_STAT_ILK_OPEN d lid).putB ILK_STAT_ABORT d ab)
  if h.serves then h.stnServe else h

/-- The Interlocking of some head die is live (R358). -/
def Hw.sensed (h : Hw) : Bool := [0, 1].any (fun d => h.dieUp d && h.boot.live.contains d)

/-- DARK_B set (R69). -/
def Hw.setDark (h : Hw) (b : Bool) : Hw :=
  let h := h.putB STN_STATE_DARK_B 0 b
  if h.serves then h.stnServe else h

/-- The station is DARK (R69, R244). -/
def Hw.dark (h : Hw) : Bool := h.flag STN_STATE_DARK_B 0

/-- The station neither sends nor acts on Line events: it is DARK (R69, R244), or it has not left BOOTING or HELD (R410). -/
def Hw.mute (h : Hw) : Bool := h.dark || !h.serves

/-- The boot die: die 1 after a relief boot (R358). -/
def Hw.bootDie (h : Hw) : Nat := h.get STN_STATE_RELIEF 0

/-- A station that is no longer a bound candidate is no longer Line master (R399). -/
def Hw.candidacy (h : Hw) : Hw :=
  if h.flag TW_LINE_STAT_IS_MASTER 0 && !(h.flag TW_LINE_CFG_MASTER 0 && h.flag STN_BIND_BOUND 0) then h.put TW_LINE_STAT_IS_MASTER 0 0 else h

/-- This station's number (R398). -/
def Hw.ownNum (h : Hw) : Nat := h.get TW_LINE_STAT_NUM 0

/-- A unit of the station is connected: neither ISOLATED nor FAULTED, isolated (R404). -/
def Hw.anyConnected (h : Hw) : Bool :=
  (List.range 256 ++ (List.range 16).map (· + 256)).any (fun u => h.runs u && h.live u)

/-! ### Ports -/

/-- A port's state. -/
def Hw.port (h : Hw) (p : Nat) : PortS := tget h.ports p {}

/-- A port's state changed. -/
def Hw.modP (h : Hw) (p : Nat) (f : PortS → PortS) : Hw := { h with ports := tset h.ports p (f (h.port p)) }

/-- The mode a port runs in (R384): 0 off, 1 Tweed, 2 Ethernet; off on a fenced head die. -/
def Hw.portMode (h : Hw) (p : Nat) : Nat :=
  let m := h.get TW_PORT_CFG_MODE p
  if 4 ≤ p ∨ (h.die (p / 2)).fenced then 0 else if m = 1 then 1 else if m = 2 ∧ p < 2 then 2 else 0

/-- An UP port in Tweed mode. -/
def Hw.tweedUp (h : Hw) (p : Nat) : Bool := h.portMode p == 1 && h.get TW_PORT_STAT_LINK p == 2

/-- The ports that are UP in Tweed mode. -/
def Hw.upPorts (h : Hw) : List Nat := (List.range 4).filter h.tweedUp

/-- LINK of a port; a change is an ATTN_N source (R416). -/
def Hw.setLink (h : Hw) (p v : Nat) : Hw :=
  if h.get TW_PORT_STAT_LINK p = v then h else (h.put TW_PORT_STAT_LINK p v).attnSrc 0

/-- Frames a receiver buffers per lane (R390). -/
def laneBuf (lane : Nat) : Nat := match lane with | 1 => 8 | 2 => 16 | 3 => 32 | _ => 0

/-- Bytes of a frame on the link (R386). -/
def Frame.size (f : Frame) : Nat := 20 + 4 * f.words.length

/-- A credit for a lane is to be returned on a port (R390). -/
def Hw.creditRet (h : Hw) (p lane : Nat) : Hw :=
  if lane = 0 then h else h.modP p (fun x => { x with ret := tset x.ret lane (tget x.ret lane 0 + 1) })

/-- A forwarded frame still waits on some port. -/
def Hw.fwdWaits (h : Hw) (id : Nat) : Bool :=
  (List.range 4).any (fun p => (h.port p).q.any (fun e => match e.2 with | some (_, k) => k == id | none => false))

/-- A frame has left a port's queue: one that is thereby fully forwarded returns its credit (R389, R390). -/
def Hw.fwdDone (h : Hw) (lane : Nat) (o : Option (Nat × Nat)) : Hw :=
  match o with
  | none => h
  | some (a, id) => if h.fwdWaits id then h else h.creditRet a lane

/-- A frame put on a port's queue, where the port is UP in Tweed mode. -/
def Hw.portSend (h : Hw) (p : Nat) (f : Frame) (o : Option (Nat × Nat)) : Hw :=
  if h.tweedUp p then h.modP p (fun x => { x with q := x.q ++ [(f, o)] }) else h

/-- The port that TW_ROUTE names for a station (R394). -/
def Hw.routePort (h : Hw) (n : Nat) : Nat := h.get TW_ROUTE_PORT 0 (n % 4096)

/-- The ports a frame is forwarded on, but for its arrival port (R394, R395). -/
def Hw.outPorts (h : Hw) (f : Frame) (arr : Option Nat) : List Nat :=
  let l := if f.loc then []
    else if f.bcast then bitIdx 4 (h.get TW_BCAST_PORTS 0)
    else if f.group then bitIdx 4 (h.get TW_MCAST_PORTS 0 (f.dest % 64))
    else [h.routePort f.dest]
  l.filter (fun p => arr != some p && h.tweedUp p)

/-- A frame that this station issues, on the ports its routing names (R244, R397, R401). -/
def Hw.lineSend (h : Hw) (f : Frame) : Hw :=
  let f := { f with src := h.ownNum, hops := 16 }
  if h.flag TW_LINE_CFG_EN 0 then h.each (h.outPorts f none) (fun h p => h.portSend p f none) else h

/-- A frame issued for the station at the far end of a link. -/
def Hw.localSend (h : Hw) (p : Nat) (f : Frame) : Hw := h.portSend p { f with src := h.ownNum, hops := 16, loc := true } none

/-! ### Time on the links -/

/-- Metronome ticks of 100 µs, 1 ms and 2 ms. -/
def t100us : Nat := 24576
/-- 1 ms in metronome ticks. -/
def t1ms : Nat := 245760

/-- A SYNC heard in the 100 µs before an instant (R403). -/
def PortS.heard (x : PortS) (t : Nat) : Option (Nat × Nat) :=
  match x.sync with
  | some (m, k, a) => if t ≤ a + t100us then some (m, k) else none
  | none => none

/-- The upstream port at an instant (R403): the lowest MASTER, then the lowest hop count, then the lowest port. -/
def Hw.upstream (h : Hw) (t : Nat) : Option Nat :=
  let c := (List.range 4).filterMap (fun p => if h.tweedUp p then ((h.port p).heard t).map (fun s => (s.1, s.2, p)) else none)
  (c.foldl (fun (b : Option (Nat × Nat × Nat)) x =>
    match b with
    | none => some x
    | some y => if x.1 < y.1 ∨ (x.1 = y.1 ∧ x.2.1 < y.2.1) then some x else some y) none).map (fun x => x.2.2)

/-- UPSTREAM and SYNC_OK of every port at an instant (R403). -/
def Hw.showUpstream (h : Hw) (t : Nat) : Hw :=
  let u := h.upstream t
  h.each (List.range 4) (fun h p =>
    (h.putB TW_PORT_STAT_UPSTREAM p (u == some p)).putB TW_PORT_STAT_SYNC_OK p ((h.port p).heard t).isSome)

/-- A port goes DOWN (R385): its lanes' state is discarded, and frames it would have forwarded are done with; a station whose
Tweed links are all down goes DARK where a Line is configured (R69), and has to announce itself again (notes/assumptions/21.md). -/
def Hw.portDown (h : Hw) (p : Nat) : Hw :=
  let was := h.get TW_PORT_STAT_LINK p
  let tw := h.get TW_PORT_CFG_MODE p != 2
  let x := h.port p
  let h := (h.modP p (fun x => { sent := x.sent, cut := x.cut, sentWord := x.sentWord })).setLink p 0
  let h := (h.put TW_PORT_STAT_UPSTREAM p 0).put TW_PORT_STAT_SYNC_OK p 0
  let h := h.each x.q (fun h e => h.fwdDone e.1.lane e.2)
  let h := if was = 0 then h else (h.put TW_PORT_STAT_DOWNED p 1).inc TW_PORT_DOWNS_COUNT p
  let h := if p < 2 then (h.put ETH_STAT_BLOCK_LOCK p 0).put ETH_PTP_LOCK p 0 else h
  if tw && h.serves && h.flag TW_LINE_CFG_EN 0 && h.upPorts.isEmpty then
    let h := if h.flag TW_LINE_STAT_IS_MASTER 0 then h else h.put TW_LINE_STAT_ANNOUNCED 0 0
    h.setDark true
  else h

end Sys2Proof.Machine
end

