-- ==== Sys2Proof/Machine/Events.lean ====
section
/-! DEFINITION. Events and trigger pins (R240 to R247). -/

namespace Sys2Proof.Machine

/-- An event that reaches the station's scheduler with its due tick (R241, R243): it joins the same event pending for the same
tick, is dropped as late, is dropped on a full scheduler, or is held. -/
def Hw.evSchedule (h : Hw) (ev due : Nat) : Hw :=
  if h.evs.contains (ev, due) then h
  else if due < h.now + 16 then (h.inc STN_EV_LATE_COUNT 0).put STN_EV_STAT_LATE_EV 0 ev
  else if 256 ≤ h.evs.length then h.inc STN_EV_OVF_COUNT 0
  else { h with evs := h.evs ++ [(ev, due)] }

/-- A station acts on Line event `k` (R244). -/
def Hw.levOn (h : Hw) (k : Nat) : Bool := bit (h.get STN_LEV_MASK_EN 0 (k / 32)) (k % 32)

/-- A Line event that arrives at a station (R243, R244): discarded where its bit is 0 or the station is DARK or not
yet started. -/
def Hw.lineEvent (h : Hw) (k due : Nat) : Hw := if h.mute || !h.levOn k then h else h.evSchedule (64 + k) due

/-- An event raised in the station: a local one goes to the scheduler, a Line one is sent, and reaches the station's own
scheduler like any receiver's; on a DARK station it is only counted (R244). -/
def Hw.evRaise (h : Hw) (ev due : Nat) : Hw :=
  if ev < 64 then h.evSchedule ev due
  else if h.mute then h.incSat STN_EV_STAT_DARK_CNT 0
  else
    let w := [(ev - 64) % 256 + h.ownNum * 256, due % 2 ^ 32, due / 2 ^ 32 % 2 ^ 32, 0]
    (h.lineSend { lane := 1, ty := 0, bcast := true, words := w }).lineEvent (ev - 64) due

/-- LINE_LAT in metronome ticks (R242, R407). -/
def Hw.lineLat (h : Hw) : Nat := h.get TW_LINE_LAT_TICKS 0

/-- The RESULT of a host raise: of several causes the lowest-numbered (R242, R447). With NOW the due tick is 32 ticks after the
write completes. -/
def Hw.raiseResult (h : Hw) (ev : Nat) (nowF : Bool) : Nat :=
  let due := if nowF then h.now + 32 else h.get STN_EV_DUE_TICK 0
  if 319 < ev then 4
  else if ev < 64 then (if due < h.now + 32 then 1 else 0)
  else if due < h.now + h.lineLat then 1
  else if nowF then 2
  else if h.mute then 3
  else 0

/-- STN_EV_RAISE with GO (R242, R244). -/
def Hw.hostRaise (h : Hw) (ev : Nat) (nowF : Bool) : Hw :=
  let h := (h.put STN_EV_RAISE_EV 0 ev).putB STN_EV_RAISE_NOW 0 nowF
  let r := h.raiseResult ev nowF
  let h := h.put STN_EV_RAISE_RESULT 0 r
  if r = 0 ∨ r = 3 then h.evRaise ev (if nowF then h.now + 32 else h.get STN_EV_DUE_TICK 0) else h

/-- The pulse length of a trigger output in metronome ticks (R247). -/
def Hw.trigWidth (h : Hw) (k : Nat) : Nat := 16 * max 1 (h.get STN_TRIG_CFG_WIDTH 0 k)

/-- The level of a trigger pin set. -/
def Hw.setTrig (h : Hw) (k : Nat) (b : Bool) : Hw :=
  h.put STN_TRIG_STAT_LEVEL 0 (let l := h.get STN_TRIG_STAT_LEVEL 0; if b then setBit l k else clrBit l k)

/-- A trigger pin of a head die that serves (R12, R68). -/
def Hw.trigHas (h : Hw) (k : Nat) : Bool := h.dieUp (k / 4)

/-- The trigger outputs that follow a local event rise, or their pulses are extended (R247). -/
def Hw.trigOut (h : Hw) (ev t : Nat) : Hw :=
  h.each (List.range 8) (fun h k =>
    if h.trigHas k && h.flag STN_TRIG_CFG_DIR 0 k && h.get STN_TRIG_CFG_EV 0 k == ev then
      let h := h.setTrig k true
      { h with trigEnd := tset h.trigEnd k (t + h.trigWidth k) }
    else h)

/-- The slots of an engine that watch an event (R248). -/
def Hw.slotsOf (h : Hw) (e ev : Nat) : List Nat :=
  (List.range 8).filter (fun k => h.flag TT_EVW_EN e k && h.get TT_EVW_EV e k == ev)

/-- A pending event acts at its due tick (R241, R245 to R247): STN_EV_SEEN, trigger outputs, Muslin triggers of kind 1; running
engines judge it by their watch slots at their unit's next tick. -/
def Hw.evAct (h : Hw) (ev due : Nat) : Hw :=
  if !h.evs.contains (ev, due) || decide (due < h.now) then h
  else
    let h := { h with now := due, evs := h.evs.erase (ev, due) }
    if 64 ≤ ev && (h.mute || !h.levOn (ev - 64)) then h
    else
    let h := h.put STN_EV_SEEN_SEEN 0 (setBit (h.get STN_EV_SEEN_SEEN 0 (ev / 32)) (ev % 32)) (ev / 32)
    let h := if ev < 64 then h.trigOut ev due else h
    let h := h.each (List.range 64) (fun h c =>
      if h.get MUS_CAP_STAT_STATE c == 1 && h.get MUS_CAP_TRIG_KIND c == 1 && h.get MUS_CAP_TRIG_ARG c == ev
      then h.modC c (fun x => { x with trigE := true }) else h)
    h.each (List.range 64) (fun h e =>
      let s := h.get TT_STAT_STATE e
      if s == 1 || s == 2 || s == 3 then
        h.modE e (fun x => { x with seen := x.seen.filter (· != ev) ++ [ev] })
      else h)

/-- An edge of a trigger input qualified at tick `q` with its new level (R247): the level has been sampled FILT + 1 times since the
level before it qualified. The first level after the pin became an input raises nothing. -/
def Hw.trigEdge (h : Hw) (k : Nat) (lvl : Bool) (q : Nat) : Hw :=
  let soon := match tfind h.trigAt k with | some a => decide (q < a + h.get STN_TRIG_CFG_FILT 0 k + 1) | none => false
  if !h.trigHas k || h.flag STN_TRIG_CFG_DIR 0 k || decide (q < h.now) || soon || tfind h.trigLvl k == some lvl then h
  else
    let first := h.trigNew.contains k
    let h := ({ h with now := q, trigLvl := tset h.trigLvl k lvl, trigAt := tset h.trigAt k q,
                       trigNew := h.trigNew.filter (· != k) }).setTrig k lvl
    let e := h.get STN_TRIG_CFG_EDGE 0 k
    if !first && (e == 3 || (lvl && e == 1) || (!lvl && e == 2)) then
      (h.put STN_TRIG_STAT_EDGES 0 (setBit (h.get STN_TRIG_STAT_EDGES 0) k)).evRaise (h.get STN_TRIG_CFG_EV 0 k) (q + 32)
    else h

/-- A trigger output is driven low at the end of its pulse (R247). -/
def Hw.trigPulseEnd (h : Hw) (k t : Nat) : Hw :=
  match tfind h.trigEnd k with
  | none => h
  | some x =>
    if t = x ∧ h.now ≤ t ∧ h.trigHas k ∧ h.flag STN_TRIG_CFG_DIR 0 k then
      let h := { h with now := t, trigEnd := tdel h.trigEnd k }
      h.setTrig k false
    else h

/-- The trigger pins of a die that is fenced drive nothing (R12, R68). -/
def Hw.trigGone (h : Hw) (d : Nat) : Hw :=
  h.each ((List.range 4).map (· + 4 * d)) (fun h k => ({ h with trigEnd := tdel h.trigEnd k }).setTrig k false)

/-- A write of STN_TRIG_CFGk (R247): a change of DIR takes effect at once. -/
def Hw.trigCfg (h : Hw) (k val : Nat) : Hw :=
  let old := h.get STN_TRIG_CFG_DIR 0 k
  let new := bits val 0 0
  let h := ((h.put STN_TRIG_CFG_DIR 0 new k).put STN_TRIG_CFG_EDGE 0 (bits val 2 1) k).put STN_TRIG_CFG_EV 0 (bits val 13 8) k
  let h := (h.put STN_TRIG_CFG_FILT 0 (bits val 23 16) k).put STN_TRIG_CFG_WIDTH 0 (bits val 31 24) k
  if old = new then h
  else
    let h := { h with trigEnd := tdel h.trigEnd k, trigLvl := tdel h.trigLvl k, trigAt := tdel h.trigAt k,
                      trigNew := k :: h.trigNew.filter (· != k) }
    if new = 1 then h.setTrig k false else h

end Sys2Proof.Machine
end

