-- ==== Sys2Proof/Machine/Queues.lean ====
section
/-! DEFINITION. Queues, their notices and pointer protection, the error log, and DDR5 (R268 to R290). A queue is numbered
die * 64 + q. -/

namespace Sys2Proof.Machine

/-! ### The error log and ECC -/

/-- An error-log entry (R284, R285). -/
def Hw.errLog (h : Hw) (d src idx det : Nat) : Hw :=
  let i := h.get DIE_ERR_COUNT_COUNT d % 16
  let h := (h.put DIE_ERR_ENTRY_TICK d h.now i).put DIE_ERR_ENTRY_SRC d src i
  ((h.put DIE_ERR_ENTRY_INDEX d idx i).put DIE_ERR_ENTRY_DETAIL d det i).inc DIE_ERR_COUNT_COUNT d

/-- An uncorrectable error at a DDR5 address (R287). -/
def Hw.eccUe (h : Hw) (a : Nat) : Hw :=
  match ddrChan a with
  | none => h
  | some c => ((h.inc DDR_ECC_UE_COUNT c).put DDR_ECC_ADDR_ADDR c a).errLog c 2 c (a % 2 ^ 32)

/-- A corrected error at a DDR5 address (R287). -/
def Hw.eccCe (h : Hw) (a : Nat) : Hw := match ddrChan a with | none => h | some c => h.inc DDR_ECC_CE_COUNT c

/-- The errors that the command in course meets in `n` bytes from an address: whether one is uncorrectable, and the hardware
with all of them counted and logged (R287). -/
def Hw.eccRead (h : Hw) (a n : Nat) : Bool × Hw :=
  let l := h.ecc.filter (fun e => decide (a ≤ e.1) && decide (e.1 < a + n))
  (l.any (fun e => e.2), h.each l (fun h e => if e.2 then h.eccUe e.1 else h.eccCe e.1))

/-! ### Pointers and storage -/

/-- Packet size of a format (R269). -/
def pktSize (fmt : Nat) : Nat := match fmt with | 1 => 32 | 2 => 64 | 3 => 128 | _ => 32

/-- P of a queue. -/
def Hw.qP (h : Hw) (q : Nat) : Nat := pktSize (h.get Q_CFG_FMT q)

/-- Start of a queue's SRAM region within its die's partition (R272). -/
def Hw.qOff (h : Hw) (q : Nat) : Nat := h.get Q_CFG_BASE q * 256

/-- Address and size of a queue's storage (R273). -/
def Hw.qStore (h : Hw) (q : Nat) : Nat × Nat :=
  if (h.que q).ring then (h.get Q_LR_BASE_ADDR q, 2 ^ h.get Q_LR_SIZE_LOG2 q)
  else (0x0300000000 + q / 64 * 0x100000 + h.qOff q, 2 ^ h.get Q_CFG_LOG2 q)

/-- The queue is enabled. -/
def Hw.qOn (h : Hw) (q : Nat) : Bool := h.flag Q_STAT_EN_ACT q

/-- WP and RP shown (Q_WP, Q_RP, Q_LEVEL, Q_PTR). -/
def Hw.qShow (h : Hw) (q : Nat) : Hw :=
  let x := h.que q
  let h := ((h.put Q_WP_COUNT q x.wp).put Q_RP_COUNT q x.rp).put Q_LEVEL_PKTS q ((x.wp + 2 ^ 64 - x.rp) % 2 ^ 64 / h.qP q)
  (h.put Q_PTR_WP q x.wp).put Q_PTR_RP q x.rp

/-- WP and RP set, both copies (R273, R283). -/
def Hw.qSet (h : Hw) (q wp rp : Nat) : Hw :=
  let wp := wp % 2 ^ 64; let rp := rp % 2 ^ 64
  (h.modQ q (fun x => { x with wp := wp, wpN := 2 ^ 64 - 1 - wp, rp := rp, rpN := 2 ^ 64 - 1 - rp })).qShow q

/-- Packets held (R282). -/
def Hw.qLevel (h : Hw) (q : Nat) : Nat := ((h.que q).wp + 2 ^ 64 - (h.que q).rp) % 2 ^ 64 / h.qP q

/-- GEN advanced. -/
def Hw.qGen (h : Hw) (q : Nat) : Hw := h.inc Q_STAT_GEN q

/-! ### Notices (R281, R282) -/

/-- The notice message of a queue: LVL and PKT tell of the causes that ON_LVL and ON_PKT let send a notice, as the section's worked example
has them (R281). -/
def Hw.noticeWords (h : Hw) (q : Nat) : List Nat :=
  [ h.ownNum + q / 64 * 2 ^ 12 + q % 64 * 2 ^ 15 + h.get Q_STAT_LVL q * h.get Q_NOTE_ON_LVL q * 2 ^ 21
      + h.get Q_STAT_PKT q * h.get Q_NOTE_ON_PKT q * 2 ^ 22
      + h.get Q_STAT_QERR q * 2 ^ 23 + h.get Q_STAT_GEN q * 2 ^ 24,
    (h.que q).wp % 2 ^ 32, h.get Q_LOST_COUNT q, h.qLevel q % 2 ^ 32 ]

/-- A waiting NOTICE frame of the queue: the message of the same source, die and queue. -/
def isNotice (w0 : Nat) (f : Frame) : Bool :=
  f.lane == 2 && f.ty == 4 && f.words.getD 0 0 % 2 ^ 21 == w0 % 2 ^ 21

/-- A notice as a Tweed message: one that waits is updated, else a message is added (R281). -/
def Hw.noticeTweed (h : Hw) (q : Nat) : Hw :=
  let w := h.noticeWords q
  let w0 := w.getD 0 0
  if (List.range 4).any (fun p => (h.port p).q.any (fun e => e.2.isNone && isNotice w0 e.1)) then
    h.each (List.range 4) (fun h p => h.modP p (fun x => { x with q := x.q.map (fun e =>
      if e.2.isNone && isNotice w0 e.1 then ({ e.1 with words := w }, e.2) else e) }))
  else h.lineSend { lane := 2, ty := 4, dest := h.get Q_TW_DEST_STN q, words := w }

/-- A notice to this station's own number goes to the open sessions with NOTE (R414). -/
def Hw.noticeEth (h : Hw) (q : Nat) : Hw :=
  let w := h.noticeWords q
  h.each (List.range 8) (fun h s =>
    let x := tget h.sess s {}
    if x.owner.isSome && x.note && h.portMode (s / 4) == 2 then
      let h := { h with sess := tset h.sess s { x with sent := some { op := 5, rsp := false, session := s % 4, status := 0, seq := 0, data := w.flatMap (bytesOf 4), peer := x.owner } } }
      h.inc ETH_TX_COUNT (s / 4)
    else h)

/-- A notice by each means enabled. -/
def Hw.notice (h : Hw) (q : Nat) : Hw :=
  let h := if h.flag Q_NOTE_EV_EN q then h.evSchedule (h.get Q_NOTE_EV q) (h.now + 32) else h
  if h.flag Q_NOTE_TW_EN q then
    if h.get Q_TW_DEST_STN q = h.ownNum then h.noticeEth q
    else if h.dark then h else h.noticeTweed q
  else h

/-! ### Resets -/

/-- Units whose U_REC_CFG routes to a queue. -/
def Hw.routed (h : Hw) (q : Nat) : List Nat :=
  (List.range 256 ++ (List.range 16).map (· + 256) ++ (List.range 256).map (· + 512)).filter (fun u =>
    (isPlain u || h.runs u) && h.dieOf u == q / 64 && (List.range 4).any (fun b => h.flag U_REC_CFG_EN u b && h.get U_REC_CFG_Q u b == q % 64))

/-- The two copies of each pointer agree. -/
def QueS.ok (x : QueS) : Bool := x.wp + x.wpN == 2 ^ 64 - 1 && x.rp + x.rpN == 2 ^ 64 - 1

/-- The pointers compared before an access; on a mismatch the queue resets (R283). -/
def Hw.qCheck (h : Hw) (q : Nat) : Hw :=
  let x := h.que q
  if x.ok then h
  else
    let h := (h.qSet q 0 0).qGen q
    let h := ((h.put Q_STAT_QERR q 1).inc Q_RESETS_COUNT q).notice q
    let h := h.each (h.routed q) (fun h u => h.modU u (fun y => { y with pend := y.pend ++ [{ act := .fault 8 9 }] }))
    h.errLog (q / 64) 1 (q % 64) (x.wp % 2 ^ 32)

/-! ### Placement (R269 to R275) -/

/-- A record's words in a packet format (R269). -/
def packet (fmt : Nat) (w : List Nat) : List Nat :=
  let w := match w with | [] => [] | a :: r => (a + fmt * 2 ^ 27) :: r
  let g := fun k => w.getD k 0
  if fmt = 1 then
    let n := g 5
    let mean := if n = 0 then 0 else u32 (tdiv (sxw 64 (g 6 + 2 ^ 32 * g 7)) n)
    w.take 6 ++ [mean, g 13]
  else w.take (pktSize fmt / 4)

/-- A packet written into the queue's storage, over the oldest one where the queue is full (R273, R274), with its notices (R281,
R282). -/
def Hw.qStoreAt (h : Hw) (q : Nat) (w : List Nat) : Hw :=
  let h := h.qCheck q
  let p := h.qP q
  let (base, s) := h.qStore q
  let old := h.qLevel q
  let full := decide (s / p ≤ old)
  let h := if full then
      ((h.qSet q (h.que q).wp ((h.que q).rp + p)).inc Q_LOST_COUNT q).put Q_STAT_OVW q 1
    else h
  let h := h.ringGuard (base + (h.que q).wp % s) (4 * w.length) (fun h => h.wrWords (base + (h.que q).wp % s) w)
  let before := h.qLevel q
  let h := h.qSet q ((h.que q).wp + p) (h.que q).rp
  let mark := h.get Q_LVL_MARK_PKTS q
  let cross := mark ≠ 0 ∧ before < mark ∧ mark ≤ h.qLevel q
  let lvlWas := h.flag Q_STAT_LVL q
  let h := h.put Q_STAT_PKT q 1
  let h := if cross then h.put Q_STAT_LVL q 1 else h
  if h.flag Q_NOTE_ON_PKT q || (decide cross && h.flag Q_NOTE_ON_LVL q && !lvlWas) then h.notice q else h

/-- A packet placed: in the storage, or in the staging buffer of a spilling queue (R271, R275). -/
def Hw.qPlace (h : Hw) (q : Nat) (w : List Nat) : Hw :=
  if (h.que q).ring then
    if 2 ^ h.get Q_CFG_LOG2 q / h.qP q ≤ (h.que q).stage.length then h.inc Q_LOST_COUNT q
    else h.modQ q (fun x => { x with stage := x.stage ++ [w] })
  else h.qStoreAt q w

/-- Records in the order of their placing: closing tick, unit, bin (R271). -/
def recBefore (a b : Rec) : Bool :=
  decide (a.tick < b.tick) || (a.tick == b.tick && (decide (a.unit < b.unit) || (a.unit == b.unit && decide (a.bin < b.bin))))

/-- The record to be placed next, among those a die holds. -/
def firstRec (l : List Rec) : Option Rec :=
  l.foldl (fun b x => match b with | none => some x | some y => if recBefore x y then some x else some y) none

/-- A record engine of die `d` places a record (R268, R271). -/
def Hw.recordPlace (h : Hw) (d : Nat) : Hw :=
  match firstRec (h.die d).recs with
  | none => h
  | some r =>
    let h := h.modD d (fun x => { x with recs := x.recs.erase r })
    let q := d * 64 + r.q
    if h.qOn q then h.qPlace q (packet (h.get Q_CFG_FMT q) r.words) else h.inc DIE_REC_DISC_COUNT d

/-- The oldest staged packet lands in the log ring, holding the Twill path's token at rank 6 (R35, R36, R275). -/
def Hw.spillMove (h : Hw) (q : Nat) : Hw :=
  let x := h.que q
  match x.stage with
  | [] => h
  | w :: r =>
    if x.ring && h.qOn q then
      h.burst (q / 64) (h.get Q_LR_BASE_ADDR q) (twQueue q) 6 (fun h => (h.modQ q (fun x => { x with stage := r })).qStoreAt q w)
    else h

/-- The oldest staged entry of a capture written to its DDR5 ring, holding the Twill path's token at rank 6 (R151). -/
def Hw.capMove (h : Hw) (c : Nat) : Hw :=
  match (h.cap c).stage with
  | [] => h
  | (idx, ws) :: r =>
    let a := (h.capRing c).1 + idx * h.get MUS_CAP_GEOM_ESIZE c
    h.burst (c / 8) a (twCap c) 6 (fun h =>
      let h := h.modC c (fun x => { x with stage := r })
      match h.place a (4 * ws.length) with
      | .mem => h.ringGuard a (4 * ws.length) (fun h => h.wrWords a ws)
      | _ => h)

/-! ### Enabling and disabling (R272, R275) -/

/-- The log ring of a queue meets R275. -/
def Hw.qRingOk (h : Hw) (q : Nat) : Bool :=
  let k := h.get Q_LR_SIZE_LOG2 q
  let a := h.get Q_LR_BASE_ADDR q
  decide (12 ≤ k) && decide (k ≤ 36) && a % 2 ^ k == 0 && (ddrChan a).isSome &&
    (match h.place a (2 ^ k) with | .mem => true | _ => false)

/-- Two byte ranges overlap. -/
def rangesMeet (a n b m : Nat) : Bool := decide (a < b + m) && decide (b < a + n)

/-- The configuration a Q_CFG write leaves cannot be enabled (R272). -/
def Hw.qRefused (h : Hw) (q : Nat) : Bool :=
  let k := h.get Q_CFG_LOG2 q
  let o := h.qOff q
  let others := ((List.range 64).map (· + q / 64 * 64)).filter (fun p => p != q && h.qOn p)
  h.get Q_CFG_FMT q == 0 || decide (k < 8) || decide (18 < k) || o % 2 ^ k != 0 || decide (0x40000 < o + 2 ^ k) ||
    others.any (fun p => rangesMeet o (2 ^ k) (h.qOff p) (2 ^ h.get Q_CFG_LOG2 p)) ||
    (h.flag Q_CFG_SPILL q && (!h.qRingOk q || (List.range 512).any (fun p => p != q && h.qOn p && (h.que p).ring &&
      rangesMeet (h.get Q_LR_BASE_ADDR q) (2 ^ h.get Q_LR_SIZE_LOG2 q) (h.get Q_LR_BASE_ADDR p) (2 ^ h.get Q_LR_SIZE_LOG2 p))))

/-- The fields of a Q_CFG word but EN. -/
def Hw.qCfgFields (h : Hw) (q v : Nat) : Hw :=
  let h := (h.put Q_CFG_FMT q (bits v 1 0)).put Q_CFG_SPILL q (bits v 3 3)
  (h.put Q_CFG_LOG2 q (bits v 12 8)).put Q_CFG_BASE q (bits v 25 16)

/-- A write of Q_CFG (R272). -/
def Hw.qCfgWrite (h : Hw) (q v : Nat) : Hw :=
  let en := bit v 2
  if h.qOn q then
    let same := bits v 1 0 == h.get Q_CFG_FMT q && bits v 3 3 == h.get Q_CFG_SPILL q && bits v 12 8 == h.get Q_CFG_LOG2 q
      && bits v 25 16 == h.get Q_CFG_BASE q
    if !same then h.put Q_STAT_CFG_IGN q 1
    else if en then h
    else
      let h := ((h.put Q_CFG_EN q 0).put Q_STAT_EN_ACT q 0).qSet q 0 0
      (h.modQ q (fun x => { x with stage := [], ring := false })).qGen q
  else
    let h := (h.qCfgFields q v).put Q_CFG_EN q 0
    if !en then h
    else if h.qRefused q then h.put Q_STAT_BADCFG q 1
    else
      let h := ((h.put Q_CFG_EN q 1).put Q_STAT_EN_ACT q 1).qSet q 0 0
      (h.modQ q (fun x => { x with stage := [], ring := h.flag Q_CFG_SPILL q })).qGen q

/-- The capacity of a DDR5 channel has become 0: spilling queues on it change to SRAM storage (R275). -/
def Hw.ringsLost (h : Hw) (c : Nat) : Hw :=
  h.each (List.range 512) (fun h q =>
    if h.qOn q && (h.que q).ring && ddrChan (h.get Q_LR_BASE_ADDR q) == some c then
      let h := (h.modQ q (fun x => { x with stage := [], ring := false })).qSet q 0 0
      ((h.qGen q).put Q_STAT_LR_LOST q 1).errLog (q / 64) 3 (q % 64) 0
    else h)

/-! ### Taking packets out (R276 to R279) -/

/-- Heads of a log ring that hold an uncorrectable error are removed (R274 steps 1 and 2, R287). -/
def Hw.qGood (h : Hw) (q : Nat) : Nat → Hw
  | 0 => h
  | n + 1 =>
    if (h.que q).ring && h.qOn q && decide (0 < h.qLevel q) then
      let p := h.qP q
      let (base, s) := h.qStore q
      let (bad, h) := h.eccRead (base + (h.que q).rp % s) p
      if bad then
        ((((h.qSet q (h.que q).wp ((h.que q).rp + p)).inc Q_LOST_COUNT q).put Q_STAT_OVW q 1).put Q_STAT_ECC q 1).qGood q n
      else h
    else h

/-- The head packet of a queue (R276, R287): its words, padded to 32, with GEN and the read count; zeros where the queue is empty. -/
def Hw.qHead (h : Hw) (q : Nat) : (List Nat × Option (Nat × Nat)) × Hw :=
  let h := (h.qCheck q).qGood q (h.ecc.length + 1)
  let (base, s) := h.qStore q
  let rp := (h.que q).rp
  if h.qLevel q = 0 ∨ !h.qOn q then ((List.replicate 32 0, none), h)
  else
    let l := h.rdWords (base + rp % s) (h.qP q / 4)
    ((l ++ List.replicate (32 - l.length) 0, some (h.get Q_STAT_GEN q, rp)), h)

/-- The pop of a copied packet (R277). -/
def Hw.qPop (h : Hw) (q gen rp : Nat) : Hw :=
  let h := h.qCheck q
  let x := h.que q
  if h.qOn q && decide (0 < h.qLevel q) && h.get Q_STAT_GEN q == gen && x.rp == rp then h.qSet q x.wp (x.rp + h.qP q) else h

/-- A write of Q_CMD.FLUSH (R279). -/
def Hw.qFlush (h : Hw) (q : Nat) : Hw :=
  if h.qOn q then
    let h := h.qCheck q
    (h.qSet q (h.que q).wp (h.que q).wp).put Q_CMD_RESULT q 0
  else h.put Q_CMD_RESULT q 2

/-- A write of Q_RELEASE (R279). -/
def Hw.qRelease (h : Hw) (q v : Nat) : Hw :=
  if !h.qOn q then h.put Q_STAT_REL_IGN q 1
  else
    let h := h.qCheck q
    let x := h.que q
    let d := (v % 2 ^ 32 + 2 ^ 32 - x.rp % 2 ^ 32) % 2 ^ 32
    if d < 2 ^ 31 ∧ d ≤ (x.wp + 2 ^ 64 - x.rp) % 2 ^ 64 ∧ d % h.qP q = 0 then h.qSet q x.wp (x.rp + d)
    else h.put Q_STAT_REL_IGN q 1

/-! ### DDR5 (R286 to R289) -/

/-- Installed capacity of a configuration in MiB (R286). -/
def ddrMib (width ranks dens : Nat) : Nat :=
  let gb := match dens with | 0 => 16 | 1 => 24 | 2 => 32 | _ => 64
  (ranks + 1) * 2 * (32 / (if width = 0 then 8 else 16)) * gb * 128

/-- DDR_CFG of a channel as a word. -/
def Hw.ddrCfgWord (h : Hw) (c : Nat) : Nat :=
  h.get DDR_CFG_SPEED c + h.get DDR_CFG_WIDTH c * 8 + h.get DDR_CFG_RANKS c * 16 + h.get DDR_CFG_DENS c * 32

/-- DDR_CMD.TRAIN (R289): the capacity is 0 while training runs, which goes by the DDR_CFG that stands now. -/
def Hw.ddrTrain (h : Hw) (c : Nat) : Hw :=
  if c < 2 ∧ h.dieUp c ∧ !h.flag DDR_STAT_BUSY c then
    let h := ((h.put DDR_CMD_TRAIN c 1).put DDR_STAT_BUSY c 1).put DDR_STAT_TRAINED c 0
    ((h.put DDR_CAP_MIB c 0).modD c (fun x => { x with ddrCfg := some (h.ddrCfgWord c) })).ringsLost c
  else h

/-- Training of a channel completes or fails (R286, R288). -/
def Hw.ddrTrainDone (h : Hw) (c : Nat) (ok : Bool) : Hw :=
  if c < 2 ∧ h.flag DDR_STAT_BUSY c then
    let h := (h.put DDR_CMD_TRAIN c 0).put DDR_STAT_BUSY c 0
    let cfg := (h.die c).ddrCfg.getD (h.ddrCfgWord c)
    let mib := ddrMib (bits cfg 3 3) (bits cfg 4 4) (bits cfg 6 5)
    if 4 < bits cfg 2 0 ∨ 65536 < mib then h.put DDR_STAT_RESULT c 2
    else if ok then ((h.put DDR_STAT_RESULT c 0).put DDR_STAT_TRAINED c 1).put DDR_CAP_MIB c mib
    else h.put DDR_STAT_RESULT c 1
  else h

/-- A patrol scrub pass of a channel (R287), holding the Twill path's token at rank 6: corrected errors are counted, uncorrectable ones
counted and logged. -/
def Hw.scrubPass (h : Hw) (c : Nat) : Hw :=
  if c < 2 ∧ 0 < h.get DDR_SCRUB_PERIOD c ∧ 0 < h.ddrCap c then
    h.burstOf (.twill c c) twScrub 6 (fun h =>
      h.each (h.ecc.filter (fun e => ddrChan e.1 == some c)) (fun h e => if e.2 then h.eccUe e.1 else h.eccCe e.1))
  else h

/-- ATTN_N's QUEUE source (R281, R416). -/
def Hw.attnQueue (h : Hw) : Bool :=
  (List.range 512).any (fun q => h.dieUp (q / 64) && h.qOn q && h.flag Q_NOTE_ATTN_EN q &&
    ((h.flag Q_STAT_PKT q && h.flag Q_NOTE_ON_PKT q) || (h.flag Q_STAT_LVL q && h.flag Q_NOTE_ON_LVL q) || h.flag Q_STAT_QERR q))

/-- ATTN_N is asserted (R416); it is off while power-on reset is held (R431). -/
def Hw.attn (h : Hw) : Bool :=
  !h.cold &&
  let en := h.get SPI_ATTN_EN_EN 0
  (bit en 0 && h.attnQueue) || decide (h.get SPI_ATTN_SRC_EVS 0 % 8 &&& (en / 2 % 8) ≠ 0) || (bit en 4 && h.flag SPI_ATTN_SRC_SW 0)

end Sys2Proof.Machine
end

