-- ==== Sys2Proof/Machine/Audit.lean ====
section
/-! DEFINITION. The audit log (R381 to R383), counted settings (R377 to R380) and the ceilings' commit (R341). -/

namespace Sys2Proof.Machine

/-! ### The log -/

/-- The die whose log is written (R381): die 1 under relief boot. -/
def Hw.logDie (h : Hw) : Nat := h.bootDie

/-- The log in use. -/
def Hw.aud (h : Hw) : AudS := tget h.nv.aud h.logDie {}

/-- A log stored back. -/
def Hw.setAud (h : Hw) (a : AudS) : Hw := { h with nv := { h.nv with aud := tset h.nv.aud h.logDie a } }

/-- CHAIN of the MANUFACTURE entry, SEQ 0 (R381). -/
def chain0 : Nat := sha384 (bytesOf 48 0 ++ bytesOf 4 0 ++ bytesOf 8 0 ++ bytesOf 4 1)

/-- CHAIN of the last entry of a log. -/
def AudS.last (a : AudS) : Nat := a.chain.getD chain0

/-- The entry of a log with a SEQ, if it is retained: SEQ 0 is the MANUFACTURE entry (R381, R383). -/
def AudS.entry (a : AudS) (seq : Nat) : Option AudEntry :=
  if a.next ≤ seq ∨ seq + 4096 < a.next then none
  else if seq = 0 then some { seq := 0, time := 0, info := 1, chain := chain0 }
  else a.ring.find? (fun e => e.seq == seq)

/-- The 16 words of an entry (R381). -/
def AudEntry.words (e : AudEntry) : List Nat := [e.seq, e.time % 2 ^ 32, e.time / 2 ^ 32 % 2 ^ 32, e.info] ++ wordsOf 12 e.chain

/-- PENDING, HEAD and RETAINED shown. -/
def Hw.audShow (h : Hw) : Hw :=
  let a := h.aud
  let h := (h.put STN_AUD_STAT_PENDING 0 h.audQ.length).put STN_AUD_STAT_RETAINED 0 (min 4096 a.next)
  (h.put STN_AUD_HEAD_SEQ 0 (a.next - 1)).put STN_AUD_STAT_LOG_DIE 0 h.logDie

/-- The audit writer asks for the boot die's NVM token at rank 6 (R36, R382). -/
def Hw.audAsk (h : Hw) : Hw :=
  let r := Res.nvm h.logDie
  if h.audQ.isEmpty || (h.arb r).hold.any (fun q => q.who == 3) || (h.arb r).pend.any (fun q => q.who == 3) then h
  else h.tokReq r { who := 3, rank := 6 }

/-- An entry queued; while the buffer is full it is lost and counted (R382). -/
def Hw.audit (h : Hw) (kind die arg : Nat) (ext : List Nat := []) : Hw :=
  if 32 ≤ h.audQ.length then
    let h := h.inc STN_AUD_LOST_COUNT 0
    { h with audLost := h.audLost + 1 }
  else
    let line := h.flag TW_LINE_STAT_LOCKED 0 || h.flag TW_LINE_STAT_IS_MASTER 0
    let e : AudPend := { kind := kind, die := die, arg := arg % 2 ^ 20, ext := ext, time := h.now, line := line }
    let h := { h with audQ := h.audQ ++ [e] }
    h.audAsk.audShow

/-- An entry written to a log (R381): SEQ, INFO and the chain. -/
def AudS.write (a : AudS) (e : AudPend) : AudS :=
  let info := e.kind % 256 + e.die % 8 * 2 ^ 8 + b2n e.line * 2 ^ 11 + e.arg % 2 ^ 20 * 2 ^ 12
  let head := bytesOf 4 a.next ++ bytesOf 8 e.time ++ bytesOf 4 info
  let c := sha384 (bytesOf 48 a.last ++ head ++ e.ext)
  { next := a.next + 1, chain := some c,
    ring := (a.ring ++ [({ seq := a.next, time := e.time, info := info, chain := c } : AudEntry)]).drop (a.ring.length + 1 - 4096) }

/-- The place under which the count of a setting's last CNT_CHANGE entry is kept: the log, the setting, the die. -/
def Hw.cntKey (h : Hw) (set die : Nat) : Nat := h.logDie * 64 + set * 8 + die

/-- The count that a CNT_CHANGE entry records (R378, R381). -/
def Hw.cntNote (h : Hw) (e : AudPend) : Hw :=
  { h with nv := { h.nv with cntSeen := tset h.nv.cntSeen (h.cntKey (e.arg % 16) e.die) (e.arg / 16 % 16) } }

/-- AUDIT_WRITE (R382): the entry at the front, or the OVERFLOW entry after a loss, is written under the NVM token. -/
def Hw.auditWrite (h : Hw) : Hw :=
  let r := Res.nvm h.logDie
  if !h.holds r 3 then h.audAsk
  else
    let h :=
      if 0 < h.audLost then
        let e : AudPend := { kind := 0x0D, die := h.logDie, arg := h.audLost % 2 ^ 20, time := h.now,
                             line := h.flag TW_LINE_STAT_LOCKED 0 || h.flag TW_LINE_STAT_IS_MASTER 0 }
        let h := h.setAud (h.aud.write e)
        { h with audLost := 0 }
      else match h.audQ with
        | [] => h
        | e :: q =>
          let h := h.setAud (h.aud.write e)
          let h := if e.kind = 5 then h.cntNote e else h
          { h with audQ := q }
    (h.tokRel r 3).audAsk.audShow

/-! ### Counted settings (R377 to R380) -/

/-- A CNT_CHANGE entry: setting, changes left, the low 12 bits of the new value (R378, R381). -/
def Hw.cntChange (h : Hw) (set die left val : Nat) : Hw :=
  h.audit 0x05 die (set + left % 16 * 2 ^ 4 + val % 2 ^ 12 * 2 ^ 8)

/-- OTP programs of a die are held: thermal shut-down (R353, R378). -/
def Hw.otpHeld (h : Hw) : Bool := (List.range 2).any (fun d => h.dieUp d && h.flag TH_SUP_STAT_SHUT d)

/-- TW_LINE_STAT.NUM as the binding gives it (R398). -/
def Hw.boundNum (h : Hw) : Hw :=
  if h.flag STN_BIND_BOUND 0 then
    if h.serves then (h.put TW_LINE_STAT_NUM 0 (h.get STN_BIND_NUM 0)).put TW_LINE_STAT_NUM_VALID 0 1 else h
  else h

/-- What stands in OTP beside the counts. -/
def Hw.otpNow (h : Hw) : BurnS :=
  { at_ := h.now, bound := h.get STN_BIND_BOUND 0, num := h.get STN_BIND_NUM 0, relief := h.get STN_RELIEF_EN 0, keys := h.nv.keys }

/-- What stands in OTP is remembered before a change of a counted setting programs it (R378). -/
def Hw.burnMark (h : Hw) : Hw :=
  match h.burn with
  | some b => if b.at_ = h.now then h else { h with burn := some h.otpNow }
  | none => { h with burn := some h.otpNow }

/-- Power fails at the instant of a change of a counted setting, before its value is programmed: the old value stands, the count is spent
(R378; notes/assumptions/90.md). -/
def Hw.burnCut (h : Hw) : Hw :=
  match h.burn with
  | some b =>
    if b.at_ = h.now then
      let h := ((h.put STN_BIND_BOUND 0 b.bound).put STN_BIND_NUM 0 b.num).put STN_RELIEF_EN 0 b.relief
      { h with nv := { h.nv with keys := b.keys } }
    else h
  | none => h

/-- STN_BIND written (R378, R379). -/
def Hw.bindDo (h : Hw) (v : Nat) : Hw :=
  let b := bit v 12
  let n := if b then v % 2 ^ 12 else 0
  if (h.flag STN_BIND_BOUND 0 == b && h.get STN_BIND_NUM 0 == n) || h.get STN_BIND_LEFT 0 == 0 then h
  else
    let left := h.get STN_BIND_LEFT 0 - 1
    let h := h.burnMark
    let h := ((h.put STN_BIND_LEFT 0 left).putB STN_BIND_BOUND 0 b).put STN_BIND_NUM 0 n
    let h := h.cntChange 0 0 left n
    if b then h.boundNum
    else (((h.put TW_LINE_STAT_NUM 0 0).put TW_LINE_STAT_NUM_VALID 0 0).put TW_LINE_STAT_ANNOUNCED 0 0).candidacy

/-- STN_RELIEF.EN written (R359, R378): ignored while die 1 is fenced. -/
def Hw.reliefDo (h : Hw) (v : Nat) : Hw :=
  if !h.dieUp 1 || h.get STN_RELIEF_EN 0 == v % 2 || h.get STN_RELIEF_LEFT 0 == 0 then h
  else
    let left := h.get STN_RELIEF_LEFT 0 - 1
    ((h.burnMark.put STN_RELIEF_LEFT 0 left).put STN_RELIEF_EN 0 (v % 2)).cntChange 3 1 left (v % 2)

/-- State of a key slot: 0 BLANK, 1 ACTIVE, 2 REVOKED. -/
def Hw.keyState (h : Hw) (s : Nat) : Nat := h.get STN_KEYSLOT_STATE 0 / 4 ^ s % 4

/-- STN_KEYSLOT and the slots' digests shown as the boot die's OTP has them; DIFF where the head dies' slots differ (R380). -/
def Hw.keyShown (h : Hw) : Hw :=
  let slot := fun d k => tget h.nv.keys (d * 4 + k) (0, 0)
  let st := (List.range 4).foldr (fun k a => a * 4 + (slot h.bootDie k).1 % 4) 0
  let h := (h.put STN_KEYSLOT_STATE 0 st).putB STN_KEYSLOT_PROV 0 (st != 0)
  let h := h.putB STN_KEYSLOT_DIFF 0 ((List.range 4).any (fun k => slot 0 k != slot 1 k))
  h.each (List.range 4) (fun h k => h.put STN_KEY_SLOTD_DIGEST 0 (slot h.bootDie k).2 k)

/-- A key slot programmed in both head dies, or in the one that serves (R380). -/
def Hw.setKey (h : Hw) (s v dg : Nat) : Hw :=
  (h.burnMark.each ([0, 1].filter h.dieUp) (fun h d => { h with nv := { h.nv with keys := tset h.nv.keys (d * 4 + s) (v, dg) } })).keyShown

/-- The refusal of a key command (R380). -/
def Hw.keyResult (h : Hw) (op s : Nat) : Nat :=
  if op = 1 then (if h.keyState s ≠ 0 then 1 else if h.get STN_KEY_STAGE_DIGEST 0 = 0 then 5 else 0)
  else if h.keyState s = 2 then 2
  else if (List.range 4).all (fun k => k == s || h.keyState k == 2) then 3 else 0

/-- A key command carried out (R380). -/
def Hw.keyDo (h : Hw) (op s : Nat) : Hw :=
  let h := h.put STN_KEY_CMD_BUSY 0 0
  let r := h.keyResult op s
  let h := h.put STN_KEY_CMD_RESULT 0 r
  if r ≠ 0 then h
  else
    let diff := !(h.dieUp 0 && h.dieUp 1)
    let arg := s + 4 * b2n diff
    if op = 1 then
      let dg := h.get STN_KEY_STAGE_DIGEST 0
      (h.setKey s 1 dg).audit 0x07 h.logDie arg (bytesOf 48 dg)
    else (h.setKey s 2 (h.get STN_KEY_SLOTD_DIGEST 0 s)).audit 0x08 h.logDie arg

/-! ### Ceilings (R338, R341) -/

/-- The channels and sidings of a die. -/
def unitsOf (d : Nat) : List Nat := (List.range 32).map (· + d * 32) ++ [256 + d * 2, 257 + d * 2]

/-- The words of a unit's active ceilings. -/
def Hw.ceilWords (h : Hw) (u : Nat) : List Nat :=
  [ h.get U_CEIL_V_CODE u, h.get U_CEIL_I_CODE u, h.get U_CEIL_P_CODE u,
    h.get U_CEIL_RNG_VR u + h.get U_CEIL_RNG_IR u * 2 ^ 4 + h.get U_CEIL_RNG_PIR u * 2 ^ 8 + h.get U_CEIL_RNG_PVR u * 2 ^ 12 ]

/-- A unit's active ceilings set from four words. -/
def Hw.setCeil (h : Hw) (u : Nat) (w : List Nat) : Hw :=
  let g := fun k => w.getD k 0
  let h := ((h.put U_CEIL_V_CODE u (g 0)).put U_CEIL_I_CODE u (g 1)).put U_CEIL_P_CODE u (g 2)
  let r := g 3
  ((h.put U_CEIL_RNG_VR u (bits r 1 0)).put U_CEIL_RNG_IR u (bits r 7 4)).put U_CEIL_RNG_PIR u (bits r 11 8) |>.put U_CEIL_RNG_PVR u (bits r 13 12)

/-- A unit's staged ceilings set from its active ones (their reset value, U_CEILS). -/
def Hw.stageCeil (h : Hw) (u : Nat) : Hw :=
  let h := ((h.put U_CEILS_V_CODE u (h.get U_CEIL_V_CODE u)).put U_CEILS_I_CODE u (h.get U_CEIL_I_CODE u)).put U_CEILS_P_CODE u (h.get U_CEIL_P_CODE u)
  let h := (h.put U_CEILS_RNG_VR u (h.get U_CEIL_RNG_VR u)).put U_CEILS_RNG_IR u (h.get U_CEIL_RNG_IR u)
  (h.put U_CEILS_RNG_PIR u (h.get U_CEIL_RNG_PIR u)).put U_CEILS_RNG_PVR u (h.get U_CEIL_RNG_PVR u)

/-- A unit's staged ceilings as four words. -/
def Hw.stagedWords (h : Hw) (u : Nat) : List Nat :=
  [ h.get U_CEILS_V_CODE u, h.get U_CEILS_I_CODE u, h.get U_CEILS_P_CODE u,
    h.get U_CEILS_RNG_VR u + h.get U_CEILS_RNG_IR u * 2 ^ 4 + h.get U_CEILS_RNG_PIR u * 2 ^ 8 + h.get U_CEILS_RNG_PVR u * 2 ^ 12 ]

/-- The derived codes of every unit with a channel on a die computed again (R339, R448). -/
def Hw.recalcDie (h : Hw) (d : Nat) : Hw :=
  let h := h.each (unitsOf d) (fun h u => h.recalcCeil u)
  h.each (((List.range 256).map (· + 512)).filter (fun c => h.isCoupled c && (h.leaves c).any (fun m => ownDie m == d))) (fun h c => h.recalcCeil c)

/-- The SHA-384 digest of a ceiling copy (R341). -/
def CeilCopyS.sum (c : CeilCopyS) : Nat := sha384 (bytesOf 4 c.seq ++ bytesOf 4 c.gen ++ c.words.flatMap (bytesOf 4))

/-- A ceiling copy with its commit word, whose digest compares, is valid (R341). -/
def CeilCopyS.valid (c : CeilCopyS) : Bool := c.commit != 0 && c.digest == c.sum

/-- The older of a die's two ceiling copies (R341). -/
def Hw.olderCeil (h : Hw) (d : Nat) : Nat :=
  let a := tget h.nv.ceils (d * 2) {}; let b := tget h.nv.ceils (d * 2 + 1) {}
  if !a.valid then 0 else if !b.valid then 1 else if a.seq ≤ b.seq then 0 else 1

/-- A ceiling copy of the active ceilings with its digest, not yet committed (R341). -/
def Hw.ceilCopy (h : Hw) (d k : Nat) : CeilCopyS :=
  let c : CeilCopyS := { seq := ((tget h.nv.ceils (d * 2 + (1 - k)) {}).seq + 1) % 2 ^ 32, gen := h.get ILK_CEIL_GEN_GEN d,
                         words := (unitsOf d).flatMap (fun u => h.ceilWords u), begun := true }
  { c with digest := c.sum }

/-- A ceiling copy of a die stored. -/
def Hw.setCopy (h : Hw) (d k : Nat) (c : CeilCopyS) : Hw := { h with nv := { h.nv with ceils := tset h.nv.ceils (d * 2 + k) c } }

/-- A die's active ceilings and GEN as the valid copy with the higher commit sequence number has them, whatever its GEN; without a valid copy
those of a part whose ceilings have never been set (R338, R341). -/
def Hw.ceilFrom (h : Hw) (d : Nat) : Hw :=
  let a := tget h.nv.ceils (d * 2) {}; let b := tget h.nv.ceils (d * 2 + 1) {}
  let c := if a.valid && (!b.valid || decide (b.seq ≤ a.seq)) then a
    else if b.valid then b else { words := (unitsOf d).flatMap (fun _ => [0x7FFFFFFF, 0x7FFFFFFF, 0x7FFFFFFF, 0x3FF3]) }
  (h.put ILK_CEIL_GEN_GEN d c.gen).each ((unitsOf d).zipIdx) (fun h p => h.setCeil p.1 ((c.words.drop (4 * p.2)).take 4))

/-- ILK_CEIL_GEN.GEN written with a new value (R341). -/
def Hw.ceilDo (h : Hw) (d gen : Nat) : Hw :=
  if h.get ILK_CEIL_GEN_GEN d == gen % 16 || h.get ILK_CEIL_GEN_LEFT d == 0 then h
  else if (unitsOf d).any (fun u => h.live u) then h.put ILK_CEIL_GEN_REFUSED d 1
  else
    let left := h.get ILK_CEIL_GEN_LEFT d - 1
    let h := h.put ILK_CEIL_GEN_LEFT d left
    let h := (h.put ILK_CEIL_GEN_GEN d gen).cntChange 1 d left (gen % 16)
    let h := h.each (unitsOf d) (fun h u => h.setCeil u (h.stagedWords u))
    let h := h.recalcDie d
    let k := h.olderCeil d
    let h := h.setCopy d k { tget h.nv.ceils (d * 2 + k) {} with commit := 0, begun := true }
    let h := h.modD d (fun x => { x with ceilW := some (k, 0) })
    h.tokReq (.nvm d) { who := 1, rank := 1 }

/-- A page program of a ceiling copy completes: the data and its digest, then the commit word (R341). The copy is invalid from the start of
the write. -/
def Hw.ceilPage (h : Hw) (d : Nat) : Hw :=
  let h := h.tokRel (.nvm d) 1
  match (h.die d).ceilW with
  | none => h
  | some (k, pg) =>
    if pg = 0 then
      let h := h.setCopy d k (h.ceilCopy d k)
      (h.modD d (fun x => { x with ceilW := some (k, 1) })).tokReq (.nvm d) { who := 1, rank := 1 }
    else
      (h.setCopy d k { tget h.nv.ceils (d * 2 + k) {} with commit := 1, begun := false }).modD d (fun x => { x with ceilW := none })

/-! ### The calibration store (R314 to R317) -/

/-- A calibration slot of a die: 0 A, 1 B, 2 F. -/
def Hw.calSlot (h : Hw) (d k : Nat) : CalSlotS := tget h.nv.slots (d * 3 + k) {}

/-- A slot set, with the registers that show it (CAL_NVM_STAT, CAL_NVM_SEQ). -/
def Hw.setSlot (h : Hw) (d k : Nat) (x : CalSlotS) : Hw :=
  let h := { h with nv := { h.nv with slots := tset h.nv.slots (d * 3 + k) x } }
  h.putB (if k = 0 then CAL_NVM_STAT_A_VALID else if k = 1 then CAL_NVM_STAT_B_VALID else CAL_NVM_STAT_F_VALID) d
    (x.commit && x.digest) |>.put CAL_NVM_SEQ_SEQ d (if x.commit && x.digest then x.seq else 0) k

/-- A slot is valid (R315). -/
def CalSlotS.valid (x : CalSlotS) : Bool := x.commit && x.digest

/-- The slot a store is made to (R316): whichever of A and B is not valid, or else the one with the lower SEQ. -/
def Hw.storeSlot (h : Hw) (d : Nat) : Nat :=
  let a := h.calSlot d 0; let b := h.calSlot d 1
  if !a.valid then 0 else if !b.valid then 1 else if a.seq ≤ b.seq then 0 else 1

/-- The sets and die words of a die as a store copies them (R315, R316): SEQ is one more than the highest of the valid slots. -/
def Hw.storeData (h : Hw) (d : Nat) : CalSlotS :=
  let l := [0, 1, 2].map (h.calSlot d)
  { header := true, digest := false, commit := false,
    seq := 1 + l.foldl (fun m x => if x.valid then max m x.seq else m) 0, time := h.now, arefx := h.get CAL_AREFX_UV d,
    ratio := (h.die d).calRatio,
    sets := h.regs.filter (fun p => p.1.blk == .cset && ownDie p.1.inst == d) }

/-- A page program of a store asks for the NVM token at rank 5 (R35, R36). -/
def Hw.storeAsk (h : Hw) (d : Nat) : Hw := h.tokReq (.nvm d) { who := 2, rank := 5 }

/-- A store to a slot begins (R316). -/
def Hw.storeBegin (h : Hw) (d slot : Nat) (cmd : Bool) : Hw :=
  let h := (h.put CAL_NVM_STAT_STORING d 1).inc CAL_NVM_CYC_COUNT d slot
  let h := h.modD d (fun x => { x with store := some { slot := slot, data := h.storeData d, cmd := cmd }, storedAt := h.now })
  h.storeAsk d

/-- FACTORY_STORE begins (R314, R378): one rewrite of slot F is spent, and the audit entry written. -/
def Hw.factoryDo (h : Hw) (d : Nat) : Hw :=
  if h.get CAL_NVM_STAT_F_LEFT d = 0 then h.put CAL_CMD_BUSY d 0
  else
    let left := h.get CAL_NVM_STAT_F_LEFT d - 1
    ((h.put CAL_NVM_STAT_F_LEFT d left).cntChange 2 d left 0).storeBegin d 2 true

/-! ### Held changes -/

/-- A change of a counted setting, made at once or held back by thermal shut-down (R378). -/
def Hw.cntDo (h : Hw) (c : HeldCnt) : Hw :=
  match c with
  | .bind v => h.bindDo v
  | .relief v => h.reliefDo v
  | .key o s => h.keyDo o s
  | .ceil d g => h.ceilDo d g
  | .slotF d => h.factoryDo d

/-- The dies whose OTP a setting programs are in thermal shut-down. -/
def Hw.cntBlocked (h : Hw) (c : HeldCnt) : Bool :=
  match c with
  | .ceil d _ => h.flag TH_SUP_STAT_SHUT d
  | .slotF d => h.flag TH_SUP_STAT_SHUT d
  | .relief _ => h.flag TH_SUP_STAT_SHUT 1
  | _ => h.otpHeld

/-- A write of a counted setting. -/
def Hw.cntWrite (h : Hw) (c : HeldCnt) : Hw :=
  if h.cntBlocked c then { h with heldCnt := h.heldCnt ++ [c] } else h.cntDo c

/-- STN_KEY_CMD with PROGRAM (1) or REVOKE (2): RESULT 4 while one is programming (R380). -/
def Hw.keyCmd (h : Hw) (op slot : Nat) : Hw :=
  let r := h.keyResult op (slot % 4)
  if h.flag STN_KEY_CMD_BUSY 0 then h.put STN_KEY_CMD_RESULT 0 (if r = 0 ∨ r = 5 then 4 else r)
  else (((h.put STN_KEY_CMD_OP 0 op).put STN_KEY_CMD_SLOT 0 slot).put STN_KEY_CMD_BUSY 0 1).cntWrite (.key op (slot % 4))

/-- The held changes that may now be made. -/
def Hw.cntResume (h : Hw) : Hw :=
  let l := h.heldCnt
  let go := l.filter (fun c => !h.cntBlocked c)
  let h := { h with heldCnt := l.filter h.cntBlocked }
  h.each go (fun h c => h.cntDo c)

end Sys2Proof.Machine
end

