-- ==== Sys2Proof/Machine/Metro.lean ====
section
/-! DEFINITION. The metronome's source (R22 to R24). -/

namespace Sys2Proof.Machine

/-- Line time is available: the station is locked to it, or to a PTP clock while it has no Tweed upstream port (R23, R413). -/
def Hw.lineAvail (h : Hw) : Bool :=
  h.flag TW_LINE_STAT_LOCKED 0 ||
    ((h.upstream h.now).isNone && (h.flag ETH_PTP_LOCK 0 || h.flag ETH_PTP_LOCK 1))

/-- A source is available: 1 Line time, 2 REFCLK, 3 the fallback oscillator (R23). -/
def Hw.srcAvail (h : Hw) (s : Nat) : Bool :=
  !bit h.metLost s && (match s with | 1 => h.lineAvail | 2 => h.flag STN_METRO_STAT_REF_OK 0 | 3 => true | _ => false)

/-- The first available source in AUTO order (R23). -/
def Hw.autoSrc (h : Hw) : Option Nat := [1, 2, 3].find? h.srcAvail

/-- The active source becomes `s` and the metronome locks to it; a change is counted. -/
def Hw.takeSrc (h : Hw) (s : Nat) (auto : Bool) : Hw :=
  let ch := h.get STN_METRO_STAT_ACT_SRC 0 != s
  let h := ((h.put STN_METRO_STAT_ACT_SRC 0 s).put STN_METRO_STAT_LOCK 0 1).put STN_METRO_STAT_HOLDOVER 0 0
  let h := if ch then h.incSat STN_METRO_STAT_SWITCH_COUNT 0 else h
  if ch && auto then h.put STN_METRO_STAT_SWITCHED 0 1 else h

/-- The active source is lost: holdover, with the last frequency control word held (R24). -/
def Hw.srcLost (h : Hw) : Hw :=
  let s := h.get STN_METRO_STAT_ACT_SRC 0
  let h := { h with metLost := setBit h.metLost s }
  let h := if s = 2 then h.put STN_METRO_STAT_REF_OK 0 0 else h
  ((h.put STN_METRO_STAT_HOLDOVER 0 1).put STN_METRO_STAT_REF_LOST 0 1).put STN_METRO_STAT_LOCK 0 0

/-- Under AUTO, the metronome switches to the next available source (R24). -/
def Hw.srcSwitch (h : Hw) : Hw :=
  if h.get STN_METRO_CTRL_SRC 0 = 0 then
    match h.autoSrc with
    | some s => if s = h.get STN_METRO_STAT_ACT_SRC 0 ∧ h.flag STN_METRO_STAT_LOCK 0 then h else h.takeSrc s true
    | none => h
  else h

/-- Under a forced SRC, the lost source returns (R24). -/
def Hw.srcReturn (h : Hw) : Hw :=
  let s := h.get STN_METRO_CTRL_SRC 0
  if s ≠ 0 ∧ h.flag STN_METRO_STAT_HOLDOVER 0 then
    let h := { h with metLost := clrBit h.metLost s }
    let h := if s = 2 then h.put STN_METRO_STAT_REF_OK 0 1 else h
    h.takeSrc s false
  else h

/-- A write of STN_METRO_CTRL.SRC: a forced source is taken where it is available, and waited for in holdover where it is not (R23, R24).
What such a wait shows and counts is the model's choice (notes/assumptions/87.md). -/
def Hw.metroCtrl (h : Hw) (v : Nat) : Hw :=
  let h := h.put STN_METRO_CTRL_SRC 0 (bits v 1 0)
  let s := bits v 1 0
  if s = 0 then h.srcSwitch
  else if h.srcAvail s then h.takeSrc s false
  else ((h.put STN_METRO_STAT_ACT_SRC 0 s).put STN_METRO_STAT_HOLDOVER 0 1).put STN_METRO_STAT_LOCK 0 0

/-- REFCLK classified: 0 10 MHz, 1 100 MHz; any other is treated as absent (R23). -/
def Hw.refClass (h : Hw) (c : Nat) : Hw :=
  if c ≤ 1 then
    let h := { h with metLost := clrBit h.metLost 2 }
    (h.put STN_METRO_STAT_REFF 0 c).put STN_METRO_STAT_REF_OK 0 1
  else
    let h := h.put STN_METRO_STAT_REF_OK 0 0
    if h.get STN_METRO_STAT_ACT_SRC 0 = 2 then h.srcLost else h

end Sys2Proof.Machine
end

