-- ==== Sys2Proof/Machine/Decodeins.lean ====
section
/-! DEFINITION. Timetable instruction words, their memory and the prefetch window (R211, R212, R223). -/

namespace Sys2Proof.Machine

/-- The bits of a word that an opcode assigns to operands (R223 and the encodings of the junction chapter). -/
def insMask (op : Nat) : Nat :=
  match op with
  | 0x00 => 0
  | 0x01 => 2 ^ 58 - 1
  | 0x02 => 2 ^ 40 - 1
  | 0x03 => 2 ^ 58 - 1
  | 0x04 => 2 ^ 56 - 1
  | 0x05 => 2 ^ 32 - 1
  | 0x06 => 2 ^ 32 - 1
  | 0x07 => 15
  | 0x08 => 15
  | 0x09 => 7
  | 0x0A => 0x1F3F
  | 0x0B => (2 ^ 58 - 2 ^ 40) + (2 ^ 24 - 1)
  | 0x0C => 2 ^ 32 - 1
  | 0x0D => 0
  | 0x0E => 1
  | 0x0F => 2 ^ 32 - 1
  | 0x10 => 2 ^ 40 - 1
  | 0x11 => 0
  | 0x12 => 7 * 2 ^ 52 + (2 ^ 48 - 1)
  | 0x13 => 0x1FF * 2 ^ 40 + (2 ^ 32 - 1)
  | 0x14 => 0x10F
  | 0x15 => 1
  | _ => 0

/-- An instruction word decoded: the error code of a word that is none, or the instruction (R216, R223). -/
def decodeIns (w : Nat) : Nat × TIns :=
  let op := bits w 63 58
  let m := insMask op
  if 0x16 < op then (1, .halt)
  else if (w % 2 ^ 58) &&& m ≠ w % 2 ^ 58 then (2, .halt)
  else
    (0, match op with
    | 0x00 => .halt
    | 0x01 => .set (bits w 57 57) (bits w 56 53) (bits w 52 32) (bits w 31 0)
    | 0x02 => .sweep (bits w 39 0)
    | 0x03 => .list (bits w 57 40) (bits w 39 0)
    | 0x04 => .play (bits w 55 40) (bits w 39 0)
    | 0x05 => .stream (bits w 31 0)
    | 0x06 => .dwell (bits w 31 0)
    | 0x07 => .openB (bits w 3 0)
    | 0x08 => .closeB (bits w 3 0)
    | 0x09 => .mode (bits w 0 0) (bits w 2 1)
    | 0x0A => .range (bits w 3 0) (bits w 5 4) (bits w 8 8) (bits w 9 9) (bits w 10 10) (bits w 11 11) (bits w 12 12)
    | 0x0B => .junction (bits w 57 56) (bits w 55 54) (bits w 53 52) (bits w 51 50) (bits w 49 47) (bits w 46 46)
                (bits w 45 43) (bits w 42 40) (bits w 23 0)
    | 0x0C => .loop (bits w 31 0)
    | 0x0D => .next
    | 0x0E => .mark (bits w 0 0)
    | 0x0F => .rewind (bits w 31 0)
    | 0x10 => .call (bits w 39 0)
    | 0x11 => .ret
    | 0x12 => .waitev (bits w 54 52) (bits w 47 24) (bits w 23 0)
    | 0x13 => .signal (bits w 48 40) (bits w 31 0)
    | 0x14 => .therm (bits w 3 0) (bits w 8 8)
    | 0x15 => .connect (bits w 0 0)
    | _ => .isolate)

/-- The word of an instruction whose operands lie in their fields (R223 and the encodings). -/
def encIns : TIns → Nat
  | .halt => 0
  | .set ovr rsh rate value => 0x01 * 2 ^ 58 + ovr * 2 ^ 57 + rsh * 2 ^ 53 + rate * 2 ^ 32 + value
  | .sweep a => 0x02 * 2 ^ 58 + a
  | .list count a => 0x03 * 2 ^ 58 + count * 2 ^ 40 + a
  | .play rep a => 0x04 * 2 ^ 58 + rep * 2 ^ 40 + a
  | .stream n => 0x05 * 2 ^ 58 + n
  | .dwell n => 0x06 * 2 ^ 58 + n
  | .openB m => 0x07 * 2 ^ 58 + m
  | .closeB m => 0x08 * 2 ^ 58 + m
  | .mode mode law => 0x09 * 2 ^ 58 + law * 2 + mode
  | .range irng vrng aren seti setv setar wait =>
    0x0A * 2 ^ 58 + wait * 2 ^ 12 + setar * 2 ^ 11 + setv * 2 ^ 10 + seti * 2 ^ 9 + aren * 2 ^ 8 + vrng * 2 ^ 4 + irng
  | .junction kind stat op bin th neg slot flag disp =>
    0x0B * 2 ^ 58 + kind * 2 ^ 56 + stat * 2 ^ 54 + op * 2 ^ 52 + bin * 2 ^ 50 + th * 2 ^ 47 + neg * 2 ^ 46 + slot * 2 ^ 43 + flag * 2 ^ 40 + disp
  | .loop count => 0x0C * 2 ^ 58 + count
  | .next => 0x0D * 2 ^ 58
  | .mark clr => 0x0E * 2 ^ 58 + clr
  | .rewind count => 0x0F * 2 ^ 58 + count
  | .call a => 0x10 * 2 ^ 58 + a
  | .ret => 0x11 * 2 ^ 58
  | .waitev slot timeout disp => 0x12 * 2 ^ 58 + slot * 2 ^ 52 + timeout * 2 ^ 24 + disp
  | .signal ev delay => 0x13 * 2 ^ 58 + ev * 2 ^ 40 + delay
  | .therm sensor wait => 0x14 * 2 ^ 58 + wait * 2 ^ 8 + sensor
  | .connect cl => 0x15 * 2 ^ 58 + cl
  | .isolate => 0x16 * 2 ^ 58

/-- Every operand lies in its field. -/
def insFits : TIns → Bool
  | .halt => true
  | .set ovr rsh rate value => decide (ovr < 2 ∧ rsh < 16 ∧ rate < 2 ^ 21 ∧ value < 2 ^ 32)
  | .sweep a => decide (a < 2 ^ 40)
  | .list count a => decide (count < 2 ^ 18 ∧ a < 2 ^ 40)
  | .play rep a => decide (rep < 2 ^ 16 ∧ a < 2 ^ 40)
  | .stream n => decide (n < 2 ^ 32)
  | .dwell n => decide (n < 2 ^ 32)
  | .openB m => decide (m < 16)
  | .closeB m => decide (m < 16)
  | .mode mode law => decide (mode < 2 ∧ law < 4)
  | .range irng vrng aren seti setv setar wait =>
    decide (irng < 16 ∧ vrng < 4 ∧ aren < 2 ∧ seti < 2 ∧ setv < 2 ∧ setar < 2 ∧ wait < 2)
  | .junction kind stat op bin th neg slot flag disp =>
    decide (kind < 4 ∧ stat < 4 ∧ op < 4 ∧ bin < 4 ∧ th < 8 ∧ neg < 2 ∧ slot < 8 ∧ flag < 8 ∧ disp < 2 ^ 24)
  | .loop count => decide (count < 2 ^ 32)
  | .next => true
  | .mark clr => decide (clr < 2)
  | .rewind count => decide (count < 2 ^ 32)
  | .call a => decide (a < 2 ^ 40)
  | .ret => true
  | .waitev slot timeout disp => decide (slot < 8 ∧ timeout < 2 ^ 24 ∧ disp < 2 ^ 24)
  | .signal ev delay => decide (ev < 512 ∧ delay < 2 ^ 32)
  | .therm sensor wait => decide (sensor < 16 ∧ wait < 2)
  | .connect cl => decide (cl < 2)
  | .isolate => true

/-- The timetable SRAM of a die (R58). -/
def ttBase (d : Nat) : Nat := 0x0100000000 + d * 0x100000

/-- `n` bytes from an address lie in one of the two regions of R211, seen from an engine. -/
def Hw.ttRange (h : Hw) (e a n : Nat) : Bool :=
  let b := ttBase (e / 8)
  (decide (b ≤ a) && decide (a + n ≤ b + 0x80000)) ||
    (match ddrChan a with
     | some c => decide (a - (if c = 0 then 0x1000000000 else 0x2000000000) + n ≤ h.ddrCap c)
     | none => false)

/-- The lines of an engine's prefetch window: eight of code, eight of data (R212). -/
def Hw.window (h : Hw) (e : Nat) (data : Bool) : Tab Nat (List Nat) := if data then (h.eng e).data else (h.eng e).code

/-- `n` bytes of one line at an address as an engine reads them (R212): timetable SRAM directly, DDR5 from the window, which holds what the line
held when it was filled. -/
def Hw.engRd (h : Hw) (e a n : Nat) (data : Bool) : Nat :=
  if (ddrChan a).isNone then h.rdLE a n
  else match tfind (h.window e data) (a / 256) with
    | some l => ((l.drop (a % 256)).take n).foldr (fun b x => b + 256 * x) 0
    | none => h.rdLE a n

/-- A word of descriptors, list entries and samples. -/
def Hw.data32 (h : Hw) (e a : Nat) : Nat := h.engRd e a 4 true

/-- The first DDR5 line of `n` bytes from an address that an engine's window lacks (R212). -/
def Hw.lineMiss (h : Hw) (e a n : Nat) (data : Bool) : Option Nat :=
  if (ddrChan a).isNone || n == 0 then none
  else
    let win := (h.window e data).map (fun p => p.1)
    ((List.range ((a + n - 1) / 256 + 1 - a / 256)).map (fun k => a / 256 + k)).find? (fun l => !win.contains l)

/-- An engine's program counter. -/
def Hw.pc (h : Hw) (e : Nat) : Nat := h.get TT_PC_ADDR e

/-- The program counter set. -/
def Hw.setPc (h : Hw) (e a : Nat) : Hw := h.put TT_PC_ADDR e a

/-- The instruction at the program counter: the line that is missing, or the error code and the instruction. -/
def Hw.fetchIns (h : Hw) (e : Nat) : Option Nat × Nat × TIns :=
  let a := h.pc e
  if a % 8 ≠ 0 ∨ h.ttRange e a 8 = false then (none, 3, .halt)
  else match h.lineMiss e a 8 false with
    | some l => (some l, 0, .halt)
    | none => (none, decodeIns (h.engRd e a 8 false))

/-- The target of a signed 24-bit displacement (R253, the encodings of the junction chapter). -/
def dispTarget (pc disp : Nat) : Nat := ((pc : Int) + 8 + sxw 24 disp * 8).toNat % 2 ^ 40

end Sys2Proof.Machine
end

