-- ==== Sys2Proof/Machine/Timetable.lean ====
section
/-! DEFINITION. The timetable instructions and the preparation of a step (R217 to R239, R249, R252 to R255, R261 to R266). -/

namespace Sys2Proof.Machine

/-- The step an engine prepares, changed. -/
def Hw.modAcc (h : Hw) (e : Nat) (f : StepAcc → StepAcc) : Hw := h.modE e (fun x => { x with acc := f x.acc })

/-- The loop and call stacks set, with the registers that show them. -/
def Hw.setStacks (h : Hw) (e : Nat) (l : List LoopLv) (c : List (Nat × Nat)) : Hw :=
  let h := h.modE e (fun x => { x with loops := l, calls := c })
  let h := (h.put TT_STAT_LDEPTH e l.length).put TT_STAT_CDEPTH e c.length
  h.each (List.range 8) (fun h i =>
    h.put TT_LOOPCNT_REMAIN e (match l[i]? with | some v => if v.forever then 0 else v.remain | none => 0) i)

/-- The state at the start of a step, to which a late step returns (R220). -/
def Hw.engBack (h : Hw) (e : Nat) : EngBack :=
  let x := h.eng e
  { pc := h.pc e, acc := x.acc, loops := x.loops, calls := x.calls, act := x.act, mark := h.get TT_SR_MARK_VALUE e,
    marked := h.get TT_SR_STAT_MARKED e, rp := h.get TT_SR_RP_VALUE e, rewind := h.get TT_SR_REWIND_REMAIN e,
    rewinding := x.rewinding, rewForever := x.rewForever }

/-- An engine's program counter, stacks, mark and RP set back. -/
def Hw.engRegs (h : Hw) (e : Nat) (b : EngBack) : Hw :=
  let h := (h.setStacks e b.loops b.calls).setPc e b.pc
  let h := (h.put TT_SR_MARK_VALUE e b.mark).put TT_SR_STAT_MARKED e b.marked
  let h := (h.put TT_SR_RP_VALUE e b.rp).put TT_SR_REWIND_REMAIN e b.rewind
  h.modE e (fun x => { x with rewinding := b.rewinding, rewForever := b.rewForever })

/-- The instruction in course faults the engine at its step tick (R216). -/
def Hw.insErr (h : Hw) (e code : Nat) : Hw := h.modAcc e (fun a => { a with fin := .err code })

/-- Execution continues after the instruction in course. -/
def Hw.insNext (h : Hw) (e : Nat) : Hw := h.setPc e (h.pc e + 8)

/-- The step ends with its instruction in course. -/
def Hw.insEnd (h : Hw) (e : Nat) (f : StepEnd) : Hw := (h.modAcc e (fun a => { a with fin := f })).insNext e

/-- A waiting instruction whose condition may hold at its step tick: the step is kept as it stands, to wait there, and goes on, for the case
that the condition holds (R217). -/
def Hw.insWait (h : Hw) (e : Nat) (c : WaitC) : Hw :=
  let h := h.insNext e
  let b := h.engBack e
  h.modE e (fun x => { x with parts := x.parts ++ [{ b with acc := { b.acc with fin := .act (.wait c) } }] })

/-! ### Effects (R224 to R228, R236, R252) -/

/-- SET (R224): the last SET of a step wins (R218). -/
def Hw.insSet (h : Hw) (e ovr rsh rate value : Nat) : Hw :=
  if ovr = 0 ∧ (rsh ≠ 0 ∨ rate ≠ 0) then h.insErr e 4
  else
    let r : RefEntry :=
      { value := sx32 value, src := 1, ovr := if ovr = 1 then some (min (rate * 2 ^ rsh) 0xFFFFFFFF) else none }
    (h.modAcc e (fun a => { a with entry := some r })).insNext e

/-- OPEN (R226). -/
def Hw.insOpen (h : Hw) (e m : Nat) : Hw := (h.modAcc e (fun a => { a with opn := a.opn ||| m })).insNext e

/-- CLOSE (R226). -/
def Hw.insClose (h : Hw) (e m : Nat) : Hw := (h.modAcc e (fun a => { a with close := a.close ||| m })).insNext e

/-- MODE (R227). -/
def Hw.insMode (h : Hw) (e mo law : Nat) : Hw := (h.modAcc e (fun a => { a with mode := some (mo, law), modePc := h.pc e })).insNext e

/-- RANGE (R228): with WAIT it waits, on a condition first tested at the step tick, after its writes have acted. -/
def Hw.insRange (h : Hw) (e irng vrng aren seti setv setar wait : Nat) : Hw :=
  let h := h.modAcc e (fun a => { a with
    rI := if seti = 1 then some irng else a.rI
    rV := if setv = 1 then some vrng else a.rV
    rA := if setar = 1 then some aren else a.rA })
  if wait = 0 then h.insNext e
  else h.insWait e (.range (if seti = 1 then some irng else none) (if setv = 1 then some vrng else none))

/-- THERM (R236). -/
def Hw.insTherm (h : Hw) (e sensor wait : Nat) : Hw :=
  if 11 < sensor then h.insErr e 4
  else
    let h := h.modAcc e (fun a => { a with therm := a.therm ++ [sensor] })
    if wait = 1 then h.insEnd e (.act (.wait .therm)) else h.insNext e

/-- SIGNAL (R252). -/
def Hw.insSignal (h : Hw) (e ev delay : Nat) : Hw :=
  if 319 < ev ∨ (ev < 64 ∧ delay < 32) ∨ (64 ≤ ev ∧ delay < h.lineLat) then h.insErr e 4
  else (h.modAcc e (fun a => { a with signals := a.signals ++ [(ev, delay)] })).insNext e

/-! ### Timing (R225, R229 to R233, R263) -/

/-- DWELL (R225): N = 0 consumes no period. -/
def Hw.insDwell (h : Hw) (e n : Nat) : Hw := if n = 0 then h.insNext e else h.insEnd e (.dwell n)

/-- `a / d` on naturals, rounded half up (R230). -/
def rdivN (a d : Nat) : Nat := (2 * a + d) / (2 * d)

/-- The LOG magnitude that follows another (R230). -/
def logNext (a ratio : Nat) : Nat := min (rdivN (a * ratio) (2 ^ 62)) (2 ^ 63)

/-- The value of point `j` of a sweep in playing order; for LOG `mag` is its magnitude (R230). -/
def SweepS.value (s : SweepS) (j : Nat) : Int :=
  if s.log then
    let m : Int := min (rdivN s.mag (2 ^ 32)) (2 ^ 31 - 1)
    if s.start < 0 then -m else m
  else
    let k := if j < s.points then j else 2 * s.points - 2 - j
    if s.points = 1 then s.start else s.start + rdiv ((k : Int) * (s.stop - s.start)) (s.points - 1)

/-- Points of a sweep in playing order (R231). -/
def SweepS.total (s : SweepS) : Nat := if s.dual then 2 * s.points - 1 else s.points

/-- The sweep after point `j` is played: LOG moves to the next point's magnitude (R230). -/
def SweepS.advance (s : SweepS) : SweepS :=
  { s with j := s.j + 1, mag := logNext s.mag (if s.j + 1 < s.points then s.ratio else s.rratio) }

/-- A sweep descriptor read and checked: `none` where it is invalid (R229). -/
def Hw.readSweep (h : Hw) (e a : Nat) : Option SweepS :=
  let w := fun k => h.data32 e (a + 4 * k)
  let p := bits (w 1) 23 0
  let dw := bits (w 4) 23 0
  let st := bits (w 5) 23 0
  let log := bit (w 0) 0
  let dual := bit (w 0) 1
  let start := sx32 (w 2)
  let ratio := w 8 + w 9 * 2 ^ 32
  let rratio := w 10 + w 11 * 2 ^ 32
  let rsv := bits (w 0) 7 3 != 0 || bits (w 0) 31 12 != 0 || bits (w 1) 31 24 != 0 || bits (w 4) 31 24 != 0 || bits (w 5) 31 24 != 0
    || w 7 != 0 || w 12 != 0 || w 13 != 0 || w 14 != 0 || w 15 != 0
  if p = 0 ∨ dw = 0 ∨ dw ≤ st ∨ rsv ∨ (log ∧ (start = 0 ∨ ratio = 0 ∨ (dual ∧ rratio = 0))) then none
  else some { log := log, dual := dual, ovr := if bit (w 0) 2 then some (w 6) else none, bmask := bits (w 0) 11 8, points := p,
              start := start, stop := sx32 (w 3), dwell := dw, settle := st, ratio := ratio, rratio := rratio,
              mag := start.natAbs * 2 ^ 32 }

/-- A slip of the timeline while STALLED is counted (R220). -/
def Hw.slipStalled (h : Hw) (e : Nat) : Hw :=
  ((h.inc TT_SLIP_COUNT e).inc TT_STALL_COUNT e).put TT_STAT_SLIPPED e 1

/-- The engine stalls for want of a line (R212, R213). Behind a wait whose condition may hold at the step tick it goes on running: whether the
line is needed is known at that tick. -/
def Hw.stallFor (h : Hw) (e line : Nat) (data : Bool) : Hw :=
  let x := h.eng e
  let pc := match x.ready with
    | some { fin := .act (.stream s), .. } => s.pc
    | _ => if x.back.isSome then h.pc e
      else match x.act with | .list l => l.pc | .play p => p.pc | .stream s => s.pc | _ => h.pc e
  let h := h.modE e (fun x => { x with need := some (line, data), needPc := pc })
  if x.parts.isEmpty then h.put TT_STAT_STATE e 3 else h

/-- SWEEP (R229 to R231): its first point's entry is due at the step tick. -/
def Hw.insSweep (h : Hw) (e a : Nat) : Hw :=
  if a % 64 ≠ 0 ∨ h.ttRange e a 64 = false then h.insErr e 3
  else match h.lineMiss e a 64 true with
    | some l => h.stallFor e l true
    | none =>
      match h.readSweep e a with
      | none => h.insErr e 4
      | some s =>
        (h.modAcc e (fun x => { x with entry := some { value := s.value 0, ovr := s.ovr, src := 1 },
                                       opn := if s.settle = 0 then x.opn ||| s.bmask else x.opn })).insEnd e (.act (.sweep s.advance))

/-- A list entry (R232): value, dwell, mask, OP, CL, HOLD, and whether it is invalid. -/
def Hw.listEntry (h : Hw) (e a : Nat) : Int × Nat × Nat × Bool × Bool × Bool × Bool :=
  let w := h.data32 e (a + 4)
  (sx32 (h.data32 e a), bits w 23 0, bits w 27 24, bit w 28, bit w 29, bit w 30, bits w 23 0 == 0 || bit w 31)

/-- LIST (R232): its first entry acts at the step tick. -/
def Hw.insList (h : Hw) (e count a : Nat) : Hw :=
  if a % 8 ≠ 0 ∨ h.ttRange e a (8 * count) = false then h.insErr e 3
  else if count = 0 then h.insErr e 4
  else match h.lineMiss e a 8 true with
    | some l => h.stallFor e l true
    | none =>
      let (v, _, m, op, cl, hold, bad) := h.listEntry e a
      if bad then h.insErr e 4
      else
        (h.modAcc e (fun x => { x with entry := if hold then x.entry else some { value := v, src := 1 },
                                       opn := if op then x.opn ||| m else x.opn })).insEnd e
          (.act (.list { left := count - 1, addr := a, pc := h.pc e, close := if cl then m else 0, opened := if op then m else 0 }))

/-- The number of bytes of a segment's samples (R80). -/
def segBytes (fmt count : Nat) : Nat := match fmt with | 0 => 4 * count | 1 => (2 * count + 3) / 4 * 4 | _ => 8 * count

/-- The address of sample `i` of a segment and its bytes (R80). -/
def PlayS.sampleAt (p : PlayS) (i : Nat) : Nat × Nat :=
  match p.fmt with
  | 0 => (p.addr + 0x20 + 4 * i, 4)
  | 1 => (p.addr + 0x20 + 2 * i, 2)
  | _ => (p.addr + 0x20 + 8 * i, 8)

/-- The number of entries that sample `i` yields, and its raw value (R80, R83). -/
def Hw.segSample (h : Hw) (e : Nat) (p : PlayS) (i : Nat) : Nat × Int :=
  let a := (p.sampleAt i).1
  match p.fmt with
  | 0 => (p.hold + 1, sx32 (h.data32 e a))
  | 1 => (p.hold + 1, sxw 16 (h.engRd e a 2 true) * 2 ^ 16)
  | _ => (max 1 (bits (h.data32 e (a + 4)) 23 0), sx32 (h.data32 e a))

/-- The entry value of a sample (R82). -/
def PlayS.entryVal (p : PlayS) (s : Int) : Int :=
  sat32 ((match p.scale with | some c => rdiv (s * c) (2 ^ 31) | none => s) + p.offset)

/-- The entry that stands next in a pass, with END on its last, and the place after it (R83). -/
def Hw.segEntry (h : Hw) (e : Nat) (p : PlayS) : RefEntry × PlayS :=
  let (n, s) := h.segSample e p p.idx
  let lastRep := decide (n ≤ p.rep + 1)
  let lastEnt := lastRep && decide (p.count ≤ p.idx + 1)
  ({ value := p.entryVal s, ovr := p.ovr, last := lastEnt, src := 2 },
   if lastEnt then { p with on := false, idx := 0, rep := 0, left := p.left.map (· - 1) }
   else if lastRep then { p with idx := p.idx + 1, rep := 0 } else { p with rep := p.rep + 1 })

/-- A segment header (R80). -/
def Hw.readSeg (h : Hw) (e rep a : Nat) : PlayS :=
  let w := fun k => h.data32 e (a + 4 * k)
  { addr := a, pc := h.pc e, count := bits (w 0) 23 0, fmt := bits (w 0) 25 24, hold := bits (w 1) 15 0,
    ovr := if bit (w 1) 16 then some (w 4) else none, scale := if bit (w 1) 17 then some (sx32 (w 2)) else none,
    offset := sx32 (w 3), left := if rep = 0 then none else some rep, on := true }

/-- PLAY (R233): the segment is checked, and its first entry is due at the step tick. -/
def Hw.insPlay (h : Hw) (e rep a : Nat) : Hw :=
  if a % 32 ≠ 0 ∨ h.ttRange e a 32 = false then h.insErr e 3
  else match h.lineMiss e a 32 true with
    | some l => h.stallFor e l true
    | none =>
      let p := h.readSeg e rep a
      let bad := p.count == 0 || p.fmt == 3
      if !bad && !h.ttRange e a (32 + segBytes p.fmt p.count) then h.insErr e 3
      else if bad then h.insErr e 4
      else match h.lineMiss e (p.sampleAt 0).1 (p.sampleAt 0).2 true with
        | some l => h.stallFor e l true
        | none =>
          let (en, p') := h.segEntry e p
          (h.modAcc e (fun x => { x with entry := some en })).insEnd e (.act (.play p'))

/-- The ring lies, aligned to its size, within the installed capacity of a DDR5 channel (R261). -/
def Hw.ringOk (h : Hw) (e : Nat) : Bool :=
  let b := h.get TT_SR_BASE_ADDR e
  b % h.ringSize e == 0 && (ddrChan b).isSome && h.ttRange e b (h.ringSize e)

/-- STREAM (R261, R263): its first entry is due at the step tick. -/
def Hw.insStream (h : Hw) (e n : Nat) : Hw :=
  let l := h.get TT_SR_SIZE_LOG2 e
  if !h.ringOk e then h.insErr e 3
  else if l < 12 ∨ 28 < l then h.insErr e 4
  else (h.modAcc e (fun a => { a with entry := none })).insEnd e
    (.act (.stream { left := if n = 0 then none else some n, stretch := h.flag TT_SR_CFG_RESUME e, pc := h.pc e }))

/-! ### Control (R234, R235, R266) -/

/-- LOOP (R234). -/
def Hw.insLoop (h : Hw) (e count : Nat) : Hw :=
  let x := h.eng e
  if 8 ≤ x.loops.length then h.insErr e 5
  else (h.setStacks e (x.loops ++ [{ remain := count, forever := count == 0, start := h.pc e + 8 }]) x.calls).insNext e

/-- NEXT (R234, R265). -/
def Hw.insNextI (h : Hw) (e : Nat) : Hw :=
  let x := h.eng e
  match x.loops.getLast? with
  | none => h.insErr e 6
  | some l =>
    let h := if l.gap then h.modAcc e (fun a => { a with gaps := a.gaps + 1 }) else h
    let below := x.loops.dropLast
    let l := { l with gap := false }
    if l.forever then (h.setStacks e (below ++ [l]) x.calls).setPc e l.start
    else if 1 < l.remain then (h.setStacks e (below ++ [{ l with remain := l.remain - 1 }]) x.calls).setPc e l.start
    else (h.setStacks e below x.calls).insNext e

/-- CALL (R235). -/
def Hw.insCall (h : Hw) (e a : Nat) : Hw :=
  let x := h.eng e
  if a % 8 ≠ 0 ∨ h.ttRange e a 8 = false then h.insErr e 3
  else if 4 ≤ x.calls.length then h.insErr e 7
  else (h.setStacks e x.loops (x.calls ++ [(h.pc e + 8, x.loops.length)])).setPc e a

/-- RET (R235). -/
def Hw.insRet (h : Hw) (e : Nat) : Hw :=
  let x := h.eng e
  match x.calls.getLast? with
  | none => h.insErr e 8
  | some (a, d) => (h.setStacks e (x.loops.take d) x.calls.dropLast).setPc e a

/-- MARK (R266). -/
def Hw.insMark (h : Hw) (e clr : Nat) : Hw :=
  (if clr = 1 then h.put TT_SR_STAT_MARKED e 0
   else (h.put TT_SR_STAT_MARKED e 1).put TT_SR_MARK_VALUE e (h.get TT_SR_RP_VALUE e)).insNext e

/-- REWIND (R266). -/
def Hw.insRewind (h : Hw) (e count : Nat) : Hw :=
  if !h.flag TT_SR_STAT_MARKED e then h.insErr e 4
  else
    let h := if (h.eng e).rewinding then h
      else (h.put TT_SR_REWIND_REMAIN e count).modE e (fun x => { x with rewinding := true, rewForever := count == 0 })
    let r := h.get TT_SR_REWIND_REMAIN e
    let back := h.put TT_SR_RP_VALUE e (h.get TT_SR_MARK_VALUE e)
    if (h.eng e).rewForever then back.insNext e
    else if 0 < r then (back.put TT_SR_REWIND_REMAIN e (r - 1)).insNext e
    else ((h.put TT_SR_STAT_MARKED e 0).modE e (fun x => { x with rewinding := false })).insNext e

/-! ### Waiting (R237, R238, R249) -/

/-- WAITEV (R249): a trigger latched before the step tick satisfies it at once. -/
def Hw.insWaitev (h : Hw) (e slot timeout disp : Nat) : Hw :=
  let x := h.eng e
  if h.flag TT_EVW_PEND e slot then
    (h.modAcc e (fun a => { a with evs := a.evs ++ [(slot, h.pc e + 8, x.loops.length, x.calls.length)] })).insNext e
  else h.insEnd e (.act (.wait (.event slot timeout (dispTarget (h.pc e) disp) 0)))

/-- The unit is CONNECTED_OPEN or CLOSED, or SIDED in either; with CL its loop is closed (R237). -/
def Hw.connHolds (h : Hw) (u : Nat) (cl : Bool) : Bool := let s := h.loopSt u; s == stCLOSED || (!cl && s == stOPEN)

/-- CONNECT (R237): it acts on the unit's state at its step tick, where its condition is first tested. -/
def Hw.insConnect (h : Hw) (e cl : Nat) : Hw :=
  (h.modAcc e (fun a => { a with conn := some (cl == 1) })).insWait e (.connect (cl == 1) false)

/-- ISOLATE (R238): it acts on the unit's state at its step tick. -/
def Hw.insIsolate (h : Hw) (e : Nat) : Hw := (h.modAcc e (fun a => { a with iso := true })).insWait e .isolate

/-- HALT (R239). -/
def Hw.insHalt (h : Hw) (e : Nat) : Hw := h.modAcc e (fun a => { a with fin := .halt })

/-! ### Junctions (R253 to R255) -/

/-- A JUNCTION's operands are valid: fields its KIND does not use are 0 (R254 and the encodings). -/
def junctionOk (kind stat op bin th slot flag : Nat) : Bool :=
  match kind with
  | 0 => stat == 0 && op == 0 && bin == 0 && th == 0 && flag == 0
  | 1 => slot == 0 && flag == 0
  | 2 => stat == 0 && op == 0 && th == 0 && slot == 0 && flag != 5 && flag != 6
  | _ => false

/-- The compare of a bin statistic (R254). -/
def junctionCmp (op : Nat) (v ta tb : Int) : Bool :=
  match op with
  | 0 => decide (v < ta)
  | 1 => decide (ta < v)
  | 2 => decide (ta ≤ v) && decide (v ≤ tb)
  | _ => decide (v < ta) || decide (tb < v)

/-- The outcome of a JUNCTION, and whether it found no data (R253, R254). -/
def Hw.evalJunction (h : Hw) (e kind stat op bin th neg slot flag : Nat) : Bool × Bool :=
  let u := h.get TT_BIND_UNIT e
  let inv := fun b : Bool => (if neg = 1 then !b else b, false)
  let c := (h.bin u bin).closed
  match kind with
  | 0 => inv (h.flag TT_EVW_PEND e slot)
  | 1 =>
    match c with
    | none => (false, true)
    | some c =>
      if c.count = 0 then (false, true)
      else
        let r := h.get TT_JTH_CFG_RNG e th
        let cv := fun x : Int =>
          if h.flag TT_JTH_CFG_FOLLOW e th || c.qty == 2 then x
          else if c.qty = 0 then h.convV u x (h.capV u r) c.rng else h.convI u x (h.capI u r) c.rng
        inv (junctionCmp op (binStat c stat) (cv (h.code TT_JTA_CODE e th)) (cv (h.code TT_JTB_CODE e th)))
  | _ =>
    match flag with
    | 0 => inv (h.flag U_STATE_COMPLIANCE u)
    | 1 => inv (match c with | some c => decide (0 < c.ovr) | none => false)
    | 2 => inv (match c with | some c => decide (0 < c.under) | none => false)
    | 3 => inv (h.get U_FAULT_FIRST u != 0)
    | 4 => inv (match c with | some c => decide (0 < c.compl) | none => false)
    | _ => inv true

/-- The predictor entry of an address (R255). -/
def Hw.predEntry (h : Hw) (e a : Nat) : Nat := tget (h.eng e).ptab (a / 8 % 64) (h.eng e).pinit

/-- A junction's path taken: a target outside the two regions faults when the junction commits (R255). -/
def Hw.takePath (h : Hw) (e : Nat) (taken : Bool) (target next : Nat) : Hw :=
  if taken then (if h.ttRange e target 8 then h.setPc e target else h.insErr e 3) else h.setPc e next

/-- JUNCTION (R253 to R255), evaluated directly, or predicted where its value is not yet committed when the engine reaches it; on the correct
path after a refuted prediction it waits for its value instead (R34). -/
def Hw.insJunction (h : Hw) (e kind stat op bin th neg slot flag disp : Nat) (predict : Bool) : Hw :=
  if !junctionOk kind stat op bin th slot flag then h.insErr e 4
  else
    let a := h.pc e
    let target := dispTarget a disp
    let sl := if kind = 0 then some slot else none
    if predict && !(kind == 2 && flag == 7) then
      let t := decide (2 ≤ h.predEntry e a)
      let x := h.eng e
      let b := h.engBack e
      let h := (h.put TT_JSTAT_PENDJ e 1).modE e (fun y => { y with pred := some {
        addr := a, taken := t, target := target, cond := .junction kind stat op bin th neg slot flag disp,
        acc := x.acc, loops := x.loops, calls := x.calls, snap := b, parts := x.parts.length }, acc := { y.acc with tag := true } })
      h.takePath e t target (a + 8)
    else
      let (t, em) := h.evalJunction e kind stat op bin th neg slot flag
      let h := h.modAcc e (fun x => { x with juncs := x.juncs ++ [(a, t, sl)], empty := x.empty || em })
      h.takePath e t target (a + 8)

/-! ### A step -/

/-- An engine executes a step: it is RUNNING, its next step tick is the next tick, no line is wanting, and nothing is in play. -/
def Hw.stepping (h : Hw) (e : Nat) : Bool :=
  let x := h.eng e
  h.get TT_STAT_STATE e == 1 && decide (x.togo ≤ 1) && x.ready.isNone && x.need.isNone &&
    (match x.act with
     | .none => true
     | .sweep s => decide (s.total ≤ s.j)
     | .list l => l.left == 0
     | .play p => !p.on && p.left == some 0
     | _ => false) &&
    (match x.acc.fin with | .running => true | _ => false)

/-- One instruction executed (R217). -/
def Hw.doTIns (h : Hw) (e : Nat) (i : TIns) (predict : Bool) : Hw :=
    let h' := h.modAcc e (fun a => { a with count := a.count + 1 })
    match i with
    | .halt => h'.insHalt e
    | .set ovr rsh rate value => h'.insSet e ovr rsh rate value
    | .sweep a => h'.insSweep e a
    | .list count a => h'.insList e count a
    | .play rep a => h'.insPlay e rep a
    | .stream n => h'.insStream e n
    | .dwell n => h'.insDwell e n
    | .openB m => h'.insOpen e m
    | .closeB m => h'.insClose e m
    | .mode mo law => h'.insMode e mo law
    | .range ir vr ar si sv sa w => h'.insRange e ir vr ar si sv sa w
    | .junction k st op b th ng sl fl d => h'.insJunction e k st op b th ng sl fl d predict
    | .loop c => h'.insLoop e c
    | .next => h'.insNextI e
    | .mark c => h'.insMark e c
    | .rewind c => h'.insRewind e c
    | .call a => h'.insCall e a
    | .ret => h'.insRet e
    | .waitev s t d => h'.insWaitev e s t d
    | .signal ev d => h'.insSignal e ev d
    | .therm s w => h'.insTherm e s w
    | .connect c => h'.insConnect e c
    | .isolate => h'.insIsolate e

/-- A JUNCTION that waits: for the confirmation of the prediction under way, or for its value where the path runs without prediction (R34,
R255). -/
def Hw.juncWaits (h : Hw) (e : Nat) (i : TIns) (predict : Bool) : Bool :=
  match i with
  | .junction kind _ _ _ _ _ _ flag _ => (h.eng e).pred.isSome || (predict && (h.eng e).noPred && !(kind == 2 && flag == 7))
  | _ => false

/-- One instruction executed: the 65th of a step faults, with an error of its own where that is the lower (R216, R447). One that waits for a
line or for a prediction has not been executed yet. -/
def Hw.execTIns (h : Hw) (e : Nat) (i : TIns) (predict : Bool) : Hw :=
  if h.juncWaits e i predict then h
  else
    let h' := h.doTIns e i predict
    if (h'.eng e).need.isSome then h'.modAcc e (fun a => { a with count := (h.eng e).acc.count })
    else if (h.eng e).acc.count < 64 then h'
    else match (h'.eng e).acc.fin with
      | .err c => h.insErr e c
      | _ => h.insErr e 9

/-- The closes due at the step tick of the sweep or list that has ended (R231, R232). -/
def dueCloses : Act → Nat
  | .sweep s => s.bmask
  | .list l => l.close
  | _ => 0

/-- A step begun: its state is kept, and the closes due at its tick join it. -/
def Hw.stepBegin (h : Hw) (e : Nat) : Hw :=
  if (h.eng e).back.isNone then
    let b := h.engBack e
    h.modE e (fun x => { x with back := some b, parts := [], noPred := false, acc := { x.acc with close := x.acc.close ||| dueCloses x.act } })
  else h

/-- The next instruction of a step, whatever it is: fetched, decoded and executed. -/
def Hw.stepIns (h : Hw) (e : Nat) (predict : Bool) : Hw :=
  match h.fetchIns e with
  | (some l, _, _) => h.stallFor e l false
  | (none, 0, i) => h.execTIns e i predict
  | (none, c, _) => h.insErr e c

/-- A given instruction executed where the step's next instruction is that one (R217). -/
def Hw.stepOne (h : Hw) (e : Nat) (i : TIns) (predict : Bool) : Hw :=
  if h.stepping e then
    let h := h.stepBegin e
    match h.fetchIns e with
    | (some l, _, _) => h.stallFor e l false
    | (none, c, j) => if c = 0 ∧ j = i then h.execTIns e i predict else h
  else h

/-- The instructions of a step up to its end, at most `n` of them. -/
def Hw.stepRun (h : Hw) (e : Nat) : Nat → Hw
  | 0 => h
  | n + 1 => if h.stepping e then ((h.stepBegin e).stepIns e false).stepRun e n else h

/-- The unit's queue is empty, so that the entry due at the next tick may be pushed (R219). -/
def Hw.pushOk (h : Hw) (u : Nat) : Bool := (h.unit u).ref.q.isEmpty

/-- An entry pushed by an engine; pushes are ignored while the ramp to zero is active (R88, R219), and the queue stops a tagged one (R78). -/
def Hw.engPush (h : Hw) (u : Nat) (r : RefEntry) : Hw :=
  if (h.unit u).safe.ramp then h else if r.tag then h.specBlock u else h.modU u (fun x => { x with ref := { x.ref with q := x.ref.q ++ [r] } })

/-- A step whose last instruction has been executed is prepared for its tick: its entry is pushed last (R219). A step that ends
in a halt or an error makes no effect but that. Where the step was late and its entry stands in the queue, that one is not pushed again
(R220). The entry of a step with a wait that may hold at its tick is chosen there. -/
def Hw.stepStage (h : Hw) (e : Nat) : Hw :=
  let x := h.eng e
  let u := h.get TT_BIND_UNIT e
  match x.acc.fin with
  | .running => h
  | _ =>
    if x.pred.isSome then h
    else
      let a := match x.acc.fin with | .halt => { x.acc with entry := none } | .err _ => { x.acc with entry := none } | _ => x.acc
      let h := h.modE e (fun x => { x with acc := {}, ready := some a, kept := false })
      match a.entry with
      | some r =>
        let r := { r with tag := a.tag }
        let done := fun (h : Hw) => h.modE e (fun x => { x with ready := some { a with entry := none } })
        if !x.parts.isEmpty then (if x.kept then h.dropEng u else h)
        else if x.kept ∧ (h.unit u).ref.q.contains r then done h
        else
          let h := if x.kept then h.dropEng u else h
          if x.togo = 1 ∧ h.pushOk u then done (h.engPush u r) else h
      | none => if x.kept then h.dropEng u else h

end Sys2Proof.Machine
end

