-- ==== Sys2Proof/Machine/Engine.lean ====
section
/-! DEFINITION. The timetable engine over time (R210 to R222, R246 to R251, R255 to R267): commands, the effects of a step at its
tick, late steps, what it plays between steps, waits, watch slots, jumps. -/

namespace Sys2Proof.Machine

/-- The conversion of a sensor for a requester, as a number of the aux arbiter: kinds 1 supervisor pass, 2 emergency, 3 host,
4 compensation, 5 calibration, 6 + e timetable engine e (R345). -/
def auxWho (kind sensor : Nat) : Nat := kind * 16 + sensor

/-- The step tick shown, `togo` periods after a tick. -/
def Hw.setS (h : Hw) (e n : Nat) : Hw :=
  h.put TT_STEP_TICK e (n + (h.eng e).togo * h.period (h.get TT_BIND_UNIT e))

/-- An engine's state code and activity set. -/
def Hw.engState (h : Hw) (e s : Nat) : Hw := h.put TT_STAT_STATE e s

/-- The engine faults at tick `n` with an ERR (R216): as a halt, then ONFAULT. -/
def Hw.engFault (h : Hw) (e code n : Nat) : Hw :=
  let u := h.get TT_BIND_UNIT e
  let pc := h.pc e
  let h := (h.haltEng e (h.get TT_STAT_WHY e) n).setPc e pc
  let h := (h.engState e 5).put TT_STAT_ERR e code
  if h.flag TT_CFG_ONFAULT e then h.isolateReq u n (n + (h.dcfg u).tsafe) 4 false else h

/-! ### Commands (R210, R213, R214) -/

/-- A TT_BIND write of a unit and VALID (R210). A consist that is not coupled is judged by U_MEMBER[0], and not again at COUPLE: the model's
choice (notes/assumptions/80.md). -/
def Hw.ttBind (h : Hw) (e unit valid : Nat) : Hw :=
  let s := h.get TT_STAT_STATE e
  let d := e / 8
  let onDie := if isChan unit then ownDie unit == d
    else if isConsist unit then
      (if h.isCoupled unit then h.dieOf unit == d
       else h.flag U_MEMBER_VALID unit 0 && !h.flag U_MEMBER_REMOTE unit 0 && h.dieOf (h.get U_MEMBER_UNIT unit 0) == d)
    else false
  let taken := (List.range 8).any (fun k => d * 8 + k != e && h.flag TT_BIND_VALID (d * 8 + k) && h.get TT_BIND_UNIT (d * 8 + k) == unit)
  if (s == 0 || s == 4 || s == 5) && (valid == 0 || (onDie && !taken)) then
    (h.put TT_BIND_UNIT e unit).put TT_BIND_VALID e valid
  else h.put TT_STAT_BIND_ERR e 1

/-- The RESULT of a START examined at tick `s` (R214). -/
def Hw.startResult (h : Hw) (e s : Nat) : Nat :=
  let u := h.get TT_BIND_UNIT e
  let st := h.get TT_STAT_STATE e
  if !h.flag TT_BIND_VALID e || (isConsist u && !h.isCoupled u) then 1
  else if h.isMember u then 2
  else if st == 1 || st == 2 || st == 3 then 3
  else if h.flag TT_CFG_AT e && decide (h.get TT_START_AT_TICK e < s + h.period u) then 4
  else if h.get TT_START_PC_ADDR e % 8 ≠ 0 ∨ h.ttRange e (h.get TT_START_PC_ADDR e) 8 = false then 5
  else 0

/-- A START examined at tick `s` (R214, R248, R249, R255): with AT the engine waits for TT_START_AT; the rest of this tick counts it down
once. -/
def Hw.startExam (h : Hw) (e s : Nat) : Hw :=
  let r := h.startResult e s
  let h := (h.put TT_CMD_RESULT e r).put TT_CMD_BUSY e 0
  if r ≠ 0 then h
  else
    let u := h.get TT_BIND_UNIT e
    let p := h.period u
    let at_ := if h.flag TT_CFG_AT e then some (h.get TT_START_AT_TICK e) else none
    let h := (h.put TT_STAT_ERR e 0).put TT_STAT_WHY e 0
    let h := h.modE e (fun x => { tgtLow := x.tgtLow, slotW := x.slotW, thermOut := x.thermOut, pendW := x.pendW,
                                  pinit := h.get TT_JCFG_PINIT e, togo := 2, startAt := at_ })
    let h := h.setStacks e [] []
    let h := h.each (List.range 8) (fun h k => (h.put TT_EVW_PEND e 0 k).put TT_EVW_REC e 0 k)
    let h := (h.setPc e (h.get TT_START_PC_ADDR e)).put TT_STAT_OWNS e 1
    (h.engState e 1).put TT_STEP_TICK e (match at_ with | some t => ceilTo p t | none => s + p)

/-- RESET: IDLE from HALTED or FAULTED, ignored otherwise (R213). -/
def Hw.resetExam (h : Hw) (e : Nat) : Hw :=
  let s := h.get TT_STAT_STATE e
  let h := h.put TT_CMD_BUSY e 0
  if s == 4 || s == 5 then h.engState e 0 else h

/-- A TT_CMD write: 1 START, 2 STOP, 3 RESET (R214, R215). An engine without a unit that has loop ticks is examined at once. -/
def Hw.ttCmd (h : Hw) (e cmd : Nat) : Hw :=
  if h.flag TT_CMD_BUSY e then h.put TT_CMD_RESULT e 6
  else
    let h := h.put TT_CMD_CMD e cmd
    if h.flag TT_BIND_VALID e && h.runs (h.get TT_BIND_UNIT e) then
      (h.put TT_CMD_BUSY e 1).modE e (fun x => { x with cmd := some (cmd, false) })
    else match cmd with
      | 1 => h.put TT_CMD_RESULT e 1
      | 3 => h.resetExam e
      | _ => h

/-- The command that waits, at tick `n` (R214, R215). -/
def Hw.engCmd (h : Hw) (e n : Nat) : Hw :=
  match (h.eng e).cmd with
  | some (c, true) =>
    let h := h.modE e (fun x => { x with cmd := none })
    match c with
    | 1 => h.startExam e n
    | 2 => (h.put TT_CMD_BUSY e 0).haltEng e 2 n
    | 3 => h.resetExam e
    | _ => h.put TT_CMD_BUSY e 0
  | _ => h

/-! ### Watch slots (R248 to R251) -/

/-- A slot is waited on (R249). -/
def Hw.waitedOn (h : Hw) (e k : Nat) : Bool :=
  h.get TT_STAT_STATE e == 2 && (match (h.eng e).act with | .wait (.event s _ _ _) => s == k | _ => false)

/-- A jump request (R256). -/
def Hw.jumpRequest (h : Hw) (e : Nat) : Hw :=
  let s := h.get TT_STAT_STATE e
  if !h.flag TT_JUMP_TGT_VALID e then h.put TT_JUMP_RESULT e 1
  else if h.flag TT_JUMP_PEND e then h.put TT_JUMP_RESULT e 2
  else if !(s == 1 || s == 2 || s == 3) then h.put TT_JUMP_RESULT e 3
  else ((h.put TT_JUMP_PEND e 1).put TT_JUMP_REQ e 1).modE e (fun x => { x with jump := some false })

/-- The engine returns to the start of the step that it prepares (R220). -/
def Hw.engRewind (h : Hw) (e : Nat) : Hw :=
  match (h.eng e).back with
  | none => h
  | some b =>
    (h.engRegs e b).modE e (fun x => { x with act := b.act, acc := b.acc, back := none, parts := [], noPred := false,
                                              need := if x.parts.isEmpty then x.need else none })

/-- A watch slot's event that the overtaken WAITEV would have consumed at the last tick stays consumed (R260). -/
def Hw.waitOver (h : Hw) (e : Nat) : Hw :=
  match (h.eng e).act with
  | .wait (.event k _ _ _) => if h.waitedOn e k then h.modE e (fun x => { x with seenNow := x.seenNow.filter (· != k) }) else h
  | _ => h

/-- The engine's present activity is left for a path that begins at the next tick J (R251, R259): what it pushed is discarded, what a step in
preparation did is undone, the stacks are cut; at J bins close, whether or not the target's step is late. -/
def Hw.redirect (h : Hw) (e addr ld cd close : Nat) (rest jumping : Bool) : Hw :=
  let u := h.get TT_BIND_UNIT e
  let h := (((h.dropEng u).engRewind e).waitOver e)
  let x := h.eng e
  let h := h.setStacks e (x.loops.take ld) (x.calls.take cd)
  let h := (h.setPc e addr).put TT_JSTAT_PENDJ e 0
  let h := h.modE e (fun y => { y with act := .none, ready := none, acc := {}, back := none, parts := [], noPred := false, pred := none,
                                       openIn := none, togo := 1, need := none, missing := false, sflags := 0, jumping := jumping,
                                       segEnd := true, jx := some (close, rest), startAt := none, kept := false })
  (h.engState e 1).setS e (h.unit u).clk.last

/-- The next tick is a jump point of the engine (R257). -/
def Hw.jumpPoint (h : Hw) (e : Nat) : Bool :=
  let x := h.eng e
  h.flag TT_JUMP_BREAK e ||
    (match x.cut with
     | some c => c.2.2
     | none =>
       match x.act with
       | .sweep _ | .list _ => x.togo == 1
       | .play p => !p.on && x.togo == 1
       | .stream _ => x.segEnd
       | _ => true)

/-- The closes of a jump (R259): those due of the segment that has ended, or under BREAK every bin that the interrupted point
or entry opened. -/
def Hw.jumpCloses (h : Hw) (e : Nat) : Nat :=
  let x := h.eng e
  match x.cut with
  | some c => c.2.1
  | none =>
    match x.act with
    | .sweep s => if x.togo ≠ 1 ∧ x.openIn.isSome then 0 else s.bmask
    | .list l => if x.togo = 1 then l.close else l.opened
    | _ => 0

/-- A slot's event, seen at the last tick, on a slot that is not waited on (R250, R251). -/
def Hw.slotPolicy (h : Hw) (e k : Nat) : Hw :=
  let h := h.modE e (fun x => { x with seenNow := x.seenNow.filter (· != k) })
  let ovl := fun (h : Hw) => h.inc TT_EV_OVERLAP_COUNT e
  match h.get TT_EVW_POLICY e k with
  | 0 => ovl h
  | 1 => if h.flag TT_EVW_PEND e k then ovl h else h.put TT_EVW_PEND e 1 k
  | 2 =>
    match tfind (h.eng e).recs k with
    | none => ovl h
    | some (a, ld, cd) =>
      let h0 := h.engRewind e
      let x := h0.eng e
      if x.loops.length < ld ∨ x.calls.length < cd ∨ x.jumping ∨ x.restart.isSome then ovl h
      else
        let cut := (h0.engBack e, h0.jumpCloses e, h0.jumpPoint e)
        (h.redirect e a ld cd 15 true false).modE e (fun x => { x with restart := some k, cut := some cut })
  | _ => h.jumpRequest e

/-- WATCH_EVENT_SEEN (R250). -/
def Hw.watchSeen (h : Hw) (e k : Nat) : Hw :=
  let s := h.get TT_STAT_STATE e
  if (s == 1 || s == 2 || s == 3) && (h.eng e).seenNow.contains k && !h.waitedOn e k then h.slotPolicy e k else h

/-- The slots at a tick: writes of slots take effect, and then the events since the last tick are seen (R246, R248). -/
def Hw.slotTick (h : Hw) (e : Nat) : Hw :=
  let l := (h.eng e).slotW
  let h := h.each (l.filter (fun p => p.2.2)) (fun h p =>
    let k := p.1; let v := p.2.1
    let ch := bits v 8 0 != h.get TT_EVW_EV e k || bits v 9 9 != h.get TT_EVW_EN e k
    let h := ((h.put TT_EVW_EV e (bits v 8 0) k).put TT_EVW_EN e (bits v 9 9) k).put TT_EVW_POLICY e (bits v 11 10) k
    if ch then h.put TT_EVW_PEND e 0 k else h)
  let now := (List.range 8).filter (fun k => h.flag TT_EVW_EN e k && (h.eng e).seen.contains (h.get TT_EVW_EV e k))
  h.modE e (fun x => { x with slotW := l.filter (fun p => !p.2.2), seenNow := now, seen := [] })

/-! ### The guard instant (R219, R220, R255, R263) -/

/-- Something is due from the engine at the next tick: a step, a point, an entry of a list, a pass. -/
def Hw.engDue (h : Hw) (e : Nat) : Bool :=
  let x := h.eng e
  h.get TT_STAT_STATE e == 1 && decide (x.togo ≤ 1) &&
    (match x.act with | .play p => !p.on | .stream _ => false | .wait _ => false | _ => true)

/-- WP: the low three bits are ignored (R261). -/
def Hw.srWpOf (h : Hw) (e : Nat) : Nat := h.get TT_SR_WP_VALUE e / 8 * 8

/-- The stream entry at RP: present, BADENT, and its words (R262, R263). -/
def Hw.streamEntry (h : Hw) (e : Nat) : Bool × Bool × Nat × Nat :=
  let p := h.get TT_SR_RP_VALUE e
  let wp := h.srWpOf e
  let a := h.get TT_SR_BASE_ADDR e + p % h.ringSize e
  let w0 := h.rd32 a
  let w1 := h.rd32 (a + 4)
  let have_ := decide (0 < sx32 (wp + (2 ^ 32 - p)))
  let lap := bits w1 31 16 == (p / h.ringSize e) % 65536
  let bad := bits w1 15 2 != 0
  (have_ && lap && !bad, have_ && bad, w0, w1)

/-- The engine plays a stream whose entry is due at the next tick. -/
def Hw.streamDue (h : Hw) (e : Nat) : Bool :=
  let x := h.eng e
  h.get TT_STAT_STATE e == 1 &&
    (match x.act with
     | .stream _ => true
     | _ => (match x.ready with
        | some a => x.togo == 1 && (match a.fin with | .act (.stream _) => true | _ => false)
        | none => false))

/-- A stream that the engine found no longer missing plays on (R264). -/
def Hw.streamGo (h : Hw) (e : Nat) : Hw :=
  match (h.eng e).act with
  | .stream s =>
    if h.get TT_STAT_STATE e == 3 && s.stalled && s.found then
      (h.modE e (fun x => { x with act := .stream { s with stalled := false, found := false } })).engState e 1
    else h
  | _ => h

/-- An error of what the engine plays, due at the next tick, at the instruction that plays (R216). -/
def Hw.playErr (h : Hw) (e code : Nat) : Hw :=
  let h := match (h.eng e).act with | .list l => h.setPc e l.pc | .play p => h.setPc e p.pc | .stream s => h.setPc e s.pc | _ => h
  h.modE e (fun x => { x with ready := some { fin := .err code } })

/-- What the engine plays fails at the next tick. -/
def Hw.playFails (h : Hw) (e : Nat) : Bool :=
  match (h.eng e).ready with | some a => (match a.fin with | .err _ => true | _ => false) | none => false

/-- The stream's entry of the next tick judged at its guard instant and pushed where it is present (R219, R263). A stalled stream's is
judged too: found present, the stream plays on from the tick after (R264). -/
def Hw.streamGuard (h : Hw) (e : Nat) : Hw :=
  let h := h.streamGo e
  let (ok, bad, w0, w1) := h.streamEntry e
  let h' := if bad then h.put TT_SR_STAT_BADENT e 1 else h
  let stalled := match (h.eng e).act with | .stream s => h.get TT_STAT_STATE e == 3 && s.stalled | _ => false
  if stalled then
    h'.modE e (fun x => { x with missing := !ok, sflags := 0, act := match x.act with | .stream s => .stream { s with found := ok } | a => a })
  else if !h.streamDue e || h.playFails e then h
  else
    let u := h.get TT_BIND_UNIT e
    let p := h.get TT_SR_RP_VALUE e
    let a := h.get TT_SR_BASE_ADDR e + p % h.ringSize e
    let h := h'
    let r : RefEntry := { value := sx32 w0, last := bit w1 0, src := 3 }
    let seen := fun (x : EngS) => { x with missing := false, sflags := 4 + bits w1 1 0 }
    if !ok then h.modE e (fun x => { x with missing := true, sflags := 0 })
    else match h.lineMiss e a 8 true with
      | some l => if h.ttRange e a 8 then h.stallFor e l true else h.playErr e 3
      | none =>
        if !(h.eng e).parts.isEmpty then
          h.modE e (fun x => seen { x with ready := x.ready.map (fun s => { s with entry := some r }) })
        else if h.pushOk u then (h.engPush u r).modE e seen
        else h.modE e (fun x => { x with missing := false, sflags := 0 })

/-- The next entry of the pass in play, pushed at the guard instant of its tick (R83, R233). -/
def Hw.playPush (h : Hw) (e : Nat) : Hw :=
  let u := h.get TT_BIND_UNIT e
  match (h.eng e).act with
  | .play p =>
    if p.on && h.get TT_STAT_STATE e == 1 && !h.playFails e then
      let a := p.sampleAt p.idx
      match h.lineMiss e a.1 a.2 true with
      | some l => if h.ttRange e a.1 a.2 then h.stallFor e l true else h.playErr e 3
      | none =>
        if h.pushOk u then
          let (r, p') := h.segEntry e p
          (h.engPush u r).modE e (fun x => { x with act := .play p', togo := if p'.on then 1 else 2 })
        else h
    else h
  | _ => h

/-- A prediction unconfirmed at the guard instant (R32, R255): it is counted, the work derived from it is discarded, and with it a stall for a
line of the predicted path. -/
def Hw.predLate (h : Hw) (e : Nat) : Hw :=
  let x := h.eng e
  if x.pred.isNone then h
  else
    let h := (h.inc DIE_SPEC_CNT_COUNT (e / 8) 1).put TT_JSTAT_PENDJ e 0
    let h := if x.need.isSome then h.engState e 1 else h
    (h.modE e (fun x => { x with pred := none, need := none })).engRewind e

/-- The engine at a guard instant of its unit (R214, R219, R220, R255, R258): commands and jump requests that have arrived count
from here, an unconfirmed prediction is discarded, and a step that is not complete is late. Answers whether a step due is late. -/
def Hw.engGuard (h : Hw) (e : Nat) (late : Bool) : Bool × Hw :=
  let u := h.get TT_BIND_UNIT e
  let h := h.each (h.eng e).seenNow (fun h k => h.watchSeen e k)
  let h := h.modE e (fun x => { x with cmd := x.cmd.map (fun c => (c.1, true)), jump := x.jump.map (fun _ => true) })
  let h := h.predLate e
  let x := h.eng e
  if h.engDue e && !x.parts.isEmpty then
    let h := h.modE e (fun x => { x with canPush := h.pushOk u })
    (late, if late then h else h.streamGuard e)
  else if h.engDue e then
    let h := match x.ready with
      | some a => (match a.entry with
        | some r => if !late && x.togo == 1 && h.pushOk u then (h.engPush u { r with tag := a.tag }).modE e (fun x => { x with ready := some { a with entry := none } }) else h
        | none => h)
      | none => h
    let bad := late || (match (h.eng e).ready with | some a => a.entry.isSome | none => true)
    (bad, if bad then h.dropEng u else h.streamGuard e)
  else (false, (h.streamGuard e).playPush e)

/-! ### A tick (R215 to R222) -/

/-- A late step (R220): nothing of it takes place, the engine returns to the start of the step, and S is one period later. An entry whose
push was decided after the guard instant stays in the queue. -/
def Hw.engLate (h : Hw) (e n : Nat) : Hw :=
  let u := h.get TT_BIND_UNIT e
  let kept := (h.eng e).back.isSome && (h.unit u).ref.q.any (fun r => r.src != 0)
  let h := h.engRewind e
  let h := h.modE e (fun x => { x with ready := none, pred := none, parts := [], need := none, togo := 1, missing := false, sflags := 0, kept := kept })
  let h := ((h.put TT_JSTAT_PENDJ e 0).inc TT_LATE_COUNT e).inc TT_SLIP_COUNT e
  (h.put TT_STAT_SLIPPED e 1).setS e n

/-- A tick `n` that passes while the engine is STALLED (R220): its step is late in the same way, to be executed again from its start. -/
def Hw.engStalled (h : Hw) (e n : Nat) : Hw :=
  (((h.engRewind e).modE e (fun x => { x with ready := none, missing := false, sflags := 0 })).slipStalled e).setS e n

/-- The junctions of a step committed at its tick (R254, R255). -/
def Hw.juncCommit (h : Hw) (e u : Nat) (a : StepAcc) : Hw :=
  let h := h.each a.juncs (fun h j =>
    let c := h.predEntry e j.1
    let h := h.modE e (fun x => { x with ptab := tset x.ptab (j.1 / 8 % 64) (if j.2.1 then min 3 (c + 1) else c - 1) })
    let h := h.inc TT_JCOUNT_COUNT e
    let h := if j.2.1 then h.inc TT_JTAKEN_COUNT e else h
    let h := match j.2.2 with | some k => h.put TT_EVW_PEND e 0 k | none => h
    h.capHit u (fun k g => k == 4 && (g == 0 || (g == 1 && j.2.1) || (g == 2 && !j.2.1))))
  if a.empty then h.put TT_JSTAT_EMPTY e 1 else h

/-- The junctions, latched waits and gap passes of a step committed at its tick (R249, R255, R265). -/
def Hw.stepCommit (h : Hw) (e u : Nat) (a : StepAcc) : Hw :=
  let h := h.juncCommit e u a
  let h := h.each a.evs (fun h v =>
    let h := (h.put TT_EVW_PEND e 0 v.1).put TT_EVW_REC e 1 v.1
    h.modE e (fun x => { x with recs := tset x.recs v.1 v.2 }))
  if a.gaps = 0 then h else (h.put TT_SR_STAT_GAPITER e 1).put TT_SR_GAPITER_COUNT e (h.get TT_SR_GAPITER_COUNT e + a.gaps)

/-- What a RESTART or a jump does at its tick `n` (R251, R259): bins close, and the event counts as consumed or the request is done. -/
def Hw.jumpLand (h : Hw) (e n : Nat) : Hw :=
  match (h.eng e).jx with
  | none => h
  | some (m, rest) =>
    let h := (h.modE e (fun x => { x with jx := none, cut := none })).closeBins (h.get TT_BIND_UNIT e) m n rest
    if rest then (h.inc TT_RESTARTS_COUNT e).modE e (fun x => { x with restart := none })
    else (((h.put TT_JUMP_PEND e 0).put TT_JUMP_REQ e 0).put TT_JUMP_RESULT e 0).modE e (fun x => { x with jumping := false, jump := none })

/-- MODE at the step tick (R227): LCK writes where the tick found the loop open, SWITCH where it found it closed (R124). Answers whether the
load was refused. -/
def Hw.engMode (h : Hw) (u mo law : Nat) (cl : Bool) : Bool × Hw :=
  let busy := h.get U_LOOP_CMD_BUSY u
  if cl then
    let ok := h.lawImageOk u law
    (!ok, (h.loopCmd u 3 mo law).put U_LOOP_CMD_BUSY u busy)
  else
    let same := h.get U_MODE_MODE u == mo
    let h := h.put U_MODE_MODE u mo
    let h := if same then h else h.recalcSp u
    if law = h.get U_MODE_LAW u then (false, h)
    else if h.lawImageOk u law then (false, (h.put U_MODE_LAW u law).copyLaw u law)
    else (true, h.put U_LOOP_CMD_RESULT u 4)

/-- What of a RANGE's writes sets a condition on the ranges (R228): a write that is ignored sets none. -/
def Hw.rangeCond (h : Hw) (u : Nat) (ar : Option Nat) (i v : Option Nat) : Option Nat × Option Nat :=
  let cl := h.closed u
  let fi := h.get U_MODE_MODE u == 1
  let auto := !h.hasFoll u && (ar.getD (h.get U_RANGE_SEL_AR_EN u)) == 1
  (if cl && (fi || auto) then none else i, if cl then none else v)

/-- Why a CONNECT halts the engine at its step tick, 0 where it does not (R215, R237). -/
def Hw.connHalt (h : Hw) (u : Nat) (a : StepAcc) : Nat :=
  let s := h.st u
  if a.conn.isNone then 0
  else if s == stSAFING || s == stFAULTED then (if bit (h.get U_FAULT_MAP_MAP u) 8 then 5 else 4)
  else if s == stISOLATED && h.connResult u != 0 then 3
  else 0

/-- The requests of a step to the Interlocking, at its tick (R237, R238): a connect, an isolation. -/
def Hw.engAsk (h : Hw) (u n : Nat) (a : StepAcc) : Hw :=
  let h := if a.conn.isSome && h.st u == stISOLATED then (h.connReq u n).2 else h
  if a.iso && !(h.st u == stISOLATED || h.faultIso u) then h.isolateReq u n (n + (h.dcfg u).tsafe) 4 true else h

/-- The CLOSE of a CONNECT with CL at a tick at which the unit is CONNECTED_OPEN (R237). -/
def Hw.engClose (h : Hw) (u : Nat) : Hw :=
  if h.loopSt u == stOPEN && h.st u != stCHECKING then (h.loopCmd u 1 0 0).put U_LOOP_CMD_BUSY u (h.get U_LOOP_CMD_BUSY u) else h

/-- The load of a step's MODE is refused (R106, R127). -/
def Hw.modeBad (h : Hw) (u : Nat) (a : StepAcc) (cl : Bool) : Bool :=
  match a.mode with | some (_, law) => !h.lawImageOk u law && (cl || law != h.get U_MODE_LAW u) | none => false

/-- The effects of a step that precede the loop commands of its tick, in the order of R218 and R124; `cl`: the tick found the loop closed. Requests
to the Interlocking come first; with the loop open, MODE writes LCK fields and loads a law set. A CONNECT that halts does so before every
other effect (R215); an erring step commits its junctions alone (R255). The commit port stops a tagged step (R33). -/
def Hw.engApply1 (h : Hw) (e n : Nat) (a : StepAcc) (cl : Bool) : Hw :=
  let u := h.get TT_BIND_UNIT e
  let why := h.connHalt u a
  if a.tag then (h.modE e (fun x => { x with ready := none })).specBlock u
  else match a.fin with
  | .halt => (h.stepCommit e u a).haltEng e 1 n
  | .err c => (h.juncCommit e u a).engFault e c n
  | _ =>
    if why ≠ 0 then h.haltEng e why n
    else
    let h := (h.stepCommit e u a).closeBins u a.close n a.rest
    if h.modeBad u a cl then
      let h := match a.mode with | some (mo, law) => (h.engMode u mo law cl).2 | none => h
      (h.setPc e a.modePc).engFault e 11 n
    else
      let h := h.engAsk u n a
      match a.mode with | some (mo, law) => if cl then h else (h.engMode u mo law cl).2 | none => h

/-- The effects of a step among and after the loop commands of its tick (R124, R218): with the loop closed MODE switches; a CONNECT with CL
closes; then RANGE, and the bins open. A waiting engine's CONNECT closes here too (R237). -/
def Hw.engLoops (h : Hw) (e n : Nat) (cl : Bool) : Hw :=
  let u := h.get TT_BIND_UNIT e
  let x := h.eng e
  if h.get TT_STAT_STATE e == 2 then (match x.act with | .wait (.connect true _) => h.engClose u | _ => h)
  else if h.get TT_STAT_STATE e == 1 then
    match x.ready with
    | none => h
    | some a =>
      match a.fin with
      | .err _ => h
      | _ =>
        let h := match a.mode with | some (mo, law) => if cl then (h.engMode u mo law cl).2 else h | none => h
        let h := if a.conn == some true then h.engClose u else h
        let cond := h.rangeCond u a.rA a.rI a.rV
        let h := if a.rI.isSome || a.rV.isSome || a.rA.isSome then h.rangeWrite u n a.rI a.rV a.rA else h
        let fin := match a.fin with
          | .act (.wait (.range i v)) => .act (.wait (.range (if cond.1.isSome then i else none) (if cond.2.isSome then v else none)))
          | f => f
        (h.modE e (fun x => { x with ready := some { a with fin := fin } })).openBins u a.opn n
  else h

/-- The bins that open SETTLE periods after a point's first tick (R231). -/
def Hw.engOpens (h : Hw) (e n : Nat) : Hw :=
  match (h.eng e).openIn with
  | none => h
  | some (k, m) =>
    if k ≤ 1 then (h.openBins (h.get TT_BIND_UNIT e) m n).modE e (fun x => { x with openIn := none })
    else h.modE e (fun x => { x with openIn := some (k - 1, m) })

/-- A condition that a waiting engine waits for holds (R217, R228, R236 to R238, R249). -/
def Hw.waitHolds (h : Hw) (e : Nat) (c : WaitC) : Bool :=
  let u := h.get TT_BIND_UNIT e
  match c with
  | .connect cl _ => h.connHolds u cl
  | .isolate => h.st u == stISOLATED
  | .range i v => !h.rngBusy u &&
      (match i with | some i => h.irng u == i | none => true) && (match v with | some v => h.vrng u == v | none => true)
  | .therm => (h.eng e).thermDone
  | .event k t _ n => (h.eng e).seenNow.contains k && (t == 0 || decide (n ≤ t))

/-- A waiting engine goes on at the tick after the last (R217). -/
def Hw.waitEnd (h : Hw) (e : Nat) : Hw :=
  let u := h.get TT_BIND_UNIT e
  let h := h.modE e (fun x => { x with act := .none, togo := 1, acc := {}, back := none, parts := [], ready := none, waitOk := false })
  (h.engState e 1).setS e (h.unit u).clk.last

/-- The effects of a step after the pop of its tick: THERM and SIGNAL requests, and what the step begins (R217, R218). -/
def Hw.engApply2 (h : Hw) (e n : Nat) : Hw :=
  match (h.eng e).ready with
  | none => h
  | some a =>
    let u := h.get TT_BIND_UNIT e
    let h := h.modE e (fun x => { x with ready := none, back := none, parts := [], waitOk := false })
    let h := h.each a.therm (fun h s =>
      if (h.eng e).thermOut then h.put TT_THERM_RES_DROP e 1
      else (h.modE e (fun x => { x with thermOut := true, thermDone := false })).tokReq (.aux (e / 8))
        { who := auxWho (6 + e % 8) s, rank := 4 })
    let h := h.each a.signals (fun h p => h.evRaise p.1 (n + p.2))
    let go := fun (h : Hw) (act : Act) (togo : Nat) => (h.modE e (fun x => { x with act := act, togo := togo })).setS e n
    match a.fin with
    | .dwell k => go h .none k
    | .act (.sweep s) =>
      go (h.modE e (fun x => { x with openIn := if s.settle = 0 ∨ s.bmask = 0 then none else some (s.settle, s.bmask) })) (.sweep s) s.dwell
    | .act (.list l) => go h (.list l) (h.listEntry e l.addr).2.1
    | .act (.wait c) => (go h (.wait c) 0).engState e 2
    | .act x => go h x 1
    | _ => let _ := u; h

/-- Every open bin counts a tick whose stream entry is missing (R168): one that closes at the tick still does, one that opens does not yet. -/
def Hw.binsUnder (h : Hw) (u : Nat) : Hw :=
  h.each (List.range 4) (fun h b => if h.binOpen u b then h.incSat U_BIN_UNDERRUN u b else h)

/-- The tick's stream entry was found missing at its guard instant, and the stream is not held up otherwise (R263, R264). -/
def Hw.streamLacks (h : Hw) (e : Nat) (late : Bool) : Bool :=
  let x := h.eng e
  let st := h.get TT_STAT_STATE e
  x.missing && (match x.act with
    | .stream s => st == 1 || (st == 3 && s.stalled)
    | _ => st == 1 && !late && h.streamDue e)

/-- A tick `n` whose stream entry is missing (R264, R265). -/
def Hw.streamMissing (h : Hw) (e n : Nat) (s : StreamS) : Hw :=
  let h := (h.put TT_SR_STAT_UNDERRUN e 1).inc TT_SR_URUN_COUNT e
  if s.stretch then
    ((h.modE e (fun x => { x with act := .stream { s with stalled := true, found := false } })).engState e 3).engStalled e n
  else
    let l := s.left.map (· - 1)
    let h := h.put TT_SR_RP_VALUE e (h.get TT_SR_RP_VALUE e + 8)
    let gap := (h.eng e).loops.map (fun l => { l with gap := true })
    h.modE e (fun x => { x with loops := gap, segEnd := false, act := if l = some 0 then .none else .stream { s with left := l }, togo := 1 })

/-- A tick of a stream in play (R263, R264). -/
def Hw.streamTick (h : Hw) (e n : Nat) : Hw :=
  let x := h.eng e
  match x.act with
  | .stream s =>
    let st := h.get TT_STAT_STATE e
    let h := h.modE e (fun x => { x with missing := false, sflags := 0 })
    if st == 3 then
      if !s.stalled then h
      else if x.missing then h.streamMissing e n s else h.engStalled e n
    else if x.missing then (h.streamMissing e n s).setS e n
    else if 4 ≤ x.sflags then
      let l := s.left.map (· - 1)
      let h := h.put TT_SR_RP_VALUE e (h.get TT_SR_RP_VALUE e + 8)
      let fin := bit x.sflags 1 || l == some 0
      (h.modE e (fun x => { x with segEnd := bit x.sflags 0, act := if fin then .none else .stream { s with left := l }, togo := 1 })).modE e
        (fun y => { y with segEnd := bit x.sflags 0 || fin })
    else h.engLate e n
  | _ => h

/-- A tick `n` before TT_START_AT: the first step, where it is prepared, keeps waiting; it is due at the next tick where that one is not before
TT_START_AT (R214). -/
def Hw.startWaits (h : Hw) (e n t : Nat) : Hw :=
  let u := h.get TT_BIND_UNIT e
  let p := h.period u
  let h := (h.engRewind e).dropEng u
  (h.modE e (fun x => { x with ready := none, parts := [], need := none, togo := if t ≤ n + p then 1 else 2 })).put TT_STEP_TICK e (ceilTo p t)

/-- An entry chosen at the tick itself for the pop of this tick: the one that stood at the guard instant in the queue's place (R217, R219). -/
def Hw.putNow (h : Hw) (u : Nat) (r : RefEntry) : Hw :=
  if (h.unit u).safe.ramp then h
  else h.modU u (fun x => { x with ref := { x.ref with
    q := x.ref.q.take x.ref.flush ++ r :: x.ref.q.drop x.ref.flush, ready := x.ref.flush + 1 } })

/-- The step that is due at tick `n` acts, or is late: a step whose entry could not be pushed, or one that needs more than was prepared (R219,
R220). -/
def Hw.engDo (h : Hw) (e n : Nat) (cl : Bool) : Hw :=
  let x := h.eng e
  if x.need.isSome then (h.engState e 3).engStalled e n
  else match x.ready with
    | none => h.engLate e n
    | some a =>
      match a.entry with
      | none => h.engApply1 e n a cl
      | some r =>
        if !x.canPush then h.engLate e n
        else
          let h := h.engApply1 e n { a with entry := none } cl
          if h.get TT_STAT_STATE e == 1 && (h.eng e).ready.isSome then
            (h.modE e (fun x => { x with ready := some { a with entry := none } })).putNow (h.get TT_BIND_UNIT e) r
          else h

/-- A RUNNING engine at a tick: what is due, or a tick less to it. -/
def Hw.engRun (h : Hw) (e n : Nat) (late cl : Bool) : Hw :=
  let h := h.engOpens e n
  let x := h.eng e
  let due := fun (h : Hw) =>
    if 1 < x.togo then h.modE e (fun x => { x with togo := x.togo - 1 })
    else if late then h.engLate e n
    else h.engDo e n cl
  let errs := fun (h : Hw) => if h.playFails e then (match x.ready with | some a => h.engApply1 e n a cl | none => h) else h
  match x.act with
  | .stream _ => errs h
  | .play p => if p.on then errs h else due h
  | _ => due h

/-- A step due at tick `n` with a wait that may hold there stops at that wait: the engine as it then waits, with the effects before it. -/
def Hw.usePart (h : Hw) (e : Nat) (b : EngBack) : Hw :=
  (h.engRegs e b).modE e (fun x => { x with ready := some b.acc, acc := {}, parts := [], need := none, missing := false, sflags := 0 })

/-- The engine before the loop commands of a tick (R215, R218, R220, R251, R259); `cl`: the tick found the loop closed. -/
def Hw.engPre (h : Hw) (e n : Nat) (late cl : Bool) : Hw :=
  let u := h.get TT_BIND_UNIT e
  let h := if h.streamLacks e late then h.binsUnder u else h
  let h := h.jumpLand e n
  let x := h.eng e
  let st := h.get TT_STAT_STATE e
  if st == 3 then (match x.act with | .stream s => if s.stalled then h else h.engStalled e n | _ => h.engStalled e n)
  else if st == 1 then
    match x.startAt with
    | some t => if n < t then h.startWaits e n t else (h.modE e (fun x => { x with startAt := none, togo := 1 })).engRun e n late cl
    | none => h.engRun e n late cl
  else h

/-- The engine after the pop of a tick: requests, and what it plays next. The tick of a WAITEV's own step counts for its timeout (R249). -/
def Hw.engPost (h : Hw) (e n : Nat) : Hw :=
  let h := (h.engApply2 e n).streamTick e n
  if h.get TT_STAT_STATE e == 2 then
    match (h.eng e).act with
    | .wait (.event k t a c) => h.modE e (fun y => { y with act := .wait (.event k t a (c + 1)) })
    | _ => h
  else h

/-- Whether the condition of the present wait holds at the tick that has been made (R217). -/
def Hw.engWaits (h : Hw) (e : Nat) : Hw :=
  match (h.eng e).act with
  | .wait c => let ok := h.get TT_STAT_STATE e == 2 && h.waitHolds e c; h.modE e (fun x => { x with waitOk := ok })
  | _ => h

/-- A WAITING engine whose ISOLATE ends in FAULTED halts (R238). -/
def Hw.engIsoCheck (h : Hw) (e n : Nat) : Hw :=
  let u := h.get TT_BIND_UNIT e
  match (h.eng e).act with
  | .wait .isolate => if h.get TT_STAT_STATE e == 2 && h.faultIso u then h.haltEng e (if bit (h.get U_FAULT_MAP_MAP u) 8 then 5 else 4) n else h
  | _ => h

/-! ### Rows of what the engine plays -/

/-- The work of a point, an entry or a pass that is due at the next tick, prepared with its push last (R219). -/
def Hw.stageWork (h : Hw) (e : Nat) (a : StepAcc) : Hw :=
  let h := if (h.eng e).back.isNone then (let b := h.engBack e; h.modE e (fun x => { x with back := some b })) else h
  (h.modE e (fun x => { x with acc := { a with count := 0 } })).stepStage e

/-- A point of a sweep prepared for its first tick (R231). -/
def Hw.sweepPoint (h : Hw) (e : Nat) : Hw :=
  let x := h.eng e
  match x.act with
  | .sweep s =>
    if h.get TT_STAT_STATE e == 1 && x.togo == 1 && x.ready.isNone && decide (s.j < s.total) then
      h.stageWork e { close := s.bmask, opn := if s.settle = 0 then s.bmask else 0,
                      entry := some { value := s.value s.j, ovr := s.ovr, src := 1 }, fin := .act (.sweep s.advance) }
    else h
  | _ => h

/-- An entry of a list prepared for its first tick (R232). -/
def Hw.listNext (h : Hw) (e : Nat) : Hw :=
  let x := h.eng e
  match x.act with
  | .list l =>
    if h.get TT_STAT_STATE e == 1 && x.togo == 1 && x.ready.isNone && decide (0 < l.left) then
      let a := l.addr + 8
      match h.lineMiss e a 8 true with
      | some ln => if h.ttRange e a 8 then h.stallFor e ln true else (h.stageWork e { fin := .err 3 }).setPc e l.pc
      | none =>
        let (v, _, m, op, cl, hold, bad) := h.listEntry e a
        if bad then (h.stageWork e { fin := .err 4 }).setPc e l.pc
        else h.stageWork e { close := l.close, opn := if op then m else 0,
                             entry := if hold then none else some { value := v, src := 1 },
                             fin := .act (.list { left := l.left - 1, addr := a, pc := l.pc, close := if cl then m else 0, opened := if op then m else 0 }) }
    else h
  | _ => h

/-- A pass of a segment prepared for its first tick (R233). -/
def Hw.playPass (h : Hw) (e : Nat) : Hw :=
  let x := h.eng e
  match x.act with
  | .play p =>
    if h.get TT_STAT_STATE e == 1 && x.togo == 1 && x.ready.isNone && !p.on && p.left != some 0 then
      match h.lineMiss e (p.sampleAt 0).1 (p.sampleAt 0).2 true with
      | some l =>
        if h.ttRange e (p.sampleAt 0).1 (p.sampleAt 0).2 then h.stallFor e l true else (h.stageWork e { fin := .err 3 }).setPc e p.pc
      | none =>
        let (r, p') := h.segEntry e { p with on := true }
        h.stageWork e { entry := some r, fin := .act (.play p') }
    else h
  | _ => h

/-- A stalled stream resumes, after the tick at whose guard instant its missing entry was found present (R264). -/
def Hw.streamResume (h : Hw) (e : Nat) : Hw :=
  if (h.unit (h.headOf (h.get TT_BIND_UNIT e))).clk.guarded then h else h.streamGo e

/-- A waiting instruction's condition held at the last tick w, and S becomes w + 1 (R217). -/
def Hw.waitCondition (h : Hw) (e : Nat) : Hw :=
  let x := h.eng e
  match x.act with
  | .wait c =>
    if h.get TT_STAT_STATE e == 2 && x.waitOk && (match c with | .event _ _ _ _ => h.waitHolds e c | _ => true) then
      match c with
      | .event k _ _ _ =>
        let h := h.modE e (fun x => { x with seenNow := x.seenNow.filter (· != k), recs := tset x.recs k (h.pc e, x.loops.length, x.calls.length) })
        (h.put TT_EVW_REC e 1 k).waitEnd e
      | _ => h.waitEnd e
    else h
  | _ => h

/-- A WAITEV times out (R249). -/
def Hw.waitTimeout (h : Hw) (e : Nat) : Hw :=
  let x := h.eng e
  match x.act with
  | .wait (.event k t a c) =>
    if h.get TT_STAT_STATE e == 2 && decide (0 < t) && decide (t ≤ c) && !(x.seenNow.contains k && decide (c ≤ t)) then
      (h.setPc e a).waitEnd e
    else h
  | _ => h

/-- The line at an engine's mark, while one is set (R266). -/
def Hw.markLine (h : Hw) (e : Nat) : Option Nat :=
  if h.flag TT_SR_STAT_MARKED e then some ((h.get TT_SR_BASE_ADDR e + h.get TT_SR_MARK_VALUE e % h.ringSize e) / 256) else none

/-- A window with a line filled: the eight latest lines stay, among them the line to be kept. -/
def fillWin (w : Tab Nat (List Nat)) (line : Nat) (bytes : List Nat) (keep : Option Nat) : Tab Nat (List Nat) :=
  let rest := w.filter (fun p => p.1 != line)
  let first := rest.filter (fun p => keep == some p.1)
  (line, bytes) :: (first ++ rest.filter (fun p => keep != some p.1)).take 7

/-- A line reaches an engine's window (R212), or its fetch is uncorrectable, or its channel has lost its capacity since: a stalled engine whose
line it is resumes, or faults at its step tick (R213, R216, R289). -/
def Hw.lineIn (h : Hw) (e line : Nat) (data ue : Bool) : Hw :=
  let x := h.eng e
  let bytes := (List.range 256).map (fun k => (h.byte (line * 256 + k)).toNat)
  let gone := !h.ttRange e (line * 256) 1
  let h := if ue || gone then h
    else if data then h.modE e (fun x => { x with data := fillWin x.data line bytes (h.markLine e) })
    else h.modE e (fun x => { x with code := fillWin x.code line bytes none })
  if x.need = some (line, data) then
    let h := (h.modE e (fun x => { x with need := none })).engState e 1
    if !ue && !gone then h
    else
      let code := if gone then 3 else 10
      let h := h.setPc e x.needPc
      match x.ready with
      | some a => h.modE e (fun x => { x with ready := some { a with fin := .err code, entry := none } })
      | none => (h.modAcc e (fun a => { a with fin := .err code })).stepStage e
  else h

/-- A line fill from DDR5 ends, under the Twill token at rank 4 (R212). -/
def Hw.lineFill (h : Hw) (e line : Nat) (data ue : Bool) : Hw :=
  h.burst (e / 8) (line * 256) (twEng e) 4 (fun h => h.lineIn e line data ue)

/-! ### Predictions and jumps -/

/-- The outcome of the junction predicted, on the values committed now. -/
def Hw.predOutcome (h : Hw) (e : Nat) (p : JPred) : Bool × Bool :=
  match p.cond with
  | .junction k st op b th ng sl fl _ => h.evalJunction e k st op b th ng sl fl
  | _ => (false, false)

/-- The slot a predicted junction tests. -/
def predSlot (p : JPred) : Option Nat := match p.cond with | .junction 0 _ _ _ _ _ sl _ _ => some sl | _ => none

/-- A junction prediction confirmed (R255). -/
def Hw.predConfirm (h : Hw) (e : Nat) : Hw :=
  match (h.eng e).pred with
  | none => h
  | some p =>
    let (t, em) := h.predOutcome e p
    if t ≠ p.taken then h
    else
      let confirm := fun (a : StepAcc) => { a with tag := false, juncs := a.juncs ++ [(p.addr, t, predSlot p)], empty := a.empty || em }
      let h := (h.put TT_JSTAT_PENDJ e 0).modE e (fun x => { x with
        pred := none, acc := confirm x.acc,
        parts := x.parts.take p.parts ++ (x.parts.drop p.parts).map (fun b => { b with acc := confirm b.acc }) })
      h.stepStage e

/-- A junction prediction refuted: the tagged work is discarded, with it a stall for a line of the predicted path, and the correct path runs
(R32, R34, R255). -/
def Hw.predRefute (h : Hw) (e : Nat) : Hw :=
  match (h.eng e).pred with
  | none => h
  | some p =>
    let (t, em) := h.predOutcome e p
    if t = p.taken then h
    else
      let b := p.snap
      let h := h.inc DIE_SPEC_CNT_COUNT (e / 8) 0
      let h := if (h.eng e).need.isSome then (h.modE e (fun x => { x with need := none })).engState e 1 else h
      let h := ((h.engRegs e { b with loops := p.loops, calls := p.calls }).put TT_JSTAT_PENDJ e 0).modE e (fun x => { x with
        pred := none, noPred := true, parts := x.parts.take p.parts,
        acc := { p.acc with juncs := p.acc.juncs ++ [(p.addr, t, predSlot p)], empty := p.acc.empty || em } })
      h.takePath e t p.target (p.addr + 8)

/-- A jump taken at the next tick (R258, R259); a RESTART due there is lost (R260). -/
def Hw.jumpTake (h : Hw) (e : Nat) : Hw :=
  let x := h.eng e
  let s := h.get TT_STAT_STATE e
  let u := h.get TT_BIND_UNIT e
  if x.jump.isSome && !x.jumping && (s == 1 || s == 2 || s == 3) && h.jumpPoint e && !(h.unit u).clk.guarded then
    let cl := h.jumpCloses e
    let h := match x.cut with
      | some c => (((h.inc TT_EV_OVERLAP_COUNT e).engRewind e).setStacks e c.1.loops c.1.calls)
      | none => h
    (h.redirect e (h.get TT_JUMP_TGT_ADDR e) (h.get TT_JUMP_TGT_LD e) (h.get TT_JUMP_TGT_CD e) cl false true).modE e
      (fun x => { x with restart := none, cut := none })
  else h

/-- The low word of TT_JUMP_TGT waits for the high word, which makes the pair take effect (R256). -/
def Hw.jumpTgt (h : Hw) (e : Nat) (high : Bool) (val : Nat) : Hw :=
  if high then
    let h := h.put TT_JUMP_TGT_ADDR e ((h.eng e).tgtLow / 8 * 8 + bits val 7 0 * 2 ^ 32)
    let h := (h.put TT_JUMP_TGT_LD e (bits val 11 8)).put TT_JUMP_TGT_CD e (bits val 14 12)
    h.put TT_JUMP_TGT_VALID e (bits val 31 31)
  else h.modE e (fun x => { x with tgtLow := val % 2 ^ 32 })

/-- A TT_SR_WP write: while a STREAM plays only an advance counts (R261), the low three bits ignored. -/
def Hw.srWp (h : Hw) (e val : Nat) : Hw :=
  let v := val % 2 ^ 32
  match (h.eng e).act with
  | .stream _ => if 0 ≤ sx32 (v / 8 * 8 + (2 ^ 32 - h.srWpOf e)) then h.put TT_SR_WP_VALUE e v else h
  | _ => h.put TT_SR_WP_VALUE e v

/-- TT_SR_FREE (R267); 0, its reset value, while no ring size is set. -/
def Hw.srFree (h : Hw) (e : Nat) : Nat :=
  if h.get TT_SR_SIZE_LOG2 e = 0 then 0 else
  let p := if h.flag TT_SR_STAT_MARKED e then h.get TT_SR_MARK_VALUE e else h.get TT_SR_RP_VALUE e
  h.ringSize e - (max 0 (sx32 (h.srWpOf e + (2 ^ 32 - p)))).toNat

end Sys2Proof.Machine
end

