-- ==== Sys2Proof/Machine/Consist.lean ====
section
/-! DEFINITION. Coupling units into a consist, departure, and the traffic between a head station and its followers
(R46 to R57, R408 to R411). -/

namespace Sys2Proof.Machine

/-- The valid U_MEMBER entries of a consist window: index, unit, station, remote, weight. -/
def Hw.entries (h : Hw) (c : Nat) : List (Nat × Nat × Nat × Bool × Nat) :=
  ((List.range 8).filter (fun m => h.flag U_MEMBER_VALID c m)).map (fun m =>
    (m, h.get U_MEMBER_UNIT c m, h.get U_MEMBER_STN c m, h.flag U_MEMBER_REMOTE c m, h.get U_MEMBER_WEIGHT c m))

/-- The local units of U_MEMBER. -/
def Hw.localEntries (h : Hw) (c : Nat) : List Nat := ((h.entries c).filter (fun m => !m.2.2.2.1)).map (fun m => m.2.1)

/-- The depth of a unit (R48). -/
def Hw.depth (h : Hw) (u : Nat) : Nat := if isConsist u then h.get U_CONSIST_STAT_DEPTH u else 0

/-- The stage of a unit is declared floating; for a consist, all its members' (U_ID.FLOAT). -/
def Hw.floating (h : Hw) (u : Nat) : Bool := (h.leaves u).all (fun m => h.flag U_ID_FLOAT m)

/-- The bound engine of a unit is RUNNING, WAITING or STALLED. -/
def Hw.engActive (h : Hw) (u : Nat) : Bool :=
  match h.engOf u with
  | some e => let s := h.get TT_STAT_STATE e; s == 1 || s == 2 || s == 3
  | none => false

/-- The member is the consist itself, or contains it (R48). -/
def Hw.selfIn (h : Hw) (c m : Nat) : Bool := m == c || (h.tree m).contains c

/-- The checks of a COUPLE, by RESULT code (R48). That a member number of no unit, of an absent or fenced die or of an uncoupled consist
answers 1, and a member listed twice 3, is the model's choice (notes/assumptions/76.md). What only a follower's own station knows of it is
checked there (Hw.joinOk). -/
def Hw.coupleChecks (h : Hw) (c : Nat) : List (Nat × Bool) :=
  let es := h.entries c
  let ls := h.localEntries c
  let remote := es.any (fun m => m.2.2.2.1)
  [ (1, !(h.st c == stISOLATED && ls.all (fun m => h.selfIn c m || (h.runs m && h.st m == stISOLATED)))),
    (2, ls.any (fun m => !(isChan m || isConsist m))),
    (3, ls.any (fun m => h.isMember m) || (ls.length != ls.eraseDups.length)),
    (4, decide (4 < 1 + ls.foldl (fun a m => max a (h.depth m)) 0)),
    (5, h.get U_CONSIST_CFG_TYPE c == 1 && ls.any (fun m => !h.floating m)),
    (6, ls.any (fun m => h.get U_LOOP_CTRL_RATE m != h.get U_LOOP_CTRL_RATE c)),
    (7, ls.any (fun m => h.get U_RTAB_PTR_NI_M1 m != h.get U_RTAB_PTR_NI_M1 c || h.get U_RTAB_PTR_NV_M1 m != h.get U_RTAB_PTR_NV_M1 c)),
    (8, es.map (fun m => m.1) != List.range es.length || es.isEmpty || h.flag U_MEMBER_REMOTE c 0),
    (9, remote && decide (max 1 (h.get U_CONSIST_CFG_OUT_DIV c) * ratePeriod (h.get U_LOOP_CTRL_RATE c) < 8192)),
    (10, ls.any h.engActive),
    (11, ls.any (h.selfIn c)),
    (13, es.any (fun m => m.2.2.2.2 == 0)) ]

/-- The lowest RESULT among the checks that fail; 0 where none does (R49). -/
def Hw.coupleResult (h : Hw) (c : Nat) : Nat :=
  match (h.coupleChecks c).find? (fun x => x.2) with | some x => x.1 | none => 0

/-- A unit becomes a member (R50, R129, R162); what UNCOUPLE puts back is kept (R49). -/
def Hw.joinMember (h : Hw) (u c stn idx : Nat) (foll : Bool) : Hw :=
  let h := h.each (h.tree u) (fun h m => let l := h.ownRegs m; h.modU m (fun x => { x with cons := { x.cons with kept := x.cons.kept ++ [l] } }))
  let h := ((h.put U_MEMBER_OF_CONSIST u c).put U_MEMBER_OF_STN u stn).putB U_MEMBER_OF_FOLLOWER u foll
  let h := ((h.put U_MEMBER_OF_VALID u 1).put U_MEMBER_OF_INDEX u idx).put U_STATE_COUPLED u 1
  h.modU u (fun x => { x with law := { x.law with zs := (0, 0), work := none }, cons := { x.cons with cOut := 0, share := 0 } })

/-- The depth of a consist: of its members here, and of what the followers' stations told of theirs (R48). -/
def Hw.depthOver (h : Hw) (c far : Nat) : Nat := 1 + (h.localEntries c).foldl (fun a m => max a (h.depth m)) far

/-- The units are coupled (R49); `far` is the greatest depth among the followers. That a coupling clears DEPARTED is the model's choice
(notes/assumptions/88.md). -/
def Hw.coupleDone (h : Hw) (c far : Nat) : Hw :=
  let es := h.entries c
  let w := es.foldl (fun a m => a + m.2.2.2.2) 0
  let depth := h.depthOver c far
  let h := h.modU c (fun x => { x with cons := { x.cons with
    mem := es, rep := [], silent := [], heard := es.map (fun m => m.1), fst := [], wait := false, gone := 0, outAt := none } })
  let h := ((h.put U_CONSIST_STAT_COUPLED c 1).put U_CONSIST_STAT_W c w).put U_CONSIST_STAT_DEPARTED c 0
  let h := h.put U_CONSIST_STAT_DEPTH c depth
  let h := h.put U_CONSIST_STAT_REMOTE c (es.foldl (fun a m => if m.2.2.2.1 then setBit a m.1 else a) 0)
  let h := h.each es (fun h m => if m.2.2.2.1 then h else h.joinMember m.2.1 c h.ownNum m.1 false)
  let h := h.mdecTake c c h.now
  let h := h.each ((h.tree c).drop 1) (fun h m => h.mdecTake m c h.now)
  (h.put U_COUPLE_BUSY c 0).put U_COUPLE_RESULT c 0

/-- U_COUPLE with COUPLE (R48, R49): refused with the lowest RESULT; done at once where every member is in this station. -/
def Hw.couple (h : Hw) (c : Nat) : Hw :=
  if !isConsist c || h.flag U_COUPLE_BUSY c then h
  else
    let h := h.put U_COUPLE_OP c 1
    let r := h.coupleResult c
    if r ≠ 0 then h.put U_COUPLE_RESULT c r
    else if (h.entries c).any (fun m => m.2.2.2.1) then
      (h.put U_COUPLE_BUSY c 1).modU c (fun x => { x with cons := { x.cons with wait := true } })
    else h.coupleDone c 0

/-- The checks of R48 that a follower's own station makes of it. -/
def Hw.joinOk (h : Hw) (u : Nat) (f : Follow) : Bool :=
  (isChan u || isConsist u) && h.runs u && h.st u == stISOLATED && !h.isMember u && decide (h.depth u ≤ 3) && (!f.ser || h.floating u) &&
    h.get U_RTAB_PTR_NI_M1 u == f.ni && h.get U_RTAB_PTR_NV_M1 u == f.nv && !h.engActive u

/-- A member becomes an uncoupled, ISOLATED unit with its own registers as they stood (R49). -/
def Hw.leaveMember (h : Hw) (u : Nat) : Hw :=
  let h := ((h.put U_MEMBER_OF_CONSIST u 0).put U_MEMBER_OF_STN u 0).put U_MEMBER_OF_FOLLOWER u 0
  let h := ((h.put U_MEMBER_OF_VALID u 0).put U_MEMBER_OF_INDEX u 0).put U_STATE_COUPLED u 0
  let h := ((h.put U_STATE_STATE u stISOLATED).put U_STATE_LOOP u 0).modU u (fun x => { x with law := { x.law with work := none } })
  let h := h.mdecTake u u h.now
  let h := h.each ((h.tree u).drop 1) (fun h m => h.mdecTake m u h.now)
  h.each (h.tree u) (fun h m =>
    match (h.unit m).cons.kept.getLast? with
    | none => h
    | some l => (h.ownBack m h.now l).modU m (fun x => { x with cons := { x.cons with kept := x.cons.kept.dropLast } }))

/-- The unit of this station whose ticks a member shares. -/
def Hw.clkOf (h : Hw) (u : Nat) : ClockS := (h.unit (h.headOf u)).clk

/-- A coupling with remote members completes or fails (R49), by what the checks of R48 find then: `res` is the lowest RESULT that the followers' stations answered, 12 where one
did not answer, 0 where none refuses; `depth` the greatest depth among the followers. In a follower's own station the unit becomes a
follower, or, where the head tells with a RESULT that is not 0 that it has uncoupled it, an isolated one leaves,
and any other is taken off its load first (notes/assumptions/20.md). -/
def Hw.coupleComplete (h : Hw) (u res depth : Nat) (f : Option Follow) : Hw :=
  match f with
  | none =>
    if isConsist u && (h.unit u).cons.wait then
      let h := h.modU u (fun x => { x with cons := { x.cons with wait := false } })
      match [h.coupleResult u, res, if 4 < h.depthOver u depth then 4 else 0].filter (· != 0) with
      | [] => h.coupleDone u depth
      | r :: l => (h.put U_COUPLE_BUSY u 0).put U_COUPLE_RESULT u (l.foldl min r)
    else h
  | some f =>
    if res = 0 then
      if h.joinOk u f then
        (h.joinMember u f.consist f.stn f.idx true).modU u (fun x => { x with cons := { x.cons with
          ser := f.ser, lostN := max 1 f.lostN, per := f.per, upds := [], upHeard := true, noUpd := 0, lost := false } })
      else h
    else if h.isFollower u && h.get U_MEMBER_OF_CONSIST u == f.consist && h.get U_MEMBER_OF_STN u == f.stn then
      if h.st u == stISOLATED || h.faultIso u then h.leaveMember u
      else h.isolateReq u (h.clkOf u).last ((h.clkOf u).last + (h.dcfg u).tsafe) 4 false
    else h

/-- An ISOLATED consist uncouples (R49): its members leave it, those of this station taking back their own registers. -/
def Hw.uncoupleDone (h : Hw) (c : Nat) : Hw :=
  let ls := (((h.unit c).cons.mem.filter (fun m => !m.2.2.2.1)).map (fun m => m.2.1))
  let h := h.modU c (fun x => { x with cons := { x.cons with mem := [], rep := [], silent := [], heard := [], fst := [], gone := 0, outAt := none },
                                        law := { x.law with work := none } })
  let h := ((h.put U_CONSIST_STAT_COUPLED c 0).put U_CONSIST_STAT_DEPTH c 0).put U_CONSIST_STAT_W c 0
  let h := h.put U_CONSIST_STAT_REMOTE c 0
  (h.each ls (fun h m => h.leaveMember m)).put U_COUPLE_RESULT c 0

/-- U_COUPLE with UNCOUPLE (R49): RESULT 1 unless the consist is ISOLATED. That a consist with remote members uncouples at once, without
awaiting their stations' answers, is the model's choice (notes/assumptions/79.md), and so is what UNCOUPLE does to a consist that is
itself a member or is not coupled (notes/assumptions/85.md). -/
def Hw.uncouple (h : Hw) (c : Nat) : Hw :=
  if !isConsist c || h.flag U_COUPLE_BUSY c then h
  else
    let h := h.put U_COUPLE_OP c 2
    if h.st c != stISOLATED then h.put U_COUPLE_RESULT c 1 else h.uncoupleDone c

/-! ### Departure -/

/-- A fault that waits for the first guarded tick of a unit (R57). -/
def Hw.remoteLost (h : Hw) (u act : Nat) : Hw :=
  h.modU u (fun x => { x with pend := x.pend ++ [{ act := .fault 10 act }] })

/-- Member `idx` departs (R57): the fault policy applies, as it stands when the fault is raised, under SAFE and at the lead's departure;
else the fault is recorded only. That W stays where no new one is stated is the model's choice (notes/assumptions/94.md). -/
def Hw.depart (h : Hw) (c idx : Nat) : Hw :=
  if !h.isCoupled c || bit (h.unit c).cons.gone idx || !((h.unit c).cons.mem.any (fun m => m.1 == idx)) then h
  else
    let h := h.put U_CONSIST_STAT_DEPARTED c (setBit (h.get U_CONSIST_STAT_DEPARTED c) idx)
    let h := h.modU c (fun x => { x with cons := { x.cons with gone := setBit x.cons.gone idx } })
    if idx = 0 ∨ h.get U_CONSIST_CFG_DEPART c = 1 then h.remoteLost c 8
    else (h.put U_CONSIST_STAT_W c ((h.members c).foldl (fun a m => a + m.2.2.2.2) 0)).remoteLost c 0

/-- Every coupled consist with its members. -/
def Hw.consists (h : Hw) : List Nat := ((List.range 256).map (· + 512)).filter h.isCoupled

/-- The members a test names depart from their consists (R57). -/
def Hw.departAll (h : Hw) (p : Nat → (Nat × Nat × Nat × Bool × Nat) → Bool) : Hw :=
  h.each h.consists (fun h c => h.each (((h.unit c).cons.mem.filter (p c)).map (fun m => m.1)) (fun h i => h.depart c i))

/-- The members on a die depart, and then every nested consist with no channel left (R57). -/
def Hw.departDie (h : Hw) (d : Nat) : Hw :=
  let empty := fun (h : Hw) => h.departAll (fun _ m => !m.2.2.2.1 && isConsist m.2.1 && (h.leaves m.2.1).isEmpty)
  empty (empty (empty (h.departAll (fun _ m => !m.2.2.2.1 && isPlain m.2.1 && ownDie m.2.1 == d))))

/-- The Line reports station `n` lost: followers there depart (R56, R401). -/
def Hw.lostStation (h : Hw) (n : Nat) : Hw := h.departAll (fun _ m => m.2.2.2.1 && m.2.2.1 == n)

/-! ### Outer traffic -/

/-- A 32-bit code as a payload word. -/
def codeW (x : Int) : Nat := u32 x

/-- Word 0 of OUTER and REPORT (R387). -/
def outerW0 (c idx : Nat) : Nat := c % 1024 + idx % 8 * 1024

/-- A consist's outer tick `t`: every follower is sent its update (R54), and the followers that were silent through the whole outer period
count one more (R56); a DARK station sends nothing (R409). -/
def Hw.outerSend (h : Hw) (u t : Nat) : Hw :=
  let rs := (h.members u).filter (fun m => m.2.2.2.1)
  let due := t + h.get TW_LINE_LAT_TICKS 0
  let h := h.modU u (fun x => { x with cons := { x.cons with
    heard := [], silent := rs.map (fun m => (m.1, (if x.cons.heard.contains m.1 then 0 else tget x.cons.silent m.1 0 + 1))) } })
  if h.dark then h
  else h.each rs (fun h m => h.lineSend { lane := 1, ty := 1, dest := m.2.2.1, words := [
    outerW0 u m.1, h.get U_DRV_CODE_CODE u, codeW (h.shareTgt u), due % 2 ^ 32, due / 2 ^ 32 % 2 ^ 32, 0, 0, 0] })

/-- A follower's outer tick: its last committed measurement is reported (R56), and an outer period with no update counts. -/
def Hw.outerReport (h : Hw) (u : Nat) : Hw :=
  let x := h.unit u
  let t := (h.clkOf u).last
  let h := h.modU u (fun x => { x with cons := { x.cons with upHeard := false, noUpd := if x.cons.upHeard then 0 else x.cons.noUpd + 1 } })
  if h.dark then h
  else
    let v := if x.cons.ser then x.smp.v else x.smp.iFb
    h.lineSend { lane := 1, ty := 2, dest := h.get U_MEMBER_OF_STN u, words := [
      outerW0 (h.get U_MEMBER_OF_CONSIST u) (h.get U_MEMBER_OF_INDEX u), codeW v, t % 2 ^ 32, t / 2 ^ 32 % 2 ^ 32] }

/-- An outer tick of a consist (R54, R408), of a follower (R56), or of a unit that is both. A follower's outer tick lies within the loop
period that its last tick began. -/
def Hw.outerTick (h : Hw) (u t : Nat) : Hw :=
  let k := h.clkOf u
  if !k.ticked || (h.unit u).cons.outAt == some t then h
  else
    let send := isConsist u && h.isCoupled u && k.last == t && t % (max 1 (h.get U_CONSIST_CFG_OUT_DIV u) * h.period u) == 0
    let rep := h.isFollower u && decide (k.last ≤ t) && decide (t < k.last + h.period u) && t % max 1 (h.unit u).cons.per == 0
    if !send && !rep then h
    else
      let h := h.modU u (fun x => { x with cons := { x.cons with outAt := some t } })
      let h := if send then h.outerSend u t else h
      if rep then h.outerReport u else h

/-- LOST_N outer periods without a report: the follower has departed (R56). -/
def Hw.followerSilence (h : Hw) (c idx : Nat) : Hw :=
  if h.isCoupled c && decide (max 1 (h.get U_CONSIST_CFG_LOST_N c) ≤ tget (h.unit c).cons.silent idx 0) then h.depart c idx else h

/-- LOST_N outer periods without an update: FLT_REMOTE_LOST on the follower, with its own policy (R56). -/
def Hw.headSilence (h : Hw) (u : Nat) : Hw :=
  let x := (h.unit u).cons
  if h.isFollower u && !x.lost && decide (x.lostN ≤ x.noUpd) then
    (h.modU u (fun y => { y with cons := { y.cons with lost := true } })).remoteLost u 8
  else h

/-- A follower on its load takes its consist's state, loop and ranges (R47, R50): its share states are 0 where the loop closes, also by a
SWITCH of a closed loop (R129). -/
def Hw.mirrorOn (h : Hw) (u n : Nat) (p : Shown) : Hw :=
  let cl := p.st == 3
  let h := if cl && (p.shut || !h.flag U_STATE_LOOP u) then
    h.each (h.tree u) (fun h m => h.modU m (fun x => { x with law := { x.law with zs := (0, 0) } })) else h
  let h := h.setLoop u cl
  let h := if h.st u == stSIDED then h else h.setSt u p.st
  let h := h.modS u (fun s => { s with mirr := false })
  if h.irng u == p.ir && h.vrng u == p.vr then h
  else (h.modR u (fun r => { r with openI := p.ir, openV := p.vr })).openApply u n

/-- The checks of R327 that a follower's own station makes of a connect: the interlock, ABORT, its fixtures, its station and die, its
buffers (R51, R99). -/
def Hw.followOk (h : Hw) (u : Nat) : Bool :=
  let d := h.dieOf u
  !h.flag ILK_STAT_ILK_OPEN d && !h.flag ILK_STAT_ABORT d && h.fixOk u &&
    (h.get STN_STATE_STATE 0 == 3 || h.get STN_STATE_STATE 0 == 5) && !(h.die d).fenced &&
    !(h.leaves u).any (fun m => h.flag U_DRV_STAT_DRV_OT m)

/-- The follower mirrors its consist's state (R50, R51), as the head's station told it: a code of R66, 6 for SAFING that ends FAULTED,
connected, 7 for FAULTED, isolated; a clear of the consist clears it too (R144; notes/assumptions/20.md). -/
def Hw.mirror (h : Hw) (u n : Nat) (p : Shown) : Hw :=
  let h := if p.clr then h.each (h.tree u) (fun h m => h.clearRegs m) else h
  let s := h.st u
  let own := h.get U_FAULT_MAP_MAP u != 0
  let dl := n + (h.dcfg u).tsafe
  let mark := fun (h : Hw) => h.modS u (fun x => { x with mirr := true })
  let back := s == stFAULTED && !h.flag U_FAULT_ISOLATED u && (h.unit u).safe.mirr && !own
  match p.st with
  | 1 => if s == stISOLATED && h.followOk u then h.connAccept u n p.ir p.vr else h
  | 2 => if h.onLoad u || back then h.mirrorOn u n p else h
  | 3 => if h.onLoad u || back then h.mirrorOn u n p else h
  | 4 => if h.onLoad u then (mark h).isolateReq u n dl 4 false else if h.live u && (s == stSAFING || s == stFAULTED) then h.isolateReq u n dl 4 false else h
  | 6 => if h.onLoad u then (mark h).enterSafing u n .faultedConnected none false else h
  | 5 => if h.onLoad u || (s == stSAFING && (h.unit u).safe.mirr) then (mark h).faultConnected u n else h
  | 7 =>
    if s == stISOLATED then h.faultIsolated u n
    else if s == stCHECKING then (h.faultIsolated u n).reqSafe u false
    else if h.live u then
      let h := if h.onLoad u then mark h else h
      (h.isolateReq u n dl 4 false).modS u (fun x => { x with fin := .faultedIsolated })
    else h
  | _ =>
    if h.faultIso u then h.setSt u stISOLATED
    else if h.live u then (if h.onLoad u then mark h else h).isolateReq u n dl 4 false else h

/-- The updates of a follower due at its tick `n` are applied (R55). -/
def Hw.followTick (h : Hw) (u n : Nat) : Hw :=
  let l := (h.unit u).cons.upds
  let h := h.modU u (fun x => { x with cons := { x.cons with upds := l.filter (fun p => decide (n < p.due)) } })
  h.each (l.filter (fun p => decide (p.due ≤ n))) (fun h p =>
    (h.modU u (fun x => { x with cons := { x.cons with cOut := p.out, share := p.share } })).mirror u n p.head)

end Sys2Proof.Machine
end

