-- ==== Sys2Proof/Machine/Watch.lean ====
section
/-! DEFINITION. What a tick judges: the watch (R132 to R137), the ceiling check (R340), and a fault clear (R143). -/

namespace Sys2Proof.Machine

/-! ### The watch -/

/-- A unit's voltage sample feeds an enabled law (R129, R136): of its own laws; of its share law, as a member of a series consist or a follower of one;
of the laws that its consist's sample feeds, where the consist's is the lead's or the sum of its members'. -/
def Hw.feeds : Nat → Hw → Nat → Bool → Bool
  | 0, _, _, _ => false
  | f + 1, h, u, volt =>
    if h.localMember u then
      let c := h.get U_MEMBER_OF_CONSIST u
      h.isShared c volt || (h.get U_MEMBER_OF_INDEX u == 0 && Hw.feeds f h c volt)
    else if h.isFollower u then (h.unit u).cons.ser == volt
    else ((h.get U_MODE_MODE u == 1) != volt) || h.flag U_LAW_CFG_EN u 1 || h.flag U_LAW_CFG_EN u 2 || h.flag U_LAW_CFG_EN u 3

/-- The voltage sample feeds an enabled law. -/
def Hw.feedsV (h : Hw) (u : Nat) : Bool := Hw.feeds 5 h u true

/-- The current sample feeds an enabled law. -/
def Hw.feedsI (h : Hw) (u : Nat) : Bool := Hw.feeds 5 h u false

/-- The error of the law that won the committed drive (R134). -/
def Hw.feErr (h : Hw) (u : Nat) : Int :=
  let s := (h.unit u).smp
  h.lawErr u (h.get U_STATE_WIN u) (h.code U_REF_SLEWED_CODE u) s.v s.iFb

/-- FE_RUN at a tick (R135): it stops counting once the fault is raised. -/
def Hw.feTick (h : Hw) (u : Nat) : Hw :=
  if h.isMember u || !h.flag U_FE_CFG_EN u || !h.flag U_STATE_LOOP u then h.put U_SUP_STAT_FE_RUN u 0
  else if (h.unit u).wat.rFe then h
  else if decide ((h.get U_FE_LIMIT_CODE u : Int) < iabs (h.feErr u)) then h.incSat U_SUP_STAT_FE_RUN u
  else h.put U_SUP_STAT_FE_RUN u 0

/-- The sense-lead watch at a tick (R136). -/
def Hw.slwTick (h : Hw) (u : Nat) : Hw :=
  let s := (h.unit u).smp
  let st := h.st u
  let h := (h.putB U_SUP_STAT_CM_V u s.cmV).putB U_SUP_STAT_CM_I u s.cmI
  if h.flag U_SENSE_CFG_EN u && (st == 1 || st == 2 || st == 3 || st == 6) then
    let f := (s.ovV && h.feedsV u) || (s.ovI && h.feedsI u) || s.cmV || s.cmI
    let h := h.putB U_SUP_STAT_SLW_NOW u f
    if (h.unit u).wat.rSlw then h
    else if f then h.incSat U_SUP_STAT_SLW_RUN u else h.put U_SUP_STAT_SLW_RUN u 0
  else (h.put U_SUP_STAT_SLW_RUN u 0).put U_SUP_STAT_SLW_NOW u 0

/-- A run of equal samples carried to the next tick (R137): its length counts the samples, the drive spread takes every tick's
committed code. -/
def FrzRun.next (r : FrzRun) (x d : Int) : FrzRun :=
  if r.some && r.x == x then { r with len := r.len + 1, lo := min r.lo d, hi := max r.hi d }
  else { some := true, x := x, len := 1, lo := d, hi := d }

/-- The length of a run: one sample is no run. -/
def FrzRun.shown (r : FrzRun) : Nat := if r.some && decide (2 ≤ r.len) then r.len else 0

/-- The frozen detector at a tick (R137). While it is enabled and does not run, the
tick's sample is kept as the one a run may begin from. -/
def Hw.frzTick (h : Hw) (u : Nat) : Hw :=
  let x := h.unit u
  let st := h.st u
  if h.flag U_FRZ_CFG_EN u && (st == 2 || st == 3 || st == 6) && !x.wat.rFrz then
    let d := h.code U_DRV_CODE_CODE u
    let fv := if h.feedsV u then x.wat.fv.next x.smp.v d else {}
    let fi := if h.feedsI u then x.wat.fi.next x.smp.iRaw d else {}
    (h.modW u (fun w => { w with fv := fv, fi := fi })).put U_FRZ_STAT_FRZ_RUN u (min 0xFFFF (max fv.shown fi.shown))
  else
    let d := h.code U_DRV_CODE_CODE u
    let on := h.flag U_FRZ_CFG_EN u
    (h.modW u (fun w => { w with fv := if on then FrzRun.next {} x.smp.v d else {}, fi := if on then FrzRun.next {} x.smp.iRaw d else {} })).put
      U_FRZ_STAT_FRZ_RUN u 0

/-- A run has reached FRZ_N with a drive spread beyond FRZ_D (R137). -/
def Hw.frzDue (h : Hw) (u : Nat) : Bool :=
  let n := max 2 (h.get U_FRZ_CFG_FRZ_N u)
  let d : Int := h.get U_FRZ_D_CODE u
  let t := fun (r : FrzRun) => decide (n ≤ r.shown) && decide (d < r.hi - r.lo)
  !(h.unit u).wat.rFrz && (t (h.unit u).wat.fv || t (h.unit u).wat.fi)

/-- The measured quantities of a channel or siding beyond their ceilings (R340): voltage, current, power. -/
def Hw.overCeil (h : Hw) (u : Nat) : Bool × Bool × Bool :=
  let x := h.unit u
  let s := x.smp
  let t := fun (v c : Int) (ov : Bool) => if ov then decide (c < 0x7FFFFFFF) else decide (c < iabs v)
  (t s.v x.law.cv s.ovV, t s.iFb x.law.ci s.ovI, t (powerOf s.v s.iFb) x.law.cp (s.ovV || s.ovI))

/-- The ceiling runs of a channel or siding at a tick (R340), the tick at which it isolates among them (R337), and CEIL_NOW. -/
def Hw.ceilTick (h : Hw) (u : Nat) : Hw :=
  let v := h.headOf u
  let now := match (h.unit v).safe.isoAt with | some t => (h.unit v).clk.last == t | none => false
  if !isPlain u then h
  else if h.live u || now then
    let (a, b, c) := h.overCeil u
    let h := h.putB U_ILK_STAT_CEIL_NOW u (a || b || c)
    if (h.unit (h.headOf u)).wat.rCeil then h
    else h.modW u (fun w => { w with cv := if a then w.cv + 1 else 0, ci := if b then w.ci + 1 else 0, cp := if c then w.cp + 1 else 0 })
  else (h.put U_ILK_STAT_CEIL_NOW u 0).modW u (fun w => { w with cv := 0, ci := 0, cp := 0 })

/-- A ceiling run has reached CEIL_N (R340). -/
def Hw.ceilDue (h : Hw) (u : Nat) : Bool :=
  let n := max 1 (h.get U_ILK_CFG_CEIL_N u)
  let w := (h.unit u).wat
  isPlain u && !(h.unit (h.headOf u)).wat.rCeil && (decide (n ≤ w.cv) || decide (n ≤ w.ci) || decide (n ≤ w.cp))

/-- The watch and the ceiling check of a unit and every member under it. -/
def Hw.watchTick (h : Hw) (u : Nat) : Hw :=
  let h := h.each (h.tree u) (fun h m => (((h.feTick m).slwTick m).frzTick m).ceilTick m)
  let h := if isConsist u then
      h.each ((h.tree u).filter isConsist) (fun h m => h.putB U_ILK_STAT_CEIL_NOW m ((h.leaves m).any (fun k => h.flag U_ILK_STAT_CEIL_NOW k)))
    else h
  h

/-! ### Fault rows at a unit's last tick -/

/-- FLT_LATE (R122). -/
def Hw.lateFault (h : Hw) (u : Nat) : Hw :=
  if !(h.unit u).wat.rLate && decide (max 1 (h.get U_LATE_CFG_LATE_RUN u) ≤ h.get U_LATE_STAT_RUN u) then
    (h.modW u (fun w => { w with rLate := true })).raise u 1
  else h

/-- FLT_FE (R135). -/
def Hw.feFault (h : Hw) (u : Nat) : Hw :=
  if !(h.unit u).wat.rFe && decide (max 1 (h.get U_FE_CFG_FE_TIME u) ≤ h.get U_SUP_STAT_FE_RUN u) then
    (h.modW u (fun w => { w with rFe := true })).raise u 2
  else h

/-- FLT_SENSE (R136). -/
def Hw.senseFault (h : Hw) (u : Nat) : Hw :=
  if !(h.unit u).wat.rSlw && decide (max 1 (h.get U_SENSE_CFG_SLW_N u) ≤ h.get U_SUP_STAT_SLW_RUN u) then
    (h.modW u (fun w => { w with rSlw := true })).raise u 4
  else h

/-- FLT_FROZEN (R137). -/
def Hw.frozenFault (h : Hw) (u : Nat) : Hw :=
  if h.frzDue u then (h.modW u (fun w => { w with rFrz := true })).raise u 3 else h

/-- FLT_CEIL (R340). -/
def Hw.ceilFault (h : Hw) (u : Nat) : Hw :=
  if h.ceilDue u then (h.modW (h.headOf u) (fun w => { w with rCeil := true })).raise u 5 else h

/-! ### Clearing (R143) -/

/-- A cause of a recorded fault persists (R143). -/
def Hw.clearBlocked (h : Hw) (u : Nat) : Bool :=
  let has := fun code => (h.tree u).any (fun m => bit (h.get U_FAULT_MAP_MAP m) (code - 1))
  (has 6 && (h.leaves u).any (fun m => h.flag U_DRV_STAT_DRV_OT m)) ||
  (has 9 && h.thermHigh u) ||
  (has 4 && (h.tree u).any (fun m => h.flag U_SUP_STAT_SLW_NOW m)) ||
  (has 5 && (h.leaves u).any (fun m => let (a, b, c) := h.overCeil m; a || b || c))

/-- A clear examined at tick `n` (R143). -/
def Hw.clearAtTick (h : Hw) (u n : Nat) : Hw :=
  let h := h.put U_FAULT_CLR_CLR u 0
  if h.clearBlocked u then h.put U_FAULT_CLR_RESULT u 1
  else
    let iso := h.faultIso u
    let st := h.st u
    let any := (h.tree u).any (fun m => h.get U_FAULT_MAP_MAP m != 0)
    let h := h.put U_FAULT_CLR_RESULT u 0
    if !any then h
    else
      let h := h.each (h.tree u) (fun h m => h.clearRegs m)
      let dl := n + (h.dcfg u).tsafe
      if iso then h.setSt u stISOLATED
      else if st == stFAULTED then
        (h.put U_ILK_STAT_CAUSE u 4).enterSafing u n .isolated (some dl) false
      else if st == stSAFING then
        h.modS u (fun s => { s with deadline := (match s.fin with | .faultedConnected => earlier s.deadline dl | _ => s.deadline), fin := .isolated })
      else h

/-- A U_FAULT_CLR write (R143): RESULT 2 while a clear waits; a unit that has no ticks is answered at once. -/
def Hw.clearWrite (h : Hw) (u : Nat) : Hw :=
  if h.isMember u then h.put U_FLAGS_COUPLED_WR u 1
  else if h.flag U_FAULT_CLR_CLR u then h.put U_FAULT_CLR_RESULT u 2
  else if h.runs u then (h.put U_FAULT_CLR_CLR u 1).modU u (fun x => { x with pend := x.pend ++ [{ act := .clear }] })
  else h.clearAtTick u h.now

end Sys2Proof.Machine
end

