-- ==== Sys2Proof/Machine/Thermal.lean ====
section
/-! DEFINITION. Temperature: conversions and readings, trust, levels, derating, stopping, thermal shut-down and compensation
(R343 to R355). Sensor n of die d is number d * 12 + n. -/

namespace Sys2Proof.Machine

/-! ### Temperatures (R343) -/

/-- A binary64 value as the fraction it is exactly. -/
abbrev F64 := Int × Nat

/-- n / d rounded to binary64, to nearest with ties to even (R343). No value of this arithmetic leaves the normal range but 0. -/
def f64 (n : Int) (d : Nat) : F64 :=
  if n = 0 ∨ d = 0 then (0, 1)
  else
    let m := n.natAbs
    let at_ := fun (s : Int) => (m * 2 ^ s.toNat, d * 2 ^ (-s).toNat)
    let s : Int := 52 - (m.log2 : Int) + (d.log2 : Int)
    let s := if (at_ s).1 / (at_ s).2 < 2 ^ 52 then s + 1 else s
    let (p, q) := at_ s
    let k := p / q
    let k := if q < 2 * (p % q) ∨ (q = 2 * (p % q) ∧ k % 2 = 1) then k + 1 else k
    ((if n < 0 then -1 else 1) * ((k * 2 ^ (-s).toNat : Nat) : Int), 2 ^ s.toNat)

/-- The sum, product and quotient in binary64. -/
def f64Add (a b : F64) : F64 := f64 (a.1 * b.2 + b.1 * a.2) (a.2 * b.2)
/-- The product in binary64. -/
def f64Mul (a b : F64) : F64 := f64 (a.1 * b.1) (a.2 * b.2)
/-- The quotient in binary64 by a positive value. -/
def f64Div (a b : F64) : F64 := f64 (a.1 * b.2) (a.2 * b.1.toNat)

/-- The scale of the fixed-point logarithm. -/
def lnScale : Nat := 2 ^ 96

/-- The terms of atanh(z), `z` and the sum scaled by `lnScale`. -/
def atanhSum : Nat → Nat → Nat → Nat → Nat
  | 0, _, _, _ => 0
  | f + 1, z2, p, k => p / (2 * k + 1) + atanhSum f z2 (p * z2 / lnScale) (k + 1)

/-- ln(n / d) for n ≥ d, scaled by `lnScale`, to well beyond binary64's precision. -/
def lnFx (n d : Nat) : Nat :=
  let at3 := fun (a b : Nat) => let z := a * lnScale / b; 2 * atanhSum 48 (z * z / lnScale) z 0
  let k := (n / d).log2
  at3 (n - d * 2 ^ k) (n + d * 2 ^ k) + k * at3 1 3

/-- The natural logarithm of a positive value, rounded to binary64. -/
def f64Ln (a : F64) : F64 :=
  let n := a.1.toNat
  if a.2 ≤ n then f64 (lnFx n a.2 : Nat) lnScale else f64 (-(lnFx a.2 n : Nat)) lnScale

/-- A binary32 value, which binary64 holds exactly; none for an infinity or a NaN. -/
def f32Val (w : Nat) : Option F64 :=
  let e := bits w 30 23
  let m := bits w 22 0
  let s : Int := if bit w 31 then -1 else 1
  if e = 255 then none
  else
    let m := if e = 0 then m else m + 2 ^ 23
    let e := if e = 0 then 1 else e
    some (s * ((m * 2 ^ (e - 150) : Nat) : Int), 2 ^ (150 - e))

/-- A temperature less 273.15, as a count of 1/64 °C rounded half away from zero (R343). -/
def countOf (t : F64) : Int :=
  let c := f64Add t (f64 (-27315) 100)
  rdiv (64 * c.1) c.2

/-- A diode's temperature in 1/64 °C from ΔVbe in nanovolts and IDEAL; none where IDEAL is 0, for which the spec states no result. -/
def diodeTemp (v ideal : Nat) : Option Int :=
  let d := f64Mul (f64Mul (f64 ideal 16384) (f64 861733 (10 ^ 10))) (f64Ln (16, 1))
  if ideal = 0 then none else some (countOf (f64Div (f64 v (10 ^ 9)) d))

/-- A thermistor's temperature in 1/64 °C from its resistance in milliohms and A, B, C, each operation in binary64 in the order the equation
is written (notes/assumptions/62.md); none where the equation has no temperature. -/
def ntcTemp (r a b c : Nat) : Option Int :=
  match f32Val a, f32Val b, f32Val c with
  | some a, some b, some c =>
    if r = 0 then none
    else
      let l := f64Ln (f64 r 1000)
      let y := f64Add (f64Add a (f64Mul b l)) (f64Mul c (f64Mul (f64Mul l l) l))
      if y.1 ≤ 0 then none else some (countOf (f64Div (1, 1) y))
  | _, _, _ => none

/-- The temperature a conversion of a sensor gives (R343): its quantity is a count of 1/64 °C for an internal sensor, ΔVbe in nV for
a diode, milliohms for a thermistor. Where the equation gives none that 16 bits hold, the value is free (notes/assumptions/1.md). -/
def Hw.tempOf (h : Hw) (k : Nat) (q : Int) : Int × Hw :=
  let r := match h.get TH_SCFG_TYPE k with
    | 1 => diodeTemp q.toNat (h.get TH_SPAR_VALUE k 0 % 65536)
    | 2 => ntcTemp q.toNat (h.get TH_SPAR_VALUE k 0) (h.get TH_SPAR_VALUE k 1) (h.get TH_SPAR_VALUE k 2)
    | _ => some q
  match r with
  | some x => (x, h)
  | none => let (v, h) := h.fresh; (sxw 16 v, h)

/-! ### Trust (R346, R347) -/

/-- Two's-complement reading of a threshold or temperature field. -/
def t16 (n : Nat) : Int := sxw 16 n

/-- Open and short checks of a reading: 0 passes, 1 open, 2 short. `fwd` is a diode's forward voltage in microvolts at 16·I. -/
def Hw.thShape (h : Hw) (k : Nat) (q fwd : Int) : Nat :=
  match h.get TH_SCFG_TYPE k with
  | 1 => if 950000 < fwd then 1 else if fwd < 150000 then 2 else 0
  | 2 => if 4000000000 < q then 1 else if q < 20000 then 2 else 0
  | _ => 0

/-- The comparison set of a sensor at instant `t` (R346): the latest measured values of its healthy neighbours. -/
def Hw.thSet (h : Hw) (k t : Nat) : List Int :=
  let d := k / 12
  let age := max (2 * max 1 (min 1000 (h.get TH_SUP_CFG_PERIOD d))) 100 * t1ms
  (((List.range 12).map (· + d * 12)).filter (fun j =>
    j != k && h.get TH_SCFG_GRP j == h.get TH_SCFG_GRP k && h.get TH_SCFG_TYPE j != 0 && h.flag TH_RAW_VALID j && (h.th j).lastOk &&
      decide (t ≤ h.get TH_TIME_TICK j + age))).map (fun j => t16 (h.get TH_RAW_TEMP j))

/-- Insertion into a sorted list. -/
def insSorted (x : Int) : List Int → List Int
  | [] => [x]
  | y :: r => if x ≤ y then x :: y :: r else y :: insSorted x r

/-- A value differs from the median of a list by more than a limit; the median of an even count is the mean of the middle two. -/
def offMedian (l : List Int) (x lim : Int) : Bool :=
  let s := l.foldr insSorted []
  let n := s.length
  let m2 := s.getD ((n - 1) / 2) 0 + s.getD (n / 2) 0
  decide (2 * lim < iabs (2 * x - m2))

/-- The check a reading fails: 0 none, 1 open, 2 short, 3 impossible, 4 cross-check (R346). -/
def Hw.thCheck (h : Hw) (k t : Nat) (x : Int) (shape : Nat) : Nat :=
  let d := k / 12
  if shape ≠ 0 then shape
  else if x < t16 (h.get TH_PLAUS_LO d) ∨ t16 (h.get TH_PLAUS_HI d) < x then 3
  else
    let l := h.thSet k t
    if 2 ≤ l.length ∧ offMedian l x (64 * h.get TH_LIM_XCHK d) then 4 else 0

/-- The substitute of an unhealthy sensor (R347). -/
def Hw.thSub (h : Hw) (k t : Nat) (floor : Bool) : Int :=
  let l := h.thSet k t
  let s : Int := match l with
    | [] => t16 (h.get TH_LVL23_SHUT k)
    | a :: r => r.foldl max a + 64 * h.get TH_LIM_SUBM (k / 12)
  match floor, (h.th k).lastValid with
  | true, some v => max s v
  | _, _ => s

/-! ### Levels, derating, stopping (R348 to R353) -/

/-- Threshold of a level 1 to 4. -/
def Hw.thThr (h : Hw) (k lvl : Nat) : Int :=
  t16 (match lvl with
    | 1 => h.get TH_LVL01_WARN k | 2 => h.get TH_LVL01_THROTTLE k | 3 => h.get TH_LVL23_STOP k | _ => h.get TH_LVL23_SHUT k)

/-- The highest threshold a value reaches. -/
def Hw.thReach (h : Hw) (k : Nat) (x : Int) : Nat :=
  if h.thThr k 4 ≤ x then 4 else if h.thThr k 3 ≤ x then 3 else if h.thThr k 2 ≤ x then 2 else if h.thThr k 1 ≤ x then 1 else 0

/-- The level of a reading, given the present level (R348). -/
def Hw.thLevel (h : Hw) (k old : Nat) (x : Int) : Nat :=
  let r := h.thReach k x
  if old ≤ r then r
  else if x < h.thThr k old - 64 * h.get TH_LIM_HYST (k / 12) then r else old

/-- The factor d of a sensor from its reported value (R350). -/
def Hw.thFactor (h : Hw) (k : Nat) : Nat :=
  let x := t16 (h.get TH_VAL_TEMP k)
  let thr := h.thThr k 2
  let stop := h.thThr k 3
  let f : Int := min 65536 (h.get TH_FLOOR_F k)
  if !h.flag TH_RAW_VALID k then 65536
  else if x < thr then 65536
  else if stop ≤ x then f.toNat
  else (65536 - rdiv ((65536 - f) * (x - thr)) (stop - thr).toNat).toNat

/-- The derating factor D of a unit: the least d of the sensors mapped to it (R350). -/
def Hw.derateOf (h : Hw) (u : Nat) : Nat :=
  (allSensors.filter (fun p => h.get TH_SCFG_TYPE (p.1 * 12 + p.2) != 0 && h.maps p.1 p.2 u)).foldl
    (fun a p => min a (h.thFactor (p.1 * 12 + p.2))) 65536

/-- The units of the station that a sensor maps, heads and members alike (R349). -/
def Hw.mapped (h : Hw) (k : Nat) : List Nat :=
  (unitsOf (k / 12) ++ h.consists).filter (fun u => h.runs u && h.maps (k / 12) (k % 12) u)

/-- A new D waits for the unit's next injection boundary (R104, R350). -/
def Hw.derate (h : Hw) (u : Nat) : Hw :=
  let d := h.derateOf u
  if ((h.unit u).law.derate).getD (h.get U_PWL_DERATE_D u) = d then h
  else h.modU u (fun x => { x with law := { x.law with derate := some d } })

/-- FLT_THERM on the mapped units that are not members, at their next loop tick: action 3 orderly, 4 immediate isolation
(R351, R352); it is recorded on the mapped members then (Hw.dueFault). -/
def Hw.thermFault (h : Hw) (k act : Nat) : Hw :=
  h.each ((h.mapped k).filter (fun u => !h.localMember u)) (fun h u =>
    h.modU u (fun x => { x with pend := x.pend ++ [{ act := .fault 9 act }] }))

/-- The projection of R351 at the second reading, in 1/64 K and metronome ticks: true where the stop stays orderly. -/
def Hw.orderly (h : Hw) (k : Nat) (t1 : Nat) (x1 : Int) (t2 : Nat) (x2 : Int) : Bool :=
  let d := k / 12
  let tss : Int := h.tSafe d + h.get TH_LIM_SSM d * t1ms
  let dt : Int := t2 - t1
  if x2 ≤ x1 then true else decide ((tss - dt) * (x2 - x1) < (h.thThr k 4 - x2) * dt)

/-- What the level of a reading does (R348 to R352): `old` and `new` levels, reported value `x` at `t`. -/
def Hw.thAct (h : Hw) (k t old new : Nat) (x : Int) : Hw :=
  let d := k / 12
  let h := if old = 0 ∧ 1 ≤ new ∧ h.flag TH_EV_EN k then h.evSchedule (h.get TH_EV_EV k) (t + 32) else h
  let h := h.each (h.mapped k) (fun h u => h.derate u)
  if new < 3 then
    (h.put TH_SUP_STAT_EMERG d (clrBit (h.get TH_SUP_STAT_EMERG d) (k % 12))).modT k (fun s => { s with stop := none })
  else
    let h := h.put TH_SUP_STAT_EMERG d (setBit (h.get TH_SUP_STAT_EMERG d) (k % 12))
    let first := old < 3
    let h := if first && new != 4 then h.thermFault k 3 else h
    if new = 4 then (if old < 4 then (h.thermFault k 4).modT k (fun s => { s with stop := none }) else h)
    else
      match (h.th k).stop with
      | none => if first then h.modT k (fun s => { s with stop := some (t, x) }) else h
      | some (t1, x1) =>
        let h := h.modT k (fun s => { s with stop := none })
        if h.orderly k t1 x1 t x then h else h.thermFault k 4

/-- What the end of power or an abandoned page program leaves of a calibration slot being written: it has no commit word (R315, R353). -/
def Hw.storeCut (h : Hw) (d : Nat) : Hw :=
  match (h.die d).store with
  | some s => h.setSlot d s.slot { h.calSlot d s.slot with header := true, commit := false }
  | none => h

/-- Power fails: a page program of a store in course leaves its slot without the commit word; a ceiling copy's write had cleared its own
when it began (R315, R341, R353). -/
def Hw.nvCut (h : Hw) (d : Nat) : Hw := if (h.arb (.nvm d)).hold.any (fun r => r.who == 2) then h.storeCut d else h

/-- A page program abandoned above 150 °C (R353): a store or a ceiling copy is left without its commit word, and the previous ceilings are
in force again. -/
def Hw.nvAbandon (h : Hw) (d : Nat) : Hw :=
  match (h.arb (.nvm d)).hold with
  | [] => h
  | r :: _ =>
    let h := (h.put TH_SUP_STAT_NVM_ABANDON d 1).tokRel (.nvm d) r.who
    if r.who = 1 then ((h.modD d (fun x => { x with ceilW := none, abandoned := x.abandoned ++ [1] })).ceilFrom d).recalcDie d
    else if r.who = 2 then
      let cmd := match (h.die d).store with | some s => s.cmd | none => false
      let h := (h.storeCut d).modD d (fun x => { x with store := none, abandoned := x.abandoned ++ [0] })
      let h := h.put CAL_NVM_STAT_STORING d 0
      if cmd then h.put CAL_CMD_BUSY d 0 else h
    else h

/-- Thermal shut-down of a die follows its internal sensors (R353); at its end the held programs proceed. -/
def Hw.thShut (h : Hw) (d : Nat) : Hw :=
  let now := (List.range 4).any (fun n => h.get TH_VAL_LEVEL (d * 12 + n) == 4)
  let was := h.flag TH_SUP_STAT_SHUT d
  if now = was then h
  else if now then h.put TH_SUP_STAT_SHUT d 1
  else
    let h := (h.put TH_SUP_STAT_SHUT d 0).tokGrant (.nvm d)
    let l := (h.die d).abandoned
    let h := h.modD d (fun x => { x with abandoned := [] })
    (h.each l (fun h a => h.audit 0x0A d a)).cntResume

/-! ### Readings (R344) -/

/-- Tick count of 10 s. -/
def t10s : Nat := 2457600000

/-- A completed conversion of a sensor is a reading: checked, recorded, evaluated. -/
def Hw.thReading (h : Hw) (k : Nat) (q fwd : Int) (t : Nat) : Hw :=
  let d := k / 12
  let shape := h.thShape k q fwd
  let (x, h) := if shape = 0 then h.tempOf k q else (0, h)
  let fail := h.thCheck k t x shape
  let s := h.th k
  let good := if fail = 0 then s.good + 1 else 0
  let bad := if fail ≠ 0 then true else s.bad && decide (good < 3)
  let lastValid := if fail = 0 then some x else s.lastValid
  let hot := match lastValid with | some v => decide (h.thThr k 2 ≤ v) | none => false
  let floor := bad && (hot || h.flag TH_VAL_FLOOR k)
  let h := h.modT k (fun s => { s with
    bad := bad, good := if s.bad || fail ≠ 0 then good else 0, lastValid := lastValid, lastOk := decide (fail = 0) })
  let h := if fail = 0 then h else h.inc TH_FAILS_COUNT k
  let rep := if bad then min 32767 (h.thSub k t floor) else x
  let h := h.modT k (fun s => { s with hist := (t, rep) :: s.hist.filter (fun p => decide (t ≤ p.1 + t10s)) })
  let old := h.get TH_VAL_LEVEL k
  let new := h.thLevel k old rep
  let h := ((h.put TH_VAL_TEMP k (toW 16 rep)).putB TH_VAL_SUBST k bad).put TH_VAL_LEVEL k new
  let h := ((h.put TH_VAL_FAIL k fail).putB TH_VAL_HEALTHY k (!bad)).putB TH_VAL_FLOOR k floor
  let h := ((h.put TH_RAW_TEMP k (if shape = 0 then toW 16 x else 0)).put TH_RAW_VALID k 1).put TH_TIME_TICK k t
  let h := h.thAct k t old new rep
  if k % 12 < 4 then
    let h := h.thShut d
    if 0x2580 < x then h.nvAbandon d else h
  else h

/-! ### Requests (R345) -/

/-- Conversions of the thermal supervisor that hold or await a modulator. -/
def Hw.thOut (h : Hw) (d : Nat) : Nat :=
  let a := h.arb (.aux d)
  ((a.hold ++ a.pend).filter (fun q => q.who / 16 == 1 || q.who / 16 == 2)).length

/-- The supervisor's next conversions requested: at most four at a time (R178, R345). -/
def Hw.thIssue : Nat → Hw → Nat → Hw
  | 0, h, _ => h
  | f + 1, h, d =>
    match (h.die d).thQ with
    | [] => h
    | (k, n) :: r =>
      if 4 ≤ h.thOut d then h
      else Hw.thIssue f ((h.modD d (fun x => { x with thQ := r })).tokReq (.aux d) { who := k * 16 + n, rank := 2 }) d

/-- The sensors of a die that are enabled. -/
def Hw.thOn (h : Hw) (d : Nat) : List Nat := (List.range 12).filter (fun n => h.get TH_SCFG_TYPE (d * 12 + n) != 0)

/-- A supervisor pass is running. -/
def Hw.passOn (h : Hw) (d : Nat) : Bool :=
  let a := h.arb (.aux d)
  (h.die d).thQ.any (fun p => p.1 == 1) || (a.hold ++ a.pend).any (fun q => q.who / 16 == 1)

/-- THERM_PASS at instant `t` (R345): every enabled sensor but those at emergency cadence. -/
def Hw.thermPass (h : Hw) (d t : Nat) : Hw :=
  let p := max 1 (min 1000 (h.get TH_SUP_CFG_PERIOD d)) * t1ms
  let due := match (h.die d).passAt with | none => true | some a => decide (a + p ≤ t)
  if h.dieUp d && due && !h.passOn d && decide (h.now ≤ t) && decide (3 ≤ h.get STN_BOOT_STEP 0) then
    let h := { h with now := t }
    let l := (h.thOn d).filter (fun n => !bit (h.get TH_SUP_STAT_EMERG d) n)
    (h.modD d (fun x => { x with passAt := some t, thQ := x.thQ ++ l.map (fun n => (1, n)) })).thIssue 12 d
  else h

/-- THERM_EMERGENCY at instant `t` (R345): each sensor at STOP or above, every 1 ms. -/
def Hw.thermEmergency (h : Hw) (d t : Nat) : Hw :=
  let due := match (h.die d).emergAt with | none => true | some a => decide (a + t1ms ≤ t)
  let a := h.arb (.aux d)
  let l := (h.thOn d).filter (fun n => bit (h.get TH_SUP_STAT_EMERG d) n &&
    !((h.die d).thQ.any (fun p => p.2 == n) || (a.hold ++ a.pend).any (fun q => q.who == 32 + n || q.who == 16 + n)))
  if h.dieUp d && due && decide (h.now ≤ t) && !l.isEmpty then
    let h := { h with now := t }
    (h.modD d (fun x => { x with emergAt := some t, thQ := l.map (fun n => (2, n)) ++ x.thQ })).thIssue 12 d
  else h

/-- TH_CMD.GO (R345). -/
def Hw.thConvert (h : Hw) (d s : Nat) : Hw :=
  let busy := h.flag TH_CMD_GO d
  let h := h.cond (!busy) (fun h => h.put TH_CMD_SENSOR d s)
  if 11 < s ∨ h.get TH_SCFG_TYPE (d * 12 + s) = 0 then h.put TH_CMD_RESULT d 1
  else if busy then h.put TH_CMD_RESULT d 2
  else ((h.put TH_CMD_GO d 1).put TH_CMD_RESULT d 0).tokReq (.aux d) { who := 3 * 16 + s, rank := 6 }

/-! ### Compensation (R354, R355) -/

/-- A compensation table evaluated at a temperature (R354); `a` is the address of entry 0. -/
def Hw.compTable (h : Hw) (a : Nat) (t : Int) : Int :=
  let e := fun i => sx32 (h.rd32 (a + 4 * i))
  if t ≤ -2560 then e 0
  else if 7680 ≤ t then e 32
  else
    let x := (t + 2560).toNat
    let i : Nat := x / 320
    let f : Nat := x % 320
    rdiv (e i * 320 + (e (i + 1) - e i) * (f : Int)) 320

/-- A value moved toward another by at most a step. -/
def stepTo (step cur new : Int) : Int := cur + clampTo step (new - cur)

/-- A new REF value for every unit of a die (R355): it takes effect at once where the loop is open, else it waits for the unit's next
boundary. -/
def Hw.refWait (h : Hw) (d : Nat) (v : Int) : Hw :=
  h.each ((List.range 32).map (· + 32 * d) ++ [256 + 2 * d, 257 + 2 * d]) (fun h u => h.modU u (fun x =>
    if h.flag U_STATE_LOOP u then { x with refNew := some v } else { x with refNew := none, refIn := v }))

/-- The tables evaluated at T_d when the last conversion of a compensation period is done. -/
def Hw.compDone (h : Hw) (d : Nat) : Hw :=
  let l := (List.range 4).filter (fun n => h.flag TH_RAW_VALID (d * 12 + n) && !(h.th (d * 12 + n)).bad)
  if l.isEmpty then h
  else
    let t := rdiv (l.foldl (fun (a : Int) n => a + t16 (h.get TH_VAL_TEMP (d * 12 + n))) 0) l.length
    let h := h.put TH_DIE_T_TEMP d (toW 16 t)
    let b := h.get TH_COMP_CFG_BLOCK d
    if !h.flag TH_COMP_CFG_EN d || decide (95 < b) then h
    else
      let a := coefBase d + b * 4096
      let step : Int := h.get TH_COMP_CFG_MAXSTEP d
      let v := stepTo step (h.code TH_COMP_REF_PPB d) (h.compTable a t)
      let h := (h.putC TH_COMP_REF_PPB d v).refWait d v
      if d = h.bootDie then
        h.modD d (fun x => { x with osc := some (stepTo step (h.code TH_COMP_OSC_PPB d) (h.compTable (a + 256) t)) })
      else h

/-- COMP_UPDATE: a compensation period begins, COMPP × 100 ms after the start of the one before; the internal sensors are converted at
rank 5 (R345, R354). -/
def Hw.compUpdate (h : Hw) (d : Nat) : Hw :=
  if h.dieUp d && h.get TH_SUP_CFG_COMPP d != 0 && (h.die d).compW.isEmpty then
    let t := match (h.die d).compAt with | some a => max h.now (a + h.get TH_SUP_CFG_COMPP d * 100 * t1ms) | none => h.now
    let h := { h.modD d (fun x => { x with compAt := some t }) with now := t }
    h.each [0, 1, 2, 3] (fun h n => (h.modD d (fun x => { x with compW := x.compW ++ [n] })).tokReq (.aux d) { who := 4 * 16 + n, rank := 5 })
  else h

/-- OSC_COMP_APPLY at tick `t`, a multiple of 4,096 (R355). -/
def Hw.oscApply (h : Hw) (t : Nat) : Hw :=
  let d := h.bootDie
  match (h.die d).osc with
  | none => h
  | some v =>
    if t % 4096 = 0 ∧ h.now ≤ t ∧ (h.get STN_METRO_STAT_ACT_SRC 0 = 3 ∨ h.flag STN_METRO_STAT_HOLDOVER 0) then
      let h := { h with now := t }
      (h.putC TH_COMP_OSC_PPB d v).modD d (fun x => { x with osc := none })
    else h

/-! ### Delivery (R344, R236) -/

/-- TT_THERM_RES of an engine (R236). -/
def Hw.ttTherm (h : Hw) (e n : Nat) : Hw :=
  let k := e / 8 * 12 + n
  let h := ((h.put TT_THERM_RES_TEMP e (h.get TH_VAL_TEMP k)).put TT_THERM_RES_VALID e 1).put TT_THERM_RES_SUBST e (h.get TH_VAL_SUBST k)
  (h.put TT_THERM_RES_SENSOR e n).modE e (fun x => { x with thermOut := false, thermDone := true })

/-- A temperature conversion delivered to its requester, and the token released. -/
def Hw.thDeliver (h : Hw) (d who : Nat) : Hw :=
  let kind := who / 16
  let n := who % 16
  let h := h.tokRel (.aux d) who
  match kind with
  | 1 | 2 => h.thIssue 12 d
  | 3 => h.put TH_CMD_GO d 0
  | 4 =>
    let h := h.modD d (fun x => { x with compW := x.compW.filter (· != n) })
    if (h.die d).compW.isEmpty then h.compDone d else h
  | 5 => h
  | _ => if 6 ≤ kind ∧ kind < 14 then h.ttTherm (d * 8 + (kind - 6)) n else h

end Sys2Proof.Machine
end

