-- ==== Sys2Proof/Machine/Siding.lean ====
section
/-! DEFINITION. Visits and stand-ins: their records, the shadow's comparison at each tick, their end, and what an Interlocking
action or a fault does to them (R291, R292, R298 to R302, R306 to R309). A visit of siding `s` of die `d` is number 2·d + s, a
stand-in 16 more. -/

namespace Sys2Proof.Machine

/-- The visit or stand-in of a number. -/
def Hw.visit (h : Hw) (k : Nat) : VisitS := tget h.visits k {}

/-- A visit or stand-in changed. -/
def Hw.modVis (h : Hw) (k : Nat) (f : VisitS → VisitS) : Hw := { h with visits := tset h.visits k (f (h.visit k)) }

/-- A siding beside its registers. -/
def Hw.sid (h : Hw) (i : Nat) : SidS := tget h.sids i {}

/-- A siding changed. -/
def Hw.modSid (h : Hw) (i : Nat) (f : SidS → SidS) : Hw := { h with sids := tset h.sids i (f (h.sid i)) }

/-- The die of a visit. -/
def visDie (k : Nat) : Nat := k % 16 / 2

/-- The siding of a visit, 0 S0 or 1 S1. -/
def visSid (k : Nat) : Nat := k % 2

/-- The unit number of a visit's siding. -/
def sidUnit (k : Nat) : Nat := 256 + k % 16

/-- The token of a visit's siding, and who holds it. -/
def visTok (k : Nat) : Res := .siding (visDie k) (visSid k)

/-- The number under which a visit (1) or stand-in (2) asks for the siding's token. -/
def visWho (k : Nat) : Nat := if k < 16 then 1 else 2

/-- The unit of a channel or siding index 0 to 33 of a die. -/
def unitAt (d ch : Nat) : Nat := if ch < 32 then d * 32 + ch else 256 + d * 2 + (ch - 32) % 2

/-- The aux request of a visit's conversion `n`: internal sensors 0 to 3, and 4 for CALREF. -/
def visAux (k n : Nat) : Nat := 5 * 16 + visSid k * 8 + n

/-- The conversions of a visit's checks requested at rank 5 (R36, R307). -/
def Hw.visConv (h : Hw) (k : Nat) : Hw :=
  let h := h.modVis k (fun v => { v with need := [0, 1, 2, 3, 4], hot := false, ratio := 0 })
  h.each [0, 1, 2, 3, 4] (fun h n => h.tokReq (.aux (visDie k)) { who := visAux k n, rank := 5 })

/-- A visit or stand-in is over: its tokens and requests are given up, and its siding is free. -/
def Hw.visClose (h : Hw) (k : Nat) : Hw :=
  let v := h.visit k
  let d := visDie k
  let h := h.each v.need (fun h n => (h.tokDrop (.aux d) (visAux k n)).tokRel (.aux d) (visAux k n))
  let h := if v.phase = 5 then (h.tokDrop (.cal d) (visSid k)).tokRel (.cal d) (visSid k) else h
  let h := ((h.tokDrop (visTok k) (visWho k)).tokRel (visTok k) (visWho k))
  let h := ((h.put CAL_SID_PHASE d 0 (visSid k)).put CAL_SID_STANDIN d 0 (visSid k)).put CAL_SID_CH d 0 (visSid k)
  let h := if v.cmd then h.put CAL_CMD_BUSY d 0 else h
  let h := if v.taken && decide (4 ≤ v.phase) then h.modSid (k % 16) (fun x => { x with lastU := some v.u }) else h
  let h := h.modU v.u (fun x => { x with shadow := if x.shadow = some k then none else x.shadow })
  { h with visits := tdel h.visits k }

/-- The outcome of a visit written, once (R309); a siding's own visit that was made is remembered (R307). -/
def Hw.visTell (h : Hw) (k outcome reason : Nat) : Hw :=
  let v := h.visit k
  if v.told then h
  else
    let h := (h.calEnd (visDie k) (chanOf v.u) outcome reason).modVis k (fun v => { v with told := true })
    if isSiding v.u && outcome != 1 then h.modSid (k % 16) (fun x => { x with rejected := decide (outcome = 2), visitAt := h.now }) else h

/-- The return shadow begins (R301). -/
def Hw.startReturn (h : Hw) (k : Nat) : Hw :=
  let u := (h.visit k).u
  let h := h.modVis k (fun v => { v with phase := 6, at_ := h.now, periods := 0, diffs := [], tolBad := false })
  (h.put CAL_SID_PHASE (visDie k) 3 (visSid k)).modU u (fun x => { x with shadow := some k })

/-- A visit ends without corrections: a channel that was taken over is returned (R301, R304, R308). -/
def Hw.visFail (h : Hw) (k outcome reason : Nat) : Hw :=
  let v := h.visit k
  let d := visDie k
  let h := h.visTell k outcome reason
  if v.taken && h.servedBy v.u == some (sidUnit k) then
    let h := h.each v.need (fun h n => (h.tokDrop (.aux d) (visAux k n)).tokRel (.aux d) (visAux k n))
    let h := if v.phase = 5 then (h.tokDrop (.cal d) (visSid k)).tokRel (.cal d) (visSid k) else h
    (h.modVis k (fun v => { v with need := [], steps := [], words := [], ok := false })).startReturn k
  else h.visClose k

/-- L, the least shadow in loop periods (R299). -/
def Hw.shadowLen (h : Hw) (u : Nat) : Nat :=
  let w := (List.range 3).foldl (fun m p => max m (tget (h.unit u).mdec p {}).window) 0
  let dl := h.period u / 4
  max (h.dcfg u).smin ((w + dl - 1) / dl + 3)

/-- A path of a channel as the converters of `s` give it (R294). -/
def Hw.pathBy (h : Hw) (s u path : Nat) (y : Int) (g : Nat) : Int :=
  let p := h.pathSet u path
  decOut (h.corr s path p.1 u p.2) y g

/-- Voltage and designated current of a channel as the converters of `s` give them at a loop tick. -/
def Hw.viBy (h : Hw) (s u : Nat) (x : Sample) : Int × Int :=
  let g := (h.period u / 4) ^ 3
  let y := loopSum (h.period u)
  (h.pathBy s u 0 (y x.vs) g, if h.flag U_RANGE_STAT_DES u then h.pathBy s u 2 (y x.sh) g else h.pathBy s u 1 (y x.is) g)

/-- Sums of the differences of 64 ticks are within the tolerance on their mean (R299). -/
def Hw.tolOk (h : Hw) (u : Nat) (l : List (Int × Int)) : Bool :=
  let t : Int := 64 * (h.dcfg u).tol
  l.length == 64 && decide (iabs (l.foldl (fun a x => a + x.1) 0) ≤ t) && decide (iabs (l.foldl (fun a x => a + x.2) 0) ≤ t)

/-- The converters that a shadow compares with those in use: the siding's before the handover, the channel's own before the
return. -/
def Hw.otherConv (h : Hw) (k u : Nat) : Nat := if (h.visit k).phase = 6 then u else sidUnit k

/-- The shadow of a channel at a tick: the difference of the two converters' samples, and at a boundary once L periods have passed,
whether the tolerance fails (R299, R301). -/
def Hw.sidTick (h : Hw) (u : Nat) (smp : List (Nat × Sample)) (boundary : Bool) : Hw :=
  match (h.unit u).shadow with
  | none => h
  | some k =>
    let o := h.otherConv k u
    let (v, i) := h.viBy o u (tget smp o {})
    let s := (h.unit u).smp
    let x := h.visit k
    let l := ((v - s.v, i - s.iRaw) :: x.diffs).take 64
    h.modVis k (fun x => { x with
      periods := x.periods + 1, diffs := l,
      tolBad := x.tolBad || (boundary && decide (h.shadowLen u ≤ x.periods) && !h.tolOk u l) })

/-- A fault was raised on a channel's unit at its last tick, since instant `t` (R302). -/
def Hw.faultedSince (h : Hw) (u t : Nat) : Bool :=
  let v := h.headOf u
  let f := (h.unit v).flt
  f.any && f.tick == (h.unit v).clk.last && decide (t ≤ f.tick)

/-- A takeover in its shadow whose channel left CONNECTED_OPEN and CLOSED, or takes a fault, whatever its action, is abandoned (R302). -/
def Hw.tkoReact (h : Hw) (u : Nat) : Hw :=
  match (h.unit u).shadow with
  | none => h
  | some k =>
    if (h.visit k).phase == 3 && (!(h.st u == stOPEN || h.st u == stCLOSED) || h.faultedSince u (h.visit k).at_) then h.visFail k 1 7 else h

/-- The reactions of a unit's channels. -/
def Hw.tkoReactAll (h : Hw) (u : Nat) : Hw := h.each (h.leaves u) (fun h m => h.tkoReact m)

/-- The visits and stand-ins that have a channel on their siding. -/
def Hw.visOf (h : Hw) (u : Nat) : List Nat :=
  (h.visits.filter (fun p => p.2.u == u && decide (4 ≤ p.2.phase) && p.2.taken)).map (fun p => p.1)

/-- A SIDED channel reached ISOLATED or FAULTED, isolated, at tick `n`: its siding returns at once to converters that sensed nothing (R160); accepted results apply, a visit
otherwise ends CAL_SKIP (R302). -/
def Hw.sidIsolated (h : Hw) (u n : Nat) : Hw :=
  if (h.servedBy u).isNone then h
  else
    let l := h.visOf u
    let h := (((h.modU u (fun x => { x with sid := none, shadow := none })).dacTake u).otShow u).newConv u n
    h.each l (fun h k =>
      let v := h.visit k
      let h := if v.kind ≠ 0 then h
        else if v.ok then
          let h := (h.calWait u v.words.reverse true).modVis k (fun v => { v with told := true })
          h.calApply u n
        else h.visTell k 1 8
      h.visClose k)

end Sys2Proof.Machine
end

