-- ==== Sys2Proof/Machine/Tick.lean ====
section
/-! DEFINITION. The loop tick of a unit and the guard instant before it (R25 to R28, R70 to R95, R121 to R124): the period's work
is committed or dropped, samples are latched, the watch judges them, and then commands, the timetable, the pop and the slew
act, before the next period's work is planned. A consist ticks with every member under it in this station (R53). -/

namespace Sys2Proof.Machine

/-! ### Injection boundaries (R18 to R20) -/

/-- A bin of the unit opens at the tick: its step, point or entry, on time, opens one (R19). -/
def Hw.willOpen (h : Hw) (u : Nat) : Bool :=
  match h.engOf u with
  | none => false
  | some e =>
    let x := h.eng e
    h.get TT_STAT_STATE e == 1 &&
      ((match x.openIn with | some (k, _) => decide (k ≤ 1) | none => false) ||
       (!(h.unit u).clk.stepLate && decide (x.togo ≤ 1) && (match x.ready with | some a => a.opn != 0 | none => false)))

/-- The next tick is an injection boundary (R19): the loop is open, a bin closed at the last tick, or no bin is open. -/
def Hw.boundary (h : Hw) (u : Nat) : Bool :=
  !h.flag U_STATE_LOOP u || (h.unit u).closedBin || (!h.anyOpen u && !h.willOpen u)

/-- A pending table pointer takes effect (R113). -/
def Hw.applyPtr (h : Hw) (u : Nat) (pend act blk en bl : Fld) : Hw :=
  if h.flag pend u then
    let h := h.put pend u 0
    if 95 < h.get bl u then (h.put act u 0).put U_TBL_STAT_BAD u 1
    else (h.put act u (h.get en u)).put blk u (h.get bl u)
  else h

/-- Every product waiting for a unit takes effect at tick `n` (R20, R104, R113, R159, R297, R355). -/
def Hw.inject (h : Hw) (u n : Nat) : Hw :=
  let h := h.each (h.tree u) (fun h m =>
    let h := h.applyPtr m U_TBL_STAT_FF_PEND U_TBL_STAT_FF_ACT U_TBL_STAT_FF_BLOCK U_FF_PTR_EN U_FF_PTR_BLOCK
    let h := h.applyPtr m U_TBL_STAT_LEAK_PEND U_TBL_STAT_LEAK_ACT U_TBL_STAT_LEAK_BLOCK U_LEAK_PTR_EN U_LEAK_PTR_BLOCK
    let h := (h.calApply m n).modU m (fun x => { x with refIn := x.refNew.getD x.refIn, refNew := none })
    match (h.unit m).law.derate with
    | some d => (h.put U_PWL_DERATE_D m d).modU m (fun x => { x with law := { x.law with derate := none } })
    | none => h)
  (h.each (List.range 3) (fun h path => h.mdecApply u path n)).markCalMid u

/-! ### Commit or drop (R28, R89, R116, R122, R126) -/

/-- The work of a unit committed at tick `n`; the commit port stops a tagged one (R33). -/
def Hw.commitWork (h : Hw) (u n : Nat) (head : Bool) : Hw :=
  match (h.unit u).law.work with
  | none => h
  | some w =>
    if w.tag then (h.modU u (fun x => { x with law := { x.law with work := none } })).specBlock u
    else
    let h := h.putC U_DRV_CODE_CODE u w.drive
    let h := if w.limited && isPlain u then h.put U_DRV_STAT_LIMITED u 1 else h
    let h := h.putC U_SHARE_CORR_CODE u w.corr
    let h := h.modU u (fun x => { x with law := { x.law with z := w.z, zs := w.zs, nodes := w.nodes, work := none } })
    if head && w.closed && h.flag U_STATE_LOOP u then
      let h := (h.put U_STATE_WIN u w.win).putB U_STATE_COMPLIANCE u (w.win != 0)
      h.modU u (fun x => { x with law := { x.law with init := none, complAt := if w.win = 0 then x.law.complAt else some n } })
    else h

/-- A late period (R122): the drive repeats, every candidate value is discarded, and the counters advance. -/
def Hw.dropWork (h : Hw) (u n : Nat) : Hw :=
  let lr := max 1 (h.get U_LATE_CFG_LATE_RUN u)
  let h := h.each (h.tree u) (fun h m => h.modU m (fun x => { x with law := { x.law with work := none } }))
  let h := match (h.unit u).law.init with
    | some g => h.putC U_DRV_CODE_CODE u (clampTo (h.drvLim u) g)
    | none => h
  let h := h.inc U_LATE_COUNT_COUNT u
  let run := h.get U_LATE_STAT_RUN u
  let run' := if run < lr then run + 1 else run
  let h := (h.put U_LATE_STAT_RUN u run').put U_LATE_STAT_MAX u (max (h.get U_LATE_STAT_MAX u) run')
  if h.flag U_STATE_COMPLIANCE u then h.modU u (fun x => { x with law := { x.law with complAt := some n } }) else h

/-- The period's work of a unit and its members at tick `n`; where the buffer is LOW nothing drives DRV, and the code is 0 (R91,
R95; notes/assumptions/50.md). The committed code reaches the modulator input at this tick (R89, R295). -/
def Hw.commitTick (h : Hw) (u n : Nat) (late : Bool) : Hw :=
  let h := h.each (h.tree u) (fun h m => h.modU m (fun x => { x with law := { x.law with prevCompl := h.flag U_STATE_COMPLIANCE m } }))
  let h := if late then h.dropWork u n
    else
      let h := h.each (h.tree u) (fun h m => h.commitWork m n (m == u))
      (h.put U_LATE_STAT_RUN u 0).modW u (fun w => { w with rLate := false })
  let h := h.each (h.tree u) (fun h m => if h.bufMode m = 0 then h.put U_DRV_CODE_CODE m 0 else h)
  h.each (h.tree u) (fun h m => if isPlain m then h.dacTake m else h)

/-! ### Samples (R102, R136, R155, R163, R195) -/

/-- A path setting in force since tick `a` gives settled samples at `n` (R195). -/
def settled (p a n : Nat) : Bool := decide (a + 3 * p ≤ n)

/-- The samples of a channel or siding latched at tick `n`. -/
def Hw.latchLeaf (h : Hw) (u n p : Nat) (s : Sample) : Hw :=
  let g := (p / 4) ^ 3
  let y := loopSum p
  let fired := fun (l : List Bool) => (l.take (p / 4)).any id
  let ovV := fired s.ovV
  let ovS := fired s.ovS
  let x := h.unit u
  let des := h.flag U_RANGE_STAT_DES u
  let spec := h.flag U_RANGE_STAT_SH_SPEC u
  let v := h.pathOut u 0 (y s.vs) g
  let a := h.pathOut u 1 (y s.is) g
  let b := h.pathOut u 2 (y s.sh) g
  let i := if des then b else a
  let ovI := if des then ovS else fired s.ovI
  let h := h.modU u (fun z => { z with smp := {
    v := v, iRaw := i, iFb := satM (i - h.leak u v), isv := a, sh := b, shC := if spec then x.smp.shC else b,
    ovV := ovV, ovI := ovI, ovS := ovS, cmV := s.cmV, cmI := s.cmI,
    setI := settled p (if des then x.rng.shAt else x.rng.isAt) n, setV := settled p x.rng.vsAt n,
    setS := settled p x.rng.shAt n, sided := x.sid.isSome } })
  let h := (h.putB U_MEAS_STAT_OVR_V u ovV).putB U_MEAS_STAT_OVR_I u ovI
  if spec then h else h.putB U_MEAS_STAT_OVR_SH u ovS

/-- The feedback of a coupled consist from its members' samples (R46); a follower's is its latest report (R56). That i_fb is the combination
less the consist's own LEAK is the model's choice (notes/assumptions/74.md). So is the 0 that stands for a follower that has not reported
yet (notes/assumptions/93.md). -/
def Hw.latchConsist (h : Hw) (c : Nat) : Hw :=
  let l := h.locals c
  let rep := fun ix => tget (h.unit c).cons.rep ix 0
  let get := fun (f : SmpS → Int) => h.combine c (h.isShared c false) (fun m => f (h.unit m).smp) rep
  let v := h.combine c (h.isShared c true) (fun m => (h.unit m).smp.v) rep
  let i := get SmpS.iRaw
  let any := fun (sum : Bool) (f : SmpS → Bool) => (if sum then l else [h.lead1 c]).any (fun m => f (h.unit m).smp)
  let all := fun (sum : Bool) (f : SmpS → Bool) => (if sum then l else [h.lead1 c]).all (fun m => f (h.unit m).smp)
  let sv := h.isShared c true
  let si := h.isShared c false
  let spec := h.flag U_RANGE_STAT_SH_SPEC c
  let h := (h.putB U_MEAS_STAT_OVR_V c (any sv SmpS.ovV)).putB U_MEAS_STAT_OVR_I c (any si SmpS.ovI)
  let h := if spec then h else h.putB U_MEAS_STAT_OVR_SH c (any si SmpS.ovS)
  h.modU c (fun y => { y with smp := {
    v := v, iRaw := i, iFb := satM (i - h.leak c v), isv := get SmpS.isv, sh := get SmpS.sh, shC := get SmpS.shC,
    ovV := any sv SmpS.ovV, ovI := any si SmpS.ovI, ovS := any si SmpS.ovS, cmV := any sv SmpS.cmV, cmI := any si SmpS.cmI,
    setI := all si SmpS.setI, setV := all sv SmpS.setV, setS := all si SmpS.setS, sided := l.any (fun m => (h.unit m).smp.sided) } })

/-- The samples of a unit and its members at tick `n`, members first; samples are listed by the channel or siding whose converters
deliver them (R294). -/
def Hw.latch (h : Hw) (u n : Nat) (smp : List (Nat × Sample)) : Hw :=
  let p := h.period u
  h.each (h.tree u).reverse (fun h m => if isPlain m then h.latchLeaf m n p (tget smp (h.convOf m) {}) else h.latchConsist m)

/-- The loop samples of a tick offered to the unit's bins (R165, R166, R204). -/
def Hw.loopOffer (h : Hw) (u n : Nat) : Hw :=
  let s := (h.unit u).smp
  let w := n - 3 * h.period u
  let marked := (h.unit u).law.prevCompl
  h.each (List.range 4) (fun h b =>
    let src := (h.bin u b).src
    if src / 4 % 2 = 1 then
      let r := h.rngId u (src % 4)
      match src % 4 with
      | 0 => if s.setV then h.offer u b s.v n w r s.ovV marked s.sided else h
      | 1 => if s.setI then h.offer u b s.iFb n w r s.ovI marked s.sided else h
      | 2 => if s.setI && s.setV then h.offer u b (powerOf s.v s.iFb) n w r (s.ovV || s.ovI) marked s.sided else h
      | _ => if s.setS && !h.flag U_RANGE_STAT_SH_SPEC u then h.offer u b s.sh n w r s.ovS marked s.sided else h
    else h)

/-! ### Pop and slew (R70 to R72, R79, R84 to R88) -/

/-- The re-clamp of R85: made before the pop and the slew step. -/
def Hw.reclamp (h : Hw) (u : Nat) : Hw :=
  let c := h.code U_CEIL_EFF_CODE u
  let t := h.code U_REF_TARGET_CODE u
  let r := h.code U_REF_SLEWED_CODE u
  if clampTo c t = t ∧ clampTo c r = r then h
  else ((h.putC U_REF_TARGET_CODE u (clampTo c t)).putC U_REF_SLEWED_CODE u (clampTo c r)).put U_FLAGS_CEIL u 1

/-- The entries that a FLUSH names are discarded (R79). -/
def Hw.doFlush (h : Hw) (u : Nat) : Hw :=
  let r := (h.unit u).ref
  (h.modU u (fun x => { x with ref := { x.ref with q := r.q.drop r.flush, ready := r.ready - r.flush, flush := 0 } })).put
    U_REF_CMD_FLUSH u 0

/-- The pop of a tick (R70, R72, R84, R88). -/
def Hw.pop (h : Hw) (u : Nat) : Hw :=
  let r := (h.unit u).ref
  let st := h.st u
  let off := st == stISOLATED || st == stCHECKING || st == stFAULTED
  let h := if off then h.zeroRef u else h
  let h := if (h.unit u).safe.ramp then h.put U_REF_TARGET_CODE u 0 else h
  if r.ready = 0 then h
  else match r.q with
    | [] => h.modU u (fun x => { x with ref := { x.ref with ready := 0 } })
    | e :: q =>
      let h := h.modU u (fun x => { x with ref := { x.ref with q := q, ready := 0 } })
      if off || (h.unit u).safe.ramp then (if e.src = 0 then h.put U_REF_STAT_HOST_IGN u 1 else h)
      else
        let c := h.code U_CEIL_EFF_CODE u
        let t := clampTo c e.value
        let h := (h.putC U_REF_TARGET_CODE u t).modU u (fun x => { x with ref := { x.ref with ovr := e.ovr } })
        if t = e.value then h else h.put U_FLAGS_CEIL u 1

/-- The slew step of a tick (R86, R87). -/
def Hw.slew (h : Hw) (u n : Nat) : Hw :=
  let r := h.code U_REF_SLEWED_CODE u
  let (a, b) := h.rates u
  (h.putC U_REF_SLEWED_CODE u (slewStep (h.code U_REF_TARGET_CODE u) r a b)).modU u (fun x => { x with ref := { x.ref with
    rBefore := r, slewAt := some n } })

/-- The force path of a tick up to r_s(n) (R70). -/
def Hw.popTick (h : Hw) (u n : Nat) : Hw := ((((h.reclamp u).doFlush u).pop u).slew u n)

/-- Records closed at tick `n` by the units of a tree take the slewed reference that the tick commits, r_s(n) (R269). -/
def Hw.recRefs (h : Hw) (u n : Nat) : Hw :=
  h.each ((h.tree u).map ownDie).eraseDups (fun h d =>
    if (h.die d).recs.any (fun r => r.tick == n) then
      h.modD d (fun x => { x with recs := x.recs.map (fun r =>
        if r.tick = n ∧ (h.tree u).contains r.unit then { r with words := r.words.set 22 (h.get U_REF_SLEWED_CODE r.unit) } else r) })
    else h)

/-! ### The ramp and its end (R88, R141, R142, R333) -/

/-- The unit enters FAULTED, connected, at the end of a ramp to zero under ZERO, holding the last committed drive (R141). -/
def Hw.rampFaulted (h : Hw) (u : Nat) : Hw :=
  let h := if h.flag U_STATE_LOOP u then h.openLoop u else h.put U_DRV_HOLD_CODE u (h.get U_DRV_CODE_CODE u)
  let h := h.setSt u stFAULTED
  let h := (h.setIsoFlag u 0).modS u (fun s => { s with ramp := false, rampDone := true })
  h.zeroRef u

/-- The ramp's state after the slew step of tick `n`. With the loop closed the drive held under ZERO is the one the laws committed
for the zero reference: the loop opens a tick after r_s has come to 0 (R141). -/
def Hw.rampTick (h : Hw) (u : Nat) : Hw :=
  let h := h.modS u (fun s => { s with inTh := if h.inSafeTh u then min 4 (s.inTh + 1) else 0 })
  let s := (h.unit u).safe
  let cl := h.flag U_STATE_LOOP u
  let zero := if cl then decide (h.code U_REF_SLEWED_CODE u = 0) else decide (h.code U_DRV_CODE_CODE u = 0)
  if s.ramp && zero then
    match s.fin with
    | .faultedConnected => if cl && !s.rampDone then h.modS u (fun s => { s with rampDone := true }) else h.rampFaulted u
    | _ =>
      let h := h.modS u (fun s => { s with rampDone := true })
      if h.st u == stFAULTED then (h.modS u (fun s => { s with ramp := false })).put U_DRV_HOLD_CODE u (h.get U_DRV_CODE_CODE u) else h
  else h

/-! ### The tick -/

/-- A pending write of the rate. -/
def isRate (p : Pend) : Bool := match p.act with | .word 0xA0 _ => true | _ => false

/-- The loop period that a pending write of the rate calls for (R128). -/
def rateOf (p : Pend) : Nat := match p.act with | .word _ v => ratePeriod (bits v 2 0) | _ => 1

/-- A pending write of the rate whose guard instant has passed, at a tick of the new rate (R128). -/
def Pend.rateFits (p : Pend) (n : Nat) : Bool := isRate p && p.ready && n % rateOf p == 0

/-- The rate that takes effect at tick `n` (R11, R128): of several writes the last served. -/
def Hw.rateAt (h : Hw) (u n : Nat) : Option Nat :=
  if h.flag U_STATE_LOOP u then none
  else (h.unit u).pend.reverse.findSome? (fun p => match p.act with | .word _ v => if p.rateFits n then some (bits v 2 0) else none | _ => none)

/-- The writes of the rate that have not taken effect or been overtaken at tick `n`: those after the last that has stay. -/
def dropRates (n : Nat) : List Pend → List Pend
  | [] => []
  | p :: l => if isRate p && p.ready && (p :: l).any (fun q => q.rateFits n) then dropRates n l else p :: dropRates n l

/-- The earliest count that can be a unit's next loop tick (R25, R128). -/
def Hw.nextTick (h : Hw) (u : Nat) : Nat :=
  let c := (h.unit u).clk
  let a := max c.floor (if c.ticked then max (c.last + 1) h.now else h.now)
  let ps := if h.flag U_STATE_LOOP u then [] else ((h.unit u).pend.filter isRate).map rateOf
  ps.foldl (fun m p => min m (ceilTo p a)) (ceilTo (h.period u) a)

/-- `n` can be the next loop tick of a unit that ticks by itself (R25, R128). -/
def Hw.tickOk (h : Hw) (u n : Nat) : Bool :=
  let c := (h.unit u).clk
  isUnit u && h.runs u && h.headOf u == u && decide (h.now ≤ n) && decide (c.floor ≤ n) && (!c.ticked || decide (c.last < n)) &&
    (n % h.period u == 0 || (h.rateAt u n).isSome)

/-- Actions of a unit that wait and are ready, of one kind, applied and removed. -/
def Hw.pendRun (h : Hw) (u : Nat) (sel : PendAct → Bool) (f : Hw → PendAct → Hw) : Hw :=
  let l := (h.unit u).pend.filter (fun p => p.ready && sel p.act)
  let h := h.modU u (fun x => { x with pend := x.pend.filter (fun p => !(p.ready && sel p.act)) })
  h.each l (fun h p => f h p.act)

/-- A word of the window without LCK fields: its write does not depend on the loop (R11). -/
def earlyWord (a : PendAct) : Bool := match a with | .word off _ => !hasAcc .unit off .lck | _ => false

/-- A word with LCK fields. -/
def lateWord (a : PendAct) : Bool := match a with | .word off _ => hasAcc .unit off .lck | _ => false

/-- A write of a word at tick `n`. -/
def Hw.runWord (h : Hw) (u : Nat) (a : PendAct) : Hw := match a with | .word off v => h.wordAtTick u off v | _ => h

/-- A fault that the last tick calls for has not been taken yet. -/
def Hw.faultDue (h : Hw) (u : Nat) : Bool :=
  (!(h.unit u).wat.rLate && decide (max 1 (h.get U_LATE_CFG_LATE_RUN u) ≤ h.get U_LATE_STAT_RUN u)) ||
  (!(h.unit u).wat.rFe && decide (max 1 (h.get U_FE_CFG_FE_TIME u) ≤ h.get U_SUP_STAT_FE_RUN u)) ||
  (h.tree u).any (fun m => (!(h.unit m).wat.rSlw && decide (max 1 (h.get U_SENSE_CFG_SLW_N m) ≤ h.get U_SUP_STAT_SLW_RUN m)) ||
    h.frzDue m || h.ceilDue m)

/-- The writes of the rate that tick `n` does not judge keep waiting (R128). -/
def waitsRate (n : Nat) (p : PendAct) : Bool := match p with | .word 0xA0 v => n % ratePeriod (bits v 2 0) != 0 | _ => false

/-- The U_MODE.LAW of the last word of U_MODE that waits and is ready (R446). -/
def Hw.lawDue (h : Hw) (u : Nat) : Option Nat :=
  (h.unit u).pend.reverse.findSome? (fun p => match p.act with | .word 0x40 v => if p.ready then some (bits v 2 1) else none | _ => none)

/-- The range writes due at tick `n`. -/
def Hw.rangesTick (h : Hw) (u n : Nat) : Hw :=
  h.pendRun u (fun a => match a with | .range _ _ _ => true | _ => false)
    (fun h a => match a with
      | .range i v r => h.rangeWrite u n (if bit r 0 then some i else none) (if bit r 1 then some v else none)
          (if bit r 2 then some (r / 8) else none)
      | _ => h)

/-- What tick `n` does before any loop command, in the order of R124: a clear and a connect or isolate request (with the ranges that a
CHECKING it enters uses), then the writes with LCK fields, then the law set that a new U_MODE.LAW loads. -/
def Hw.settingsTick (h : Hw) (u n : Nat) : Hw :=
  let h := h.pendRun u (fun a => match a with | .clear => true | _ => false) (fun h _ => h.clearAtTick u n)
  let h := if h.st u == stISOLATED then h.rangesTick u n else h
  let h := h.pendRun u (fun a => match a with | .conn _ => true | _ => false)
    (fun h a => match a with | .conn c => h.connAtTick u n c | _ => h)
  let law := h.lawDue u
  let h := h.each (h.tree u) (fun h m => h.pendRun m (fun a => lateWord a && !(m == u && waitsRate n a)) (fun h a => h.runWord m a))
  match law with | some l => h.lawWrite u l | none => h

/-- The loop commands of one sort that are due at a tick (R123, R124). -/
def Hw.loopsOf (h : Hw) (u : Nat) (sel : Nat → Bool) : Hw :=
  h.pendRun u (fun a => match a with | .loop c _ _ => sel c | _ => false)
    (fun h a => match a with | .loop c m l => h.loopCmd u c m l | _ => h)

/-- What a tick does with a step of the bound engine and the loop commands due (R124, R218): the step's requests and its writes, loads, opens, and
then what closes or switches: the commands of masters first, so that the step's own stands: the model's choice
(notes/assumptions/89.md). -/
def Hw.stepMake (h : Hw) (u n : Nat) (late cl : Bool) : Hw :=
  let h := match h.engOf u with | some e => h.engPre e n late cl | none => h
  let h := ((h.loopsOf u (· == 4)).loopsOf u (· == 2)).loopsOf u (fun _ => true)
  match h.engOf u with | some e => h.engLoops e n cl | none => h

/-- The step with waits that may hold at its tick goes on past those whose condition holds there, with all that precedes them made (R217). -/
def Hw.stepPick (h : Hw) (u e n : Nat) (cl : Bool) : List EngBack → Hw
  | [] => h.modE e (fun x => { x with parts := [] })
  | b :: l =>
    let g := h.usePart e b
    match b.acc.fin with
    | .act (.wait _) =>
      let t := g.stepMake u n false cl
      let ok := match (t.eng e).ready with
        | some { fin := .act (.wait c), .. } => t.get TT_STAT_STATE e == 1 && t.waitHolds e c
        | _ => false
      if ok then h.stepPick u e n cl l else g
    | _ => g

/-- The loop commands and the bound engine's step at tick `n` (R124, R217, R218). A master's SWITCH acts before the step's: the model's
choice (notes/assumptions/89.md). -/
def Hw.stepTick (h : Hw) (u n : Nat) (late : Bool) : Hw :=
  let cl := h.closed u
  let h := match h.engOf u with
    | some e =>
      let x := h.eng e
      let due := h.get TT_STAT_STATE e == 1 && decide (x.togo ≤ 1) && !late && (match x.startAt with | some t => decide (t ≤ n) | none => true)
      if due && !x.parts.isEmpty then h.stepPick u e n cl x.parts else h
    | none => h
  h.stepMake u n late cl

/-- A feed-forward prediction holds (R114): the slewed reference is the predicted one and the active table has not changed. What an
unchanged table is, is the model's choice (notes/assumptions/95.md). -/
def Hw.ffHolds (h : Hw) (u : Nat) : Bool :=
  match (h.unit u).law.pred with
  | some (r, b) => decide (r = h.code U_REF_SLEWED_CODE u) && h.flag U_TBL_STAT_FF_ACT u && h.get U_TBL_STAT_FF_BLOCK u == b
  | none => false

/-- A feed-forward prediction that stands is judged at its tick (R114): confirmed, or refuted and counted. -/
def Hw.ffJudge (h : Hw) (u : Nat) : Hw :=
  if (h.unit u).law.pred.isSome && !(h.unit u).law.predOk then
    if h.ffHolds u then h.modU u (fun x => { x with law := { x.law with predOk := true } })
    else (h.inc DIE_SPEC_CNT_COUNT (h.dieOf u) 4).modU u (fun x => { x with law := { x.law with pred := none } })
  else h

/-- The measurement outputs of tick `n`'s instant, where `g` is what the rest of the tick makes of the hardware without them: an output of a
path that restarts at the tick is skipped (R160). -/
def Hw.measTail (h g : Hw) (u n : Nat) : Hw :=
  let h := h.each (h.tree u) (fun h m => h.each (List.range 3) (fun h path =>
    if (g.mdec m path).restart == some n then h.modM m path (fun x => { x with restart := some n }) else h))
  h.measHeld u n

/-- A measurement output of a unit or a member is held for the tick. -/
def Hw.measWaits (h : Hw) (u : Nat) : Bool := (h.tree u).any (fun m => (List.range 3).any (fun path => (h.mdec m path).pendOut.isSome))

/-- The second part of a tick (R70, R124, R218): commands, the timetable's step, the pop and the slew step, the ramp, autorange,
the plan of the period that starts, and the captures' entries of the one that has ended. -/
def Hw.tickRest (h : Hw) (u : Nat) : Hw :=
  let n := (h.unit u).clk.last
  let late := (h.unit u).clk.stepLate
  let h := h.modU u (fun x => { x with tail := false, clk := { x.clk with guarded := false, late := false, stepLate := false } })
  let h := ((h.settingsTick u n).stepTick u n late).rangesTick u n
  let h := ((h.popTick u n).recRefs u n).ffJudge u
  let h := match h.engOf u with | some e => h.engPost e n | none => h
  let h := ((h.rampTick u).heldTick u n).autorange u n
  let h := match h.engOf u with | some e => h.engIsoCheck e n | none => h
  let h := (h.plan u).each (h.tree u) (fun h m => h.capTick m)
  let h := h.each (h.tree u) (fun h m => h.armTick m)
  match h.engOf u with | some e => h.engWaits e | none => h

/-- The second part of a tick, with the measurement outputs that fall on it, which the bins that close there are still offered (R160, R166). -/
def Hw.tickTail (h : Hw) (u : Nat) : Hw :=
  if h.measWaits u then (h.measTail (h.tickRest u) u (h.unit u).clk.last).tickRest u else h.tickRest u

/-- The rest of a tick follows once every fault it called for is taken. -/
def Hw.tailIf (h : Hw) (u : Nat) : Hw := (if (h.unit u).tail && !h.faultDue u then h.tickTail u else h).tkoReactAll u

/-- What a tick still owes, before another guard instant or tick: its faults, then its second part. -/
def Hw.finishTick (h : Hw) (u : Nat) : Hw :=
  if (h.unit u).tail then
    let h := h.each (h.tree u) (fun h m => ((h.senseFault m).frozenFault m).ceilFault m)
    ((h.lateFault u).feFault u).tickTail u
  else h

/-- ISO_N asserted at the tick after the last unit of a die isolates (R335). -/
def Hw.isoTick (h : Hw) (u n : Nat) : Hw :=
  h.each (h.leaves u) (fun h m =>
    let d := ownDie m
    match (h.die d).isoDue with
    | some t =>
      if n ≤ t then h
      else if h.heads.any (fun v => h.live v && (h.leaves v).any (fun k => ownDie k == d)) then h.modD d (fun x => { x with isoDue := none })
      else h.isoAssert d
    | none => h)

/-- The slewed reference that the next tick is predicted to have (R114): R84, R86 and R87 applied to the queue's head and the rates. -/
def Hw.ffPredict (h : Hw) (u : Nat) : Int :=
  let x := (h.unit u).ref
  let (t, ovr) := match x.q with | e :: _ => (clampTo (h.code U_CEIL_EFF_CODE u) e.value, e.ovr) | [] => (h.code U_REF_TARGET_CODE u, x.ovr)
  let (a, b) := (h.modU u (fun y => { y with ref := { y.ref with ovr := ovr } })).rates u
  slewStep t (h.code U_REF_SLEWED_CODE u) a b

/-- The feed-forward prediction at a guard instant (R114): the standing one is spent, or discarded with a late period; a period's work that
is complete predicts the next r_s. When the engine predicts is the model's choice (notes/assumptions/95.md). -/
def Hw.ffGuard (h : Hw) (u : Nat) (late : Bool) : Hw :=
  let had := (h.unit u).law.pred.isSome
  let h := if had && late then h.inc DIE_SPEC_CNT_COUNT (h.dieOf u) 5 else h
  let p := if !late && h.flag U_STATE_LOOP u && h.flag U_TBL_STAT_FF_ACT u then some (h.ffPredict u, h.get U_TBL_STAT_FF_BLOCK u) else none
  h.modU u (fun x => { x with law := { x.law with pred := p, predOk := false } })

/-- The guard instant before a unit's next tick, 20 ns (4.9 metronome ticks) ahead of it (R26, R27): what has arrived counts from here; the
period's work and the step are late or on time; requests bound to the tick without a grant are withdrawn, and the work that needed the
token is late at its site: the period's at rank 3, the timetable's step at rank 4 (R38). -/
def Hw.guardInstant (h : Hw) (u : Nat) (late stepLate : Bool) : Hw :=
  let h := if isUnit u && h.runs u then h.finishTick u else h
  if isUnit u && h.runs u && h.headOf u == u && !(h.unit u).clk.guarded then
    let h := { h with now := max h.now (h.nextTick u - 5) }
    let late := (late || (h.boundRanks u).contains 3) && h.get U_STATE_STATE u != 1
    let stepLate := stepLate || (h.boundRanks u).contains 4
    let h := h.each (h.tree u) (fun h m =>
      let c := h.dieCfgNow m
      let h := h.modU m (fun x => { x with pend := x.pend.map (fun p => { p with ready := true }), dcfg := some c })
      match h.engOf m with
      | some e =>
        let h := h.modE e (fun x => { x with pendW := guardW x.pendW, slotW := guardW x.slotW })
        if m = u then h else (h.engGuard e true).2
      | none => h)
    let h := h.each (List.range 64) (fun h c =>
      if (h.tree u).contains (h.get MUS_CAP_UNIT_UNIT c) then h.modC c (fun x => { x with pendW := guardW x.pendW }) else h)
    let (bad, h) := match h.engOf u with | some e => h.engGuard e stepLate | none => (false, h)
    let h := h.modU u (fun x => { x with ref := { x.ref with ready := x.ref.q.length },
                                         clk := { x.clk with guarded := true, late := late, stepLate := bad } })
    (h.ffGuard u late).withdrawBound u
  else h

/-- What arrives later than 20 ns before a unit's next tick comes after its guard instant, which has then passed, with everything on time
that no row called late (R26, R446). -/
def Hw.passGuard (h : Hw) (u : Nat) : Hw :=
  let v := h.headOf u
  if isUnit v && h.runs v && (h.unit v).clk.ticked && !(h.unit v).clk.guarded && decide (h.nextTick v < h.now + 5) then
    h.guardInstant v false false
  else h

/-- Register words of a unit's own, its engine's and its captures' that no loop command orders take effect at a tick (R446). -/
def Hw.wordsTick (h : Hw) (u : Nat) : Hw :=
  let h := h.pendRun u earlyWord (fun h a => h.runWord u a)
  let h := match h.engOf u with | some e => h.engWords e | none => h
  h.each (List.range 64) (fun h c => if h.get MUS_CAP_UNIT_UNIT c == u then h.capWords c else h)

/-- Tick `n` of a unit begins, at the rate that takes effect there (R25, R128). -/
def Hw.tickStart (h : Hw) (u n : Nat) : Hw :=
  let h := match h.rateAt u n with
    | some r => (h.put U_LOOP_CTRL_RATE u r).modU u (fun x => { x with pend := dropRates n x.pend })
    | none => h
  let h := { h with now := n }
  h.modU u (fun x => { x with clk := { x.clk with ticked := true, last := n }, tail := true })

/-- The first part of a tick: words, injection, the commit, samples, bins, causes, and what the watch finds. -/
def Hw.tickHead (h : Hw) (u n : Nat) (smp : List (Nat × Sample)) : Hw :=
  let late := (h.unit u).clk.late
  let prev := (h.unit u).clk.last
  let first := !(h.unit u).clk.ticked
  let h := h.tickStart u n
  let h := if first then h.each (h.tree u).reverse (fun h m => h.recalc m) else h
  let h := h.each (h.tree u) (fun h m =>
    h.capBegin m)
  let bases := (h.tree u).map (fun m => (m, h.traceBase m))
  let h := h.modS u (fun s => { s with wait := s.wait - 1, fromHold := false })
  let h := h.each (h.tree u) (fun h m => h.wordsTick m)
  let bnd := h.boundary u
  let h := if bnd then h.inject u n else h
  let h := h.modU u (fun x => { x with closedBin := false })
  let h := h.commitTick u n late
  let h := if first then h else h.each bases (fun h b => h.traceTake b.1 prev late b.2)
  let h := h.shTick u n
  let h := match (h.unit u).rng.openLam with | some l => if (h.unit u).rng.openOn && decide (l ≤ n) then (h.openApply u n).applyHeld u n else h | none => h
  let h := h.latch u n smp
  let h := h.each (h.leaves u) (fun h m => h.sidTick m smp bnd)
  let h := (h.loopOffer u n).safingDue u n
  let h := h.each (h.tree u) (fun h m => match h.engOf m with | some e => (h.slotTick e).engCmd e n | none => h)
  let h := if h.isFollower u then h.followTick u n else h
  let h := h.isoTick u n
  let rs := (h.popTick u n).get U_REF_SLEWED_CODE u
  let old := h.get U_REF_SLEWED_CODE u
  let h := ((h.put U_REF_SLEWED_CODE u rs).watchTick u).put U_REF_SLEWED_CODE u old
  let h := h.each (h.leaves u) (fun h m => h.chkTick m n)
  let h := h.lostAct u n
  h.each (h.tree u) (fun h m => h.pendRun m (fun a => match a with | .fault _ _ => true | _ => false)
    (fun h a => match a with | .fault c k => h.dueFault m c k n | _ => h))

/-- The loop tick `n` of a unit (R25, R70): with the samples of its channels and sidings. A guard instant that was not given
passes with everything on time. -/
def Hw.loopTick (h : Hw) (u n : Nat) (smp : List (Nat × Sample)) : Hw :=
  if h.tickOk u n then
    let h := h.finishTick u
    let h := h.guardInstant u false false
    (h.tickHead u n smp).tailIf u
  else h

/-! ### Rows at a tick -/

/-- A row that belongs to the tick `n` of a unit and precedes the tick's own (R201, R203, R328, R332, R333). -/
def Hw.preTick (h : Hw) (u n : Nat) (f : Hw → Hw) : Hw := if h.tickOk u n then (f (h.finishTick u)).tkoReactAll u else h

/-- A row that belongs to a unit's last tick and follows it; the period's work is planned again. -/
def Hw.postTick (h : Hw) (u : Nat) (f : Hw → Hw) : Hw :=
  if isUnit u && h.runs u && h.headOf u == u && (h.unit u).clk.ticked then ((f (h.finishTick u)).plan u).tkoReactAll u else h

/-- A fault row, then what follows it in the tick. -/
def Hw.faultRow (h : Hw) (u : Nat) (f : Hw → Hw) : Hw :=
  if (h.unit (h.headOf u)).tail then (f h).tailIf (h.headOf u) else h

/-- A prediction's confirmation or refutation at its site (R32). -/
def Hw.predict (h : Hw) (s : PredSite) (yes : Bool) : Hw :=
  match s with
  | .junction e => if yes then h.predConfirm e else h.predRefute e
  | .ff u => if !(h.unit u).tail && !(h.unit u).clk.guarded && (h.unit u).law.pred.isSome && h.ffHolds u == yes then h.ffJudge u else h
  | .range u =>
    let r := (h.unit u).rng
    match r.arm with
    | none => h
    | some (k, t) =>
      let n := (h.unit u).clk.last
      let used := r.active && h.get U_RANGE_STAT_SH_RNG u == k && decide (t ≤ r.decided)
      if yes then
        if used then (h.modR u (fun r => { r with arm := none, armNext := none })).setArm u false else h
      else if !used && h.armDue u then h.refuteArm u n else h

/-- The step of an engine executed (TT_STEP; R217, R219). -/
def Hw.ttStep (h : Hw) (e : Nat) : Hw := ((h.passGuard (h.get TT_BIND_UNIT e)).stepRun e 66).stepStage e

/-- One instruction of a step executed; at the step's last one, the step is complete. -/
def Hw.ttIns (h : Hw) (e : Nat) (i : TIns) (predict : Bool) : Hw :=
  ((h.passGuard (h.get TT_BIND_UNIT e)).stepOne e i predict).stepStage e

/-! ### Outer traffic received (R55, R56) -/

/-- An outer update reaches a follower (R55, R409): taken for its due tick, or late and dropped. That a late one counts as an update from the
head all the same is the model's choice (notes/assumptions/77.md). `head` is what the head's station shows of the
consist, which the follower mirrors; it latches the patterns of ranges to come before the due tick (notes/assumptions/20.md). -/
def Hw.outerRecv (h : Hw) (w : List Nat) (stn : Nat) (head : Shown) : Hw :=
  let g := fun k => w.getD k 0
  let c := bits (g 0) 9 0; let idx := bits (g 0) 12 10
  let due := g 3 + 2 ^ 32 * g 4
  match (List.range 256 ++ (List.range 256).map (· + 512)).find? (fun u =>
      h.isFollower u && h.get U_MEMBER_OF_CONSIST u == c && h.get U_MEMBER_OF_INDEX u == idx && h.get U_MEMBER_OF_STN u == stn) with
  | none => h
  | some u =>
    let h := h.passGuard u
    let k := (h.unit u).clk
    let first := ceilTo (h.period u) due
    let h := h.modU u (fun x => { x with cons := { x.cons with upHeard := true, noUpd := 0, lost := false } })
    if k.ticked && (decide (first ≤ k.last) || (k.guarded && decide (first ≤ k.last + h.period u))) then h.inc U_FOLLOW_LATE_COUNT u
    else
      let h := if h.onLoad u && !(h.irng u == head.ir && h.vrng u == head.vr) then (h.reqPats u 3 (.mirror u) (fun m => h.patOf m head.ir head.vr)).1
        else h
      h.modU u (fun x => { x with cons := { x.cons with
        upds := x.cons.upds ++ [{ due := due, out := sx32 (g 1), share := sx32 (g 2), head := head }] } })

/-- A follower's report reaches the head (R56), with the state that its station tells. A fault raised at it is raised on the consist, whose
policy applies, and an interlock, ABORT or fixture event at it acts on the whole consist (R51). -/
def Hw.reportRecv (h : Hw) (w : List Nat) (src : Nat) (r : Reported) : Hw :=
  let c := bits (w.getD 0 0) 9 0; let idx := bits (w.getD 0 0) 12 10
  if h.isCoupled c && (h.members c).any (fun m => m.1 == idx && m.2.2.2.1 && m.2.2.1 == src) then
    let h := h.modU c (fun x => { x with cons := { x.cons with
      rep := tset x.cons.rep idx (sx32 (w.getD 1 0)), silent := tset x.cons.silent idx 0, heard := idx :: x.cons.heard,
      fst := tset x.cons.fst idx r.st } })
    let h := if r.fault = 0 ∨ 12 < r.fault then h else (h.passGuard c).modU c (fun x => { x with pend := x.pend ++ [{ act := .fault r.fault 9 }] })
    if r.cause = 0 ∨ 3 < r.cause then h else h.setCause (h.headOf c) r.cause h.now
  else h

end Sys2Proof.Machine
end

