-- ==== Sys2Proof/Machine/Calib.lean ====
section
/-! DEFINITION. Calibration: visits, their checks, steps and results (R303 to R310), takeover and return (R298 to R301), stand-ins
(R311) and the voltage standard (R312). -/

namespace Sys2Proof.Machine

/-- Metronome ticks of a second. -/
def t1s : Nat := 245760000

/-! ### Starting (R306, R307, R310, R311) -/

/-- The siding's assignment token is free: neither held nor asked for. -/
def Hw.sidFree (h : Hw) (d s : Nat) : Bool := let a := h.arb (.siding d s); a.hold.isEmpty && a.pend.isEmpty

/-- Seconds of a rota period. -/
def Hw.rotaPeriod (h : Hw) (d : Nat) : Nat := max 60 (h.get CAL_ROTA_CFG_PERIOD d)

/-- Check 3 of R307: a siding is fit for use. -/
def Hw.sidHealthy (h : Hw) (d s : Nat) : Bool :=
  let x := h.sid (d * 2 + s)
  h.get U_FAULT_MAP_MAP (256 + d * 2 + s) == 0 &&
    (match x.lastU with | some u => h.get U_FAULT_MAP_MAP u == 0 | none => true) && !x.rejected &&
    decide (h.now ≤ x.visitAt + 2 * h.rotaPeriod d * t1s)

/-- The first check of R307 that fails before any conversion, 0 for none: 3 SIDING, 4 POINTS, 5 STATE. -/
def Hw.visRefuse (h : Hw) (u d s : Nat) : Nat :=
  let st := h.st u
  let conn := st == stOPEN || st == stCLOSED
  if conn && !h.sidHealthy d s then 3
  else if h.rngBusy u then 4
  else if st == stCHECKING || st == stSAFING || st == stSIDED || (st == stFAULTED && !h.flag U_FAULT_ISOLATED u) ||
      (h.servedBy u).isSome || (h.unit u).shadow.isSome || (isSiding u && !h.sidFree d s) then 5
  else 0

/-- A visit to unit `u` on siding `s` starts (R306): it is skipped, or its conversions are asked for. -/
def Hw.visStart (h : Hw) (d s u : Nat) (cmd : Bool) : Hw :=
  let k := d * 2 + s
  let r := h.visRefuse u d s
  let h := { h with visits := tset h.visits k ({ u := u, kind := 0, phase := 1, cmd := cmd, begun := (h.unit (h.headOf u)).rng.begun } : VisitS) }
  if r ≠ 0 then h.visFail k 1 r
  else
    let h := if isSiding u then h.put CAL_SID_PHASE d 5 s else h
    h.visConv k

/-- The sidings a visit may use, the preferred one first (R310). -/
def Hw.sidList (h : Hw) (d pref : Nat) : List Nat :=
  match h.get CAL_ROTA_CFG_SIDS d with
  | 1 => [0]
  | 2 => [1]
  | _ => [pref % 2, 1 - pref % 2]

/-- The siding for a visit: the visited siding itself, or the first that is not engaged; else the first. -/
def Hw.sidFor (h : Hw) (d u pref : Nat) : Nat :=
  if isSiding u then u % 2
  else
    let l := h.sidList d pref
    (l.find? (fun s => h.sidFree d s && (h.visit (d * 2 + s)).phase == 0)).getD (l.headD 0)

/-- OP and CH of CAL_CMD as the last command that was not ignored left them (R11). -/
def Hw.calCmdOp (h : Hw) (d op ch : Nat) : Hw :=
  if h.flag CAL_CMD_BUSY d then h else (h.put CAL_CMD_OP d op).put CAL_CMD_CH d ch

/-- CAL_CMD VISIT (R310); of several causes of refusal the lowest-numbered is reported (R447). -/
def Hw.calVisit (h : Hw) (d ch : Nat) : Hw :=
  let u := unitAt d ch
  let s := h.sidFor d u 0
  let h := h.calCmdOp d 1 ch
  if 33 < ch then h.put CAL_CMD_RESULT d 1
  else if (h.visit (d * 2 + s)).phase ≠ 0 then h.put CAL_CMD_RESULT d 2
  else if h.flag CAL_CMD_BUSY d then h.put CAL_CMD_RESULT d 4
  else ((h.put CAL_CMD_RESULT d 0).put CAL_CMD_BUSY d 1).visStart d s u true

/-- The channels and sidings of a pass of the rota, in order (R310). -/
def Hw.rotaList (h : Hw) (d : Nat) : List Nat :=
  bitIdx 32 (h.get CAL_ROTA_MASK_CH d) ++ (if h.flag CAL_ROTA_CFG_SIDCAL d then [32, 33] else [])

/-- ROTA_VISIT at instant `t` (R310): the next visit of the rota, once its time has come and its siding's last one is over. -/
def Hw.rotaVisit (h : Hw) (d t : Nat) : Hw :=
  let l := h.rotaList d
  let x := h.die d
  let due := match x.rotaAt with | none => true | some a => decide (a * l.length + h.rotaPeriod d * t1s ≤ t * l.length)
  if !h.dieUp d || !h.flag CAL_ROTA_CFG_EN d || l.isEmpty || !due || decide (t < h.now) then h
  else
    let ch := match x.rotaCh with
      | none => l.headD 0
      | some c => (l.find? (fun y => decide (c < y))).getD (l.headD 0)
    let u := unitAt d ch
    let s := h.sidFor d u (1 - x.rotaSid % 2)
    if (h.visit (d * 2 + s)).phase ≠ 0 then h
    else
      let h := { h with now := t }
      (h.modD d (fun x => { x with rotaCh := some ch, rotaAt := some t, rotaSid := s })).visStart d s u false

/-- CAL_CMD STANDIN (R311). -/
def Hw.calStandin (h : Hw) (d ch s : Nat) (force : Bool) : Hw :=
    let busy := h.flag CAL_CMD_BUSY d
    let h := (h.calCmdOp d 3 ch).cond (!busy) (fun h => (h.put CAL_CMD_SID d s).putB CAL_CMD_FORCE d force)
    let u := unitAt d ch
    let s := s % 2
    let st := h.st u
    let k := 16 + d * 2 + s
    if 31 < ch ∨ (h.servedBy u).isSome ∨ (h.unit u).shadow.isSome ∨
        !(st == stISOLATED || st == stOPEN || (st == stCLOSED && !force)) then h.put CAL_CMD_RESULT d 1
    else if !h.sidFree d s then h.put CAL_CMD_RESULT d 2
    else if busy then h.put CAL_CMD_RESULT d 4
    else
      let h := (h.put CAL_CMD_RESULT d 0).tokReq (visTok k) { who := visWho k, rank := 5 }
      let h := (h.put CAL_SID_STANDIN d 1 s).put CAL_SID_CH d ch s
      let v : VisitS := { u := u, kind := 1, phase := 2, taken := true, cmd := true, force := force, at_ := h.now }
      if st == stISOLATED then
        let h := { h with visits := tset h.visits k { v with phase := 7, cmd := false } }
        (((h.put CAL_SID_PHASE d 4 s).modU u (fun x => { x with sid := some (sidUnit k) })).otShow u).newConv u h.now
      else
        let h := h.put CAL_CMD_BUSY d 1
        if force then
          let h := { h with visits := tset h.visits k { v with phase := 3 } }
          (h.put CAL_SID_PHASE d 1 s).modU u (fun x => { x with shadow := some k })
        else { h with visits := tset h.visits k v }

/-- CAL_CMD RETURN (R311): an isolated channel's siding detaches at once, a connected one's returns. -/
def Hw.calReturn (h : Hw) (d ch : Nat) : Hw :=
    let busy := h.flag CAL_CMD_BUSY d
    let h := h.calCmdOp d 4 ch
    let u := unitAt d ch
    match [16 + d * 2, 17 + d * 2].find? (fun k => (h.visit k).u == u && (h.visit k).phase == 7) with
    | none => h.put CAL_CMD_RESULT d 1
    | some k =>
      if h.live u && h.st u != stSIDED then h.put CAL_CMD_RESULT d 1
      else if busy then h.put CAL_CMD_RESULT d 4
      else if !h.live u then ((((h.put CAL_CMD_RESULT d 0).modU u (fun x => { x with sid := none })).otShow u).newConv u h.now).visClose k
      else (((h.put CAL_CMD_RESULT d 0).put CAL_CMD_BUSY d 1).modVis k (fun v => { v with cmd := true })).startReturn k

/-! ### Checks (R307) -/

/-- The reference checks: 1 the ratio moved from the last accepted visit's, 10 it is more than 1% from what CAL_AREFX implies against
the bandgap's 1.200 V; 0 neither. The ratio is in units of 2^-30. -/
def Hw.refCheck (h : Hw) (d r : Nat) : Nat :=
  let l : Nat := (h.die d).calRatio
  let a : Nat := h.get CAL_AREFX_UV d * 2 ^ 30
  let x : Nat := r * 1200000
  if l ≠ 0 ∧ l * h.get CAL_TOL_REF d < ((r : Int) - l).natAbs * 1000000 then 1
  else if a < ((x : Int) - a).natAbs * 100 then 10 else 0

/-- The steps of a visit (R305): kind 3 OFFSET, 4 LIN, 5 GAIN, 6 PATH, 7 DRIVE, with the index within the kind. -/
def Hw.visSteps (h : Hw) (k : Nat) : List (Nat × Nat) :=
  let d := visDie k
  let m := h.get CAL_ROTA_CFG_KINDS d
  let on := fun i => bit m i
  let fresh := match (h.unit (h.visit k).u).blockAt with | some t => decide (h.now ≤ t + h.rotaPeriod d * t1s) | none => false
  let kind := fun (i c : Nat) => if on i then (List.range c).map (fun j => (i + 3, j)) else []
  kind 0 4 ++ kind 1 36 ++ kind 2 8 ++ kind 3 8 ++ (if (on 0 && on 1 && on 2) || fresh then kind 4 3 else [])

/-- A visit whose step waits on the bus begins it with the grant (R304); one that a simultaneous request displaces goes on waiting
(R36). -/
def Hw.calBusGrant (h : Hw) (d : Nat) : Hw :=
  h.each [d * 2, d * 2 + 1] (fun h k =>
    if (h.visit k).phase == 5 then
      h.modVis k (fun v => { v with stepAt := if h.holds (.cal d) (visSid k) then v.stepAt.orElse (fun _ => some h.now) else none })
    else h)

/-- The calibration bus is asked for at rank 5, and the step begins when it is granted (R304). -/
def Hw.calBus (h : Hw) (k : Nat) : Hw :=
  (h.tokReq (.cal (visDie k)) { who := visSid k, rank := 5 }).calBusGrant (visDie k)

/-! ### Results (R305, R308) -/

/-- A word of the set being formed: the newest computed one, else that of the set in force. -/
def Hw.visWord (h : Hw) (k w : Nat) : Nat := (tfind (h.visit k).words w).getD (h.cset (h.visit k).u w)

/-- The first word of converter `c`'s block at gain `g`. -/
def blk (c g : Nat) : Nat := 8 + (4 * c + g) * 12

/-- x + l of R294 for a raw value, under the set being formed. -/
def Hw.visXl (h : Hw) (k c g : Nat) (raw : Int) : Int :=
  let b := blk c g
  let w := fun j => sx32 (h.visWord k (b + j))
  let x := raw - w 0
  let n := (sat32 x + 2 ^ 31).toNat
  let i : Nat := n / 2 ^ 29
  let f : Nat := n % 2 ^ 29
  x + (w (2 + i) + rdiv ((w (3 + i) - w (2 + i)) * (f : Int)) (2 ^ 29))

/-- y of R294, before the range words, under the set being formed. -/
def Hw.visY (h : Hw) (k c g : Nat) (raw : Int) : Int := rdiv (h.visXl k c g raw * (h.visWord k (blk c g + 1) : Int)) (2 ^ 30)

/-- The windows of R308 for a word: true where the difference from the set in force exceeds its window. -/
def Hw.visFar (h : Hw) (k kind w v : Nat) : Bool :=
  let d := visDie k
  let old := h.cset (h.visit k).u w
  let code := fun (ppm fs : Nat) => decide (ppm * fs < Int.natAbs (sx32 v - sx32 old) * 1000000)
  let gain := fun (ppm : Nat) => decide (ppm * old < Int.natAbs ((v : Int) - (old : Int)) * 1000000)
  match kind with
  | 3 => code (h.get CAL_WIN_OFF d) (2 ^ 31)
  | 4 => code (h.get CAL_WIN_LIN d) (2 ^ 31)
  | 5 => gain (h.get CAL_WIN_GAIN d)
  | 6 => if w % 12 = 8 then code (h.get CAL_WIN_OFF d) (2 ^ 31) else gain (h.get CAL_WIN_GAIN d)
  | _ => if w = 152 then code (h.get CAL_WIN_DRV d) (2 ^ 23) else gain (h.get CAL_WIN_DRV d)

/-- Reason of R308 for a kind. -/
def kindReason (kind : Nat) : Nat := match kind with | 3 => 1 | 4 => 3 | 5 => 2 | 6 => 4 | _ => 5

/-- New words of a kind entered in the set being formed and compared (R308); a set loaded from defaults is not compared. -/
def Hw.visPut (h : Hw) (k kind : Nat) (l : List (Nat × Nat)) : Hw :=
  let def_ := bit (h.cset (h.visit k).u 6) 0
  let far := !def_ && l.any (fun p => h.visFar k kind p.1 p.2)
  let r := kindReason kind
  h.modVis k (fun v => { v with words := l.reverse ++ v.words, bad := if far && (v.bad = 0 || decide (r < v.bad)) then r else v.bad })

/-- The step value of a converter. -/
def Hw.stepVal (h : Hw) (k kind i c : Nat) : Int :=
  let x := tget (h.visit k).got (kind, i) (0, 0, 0)
  match c with | 0 => x.1 | 1 => x.2.1 | _ => x.2.2

/-- Converters by gain. -/
def blocks : List (Nat × Nat) := (List.range 3).flatMap (fun c => (List.range 4).map (fun g => (c, g)))

/-- A quotient that the spec does not state where its divisor is 0: free there (notes/assumptions/1.md). -/
def Hw.quot (h : Hw) (a b : Int) : Int × Hw :=
  if b = 0 then (let (v, h) := h.fresh; (sx32 v, h)) else (rdivI a b, h)

/-- The ladder's points in percent of full scale (R303). -/
def ladder : List Int := [-95, -75, -50, -25, 0, 25, 50, 75, 95]

/-- The words of a kind from its step values (R305). -/
def Hw.kindWords (h : Hw) (k kind : Nat) : Hw :=
  match kind with
  | 3 => h.visPut k 3 (blocks.map (fun b => (blk b.1 b.2, u32 (h.stepVal k 3 b.2 b.1))))
  | 4 =>
    h.visPut k 4 (blocks.flatMap (fun b =>
      let e := fun (j : Nat) => rdiv (ladder.getD j 0 * 2 ^ 31) 100 - h.stepVal k 4 (b.2 * 9 + j) b.1
      (List.range 9).map (fun j =>
        let f := ladder.getD j 0
        (blk b.1 b.2 + 2 + j,
          if j = 0 ∨ j = 8 then 0 else u32 (rdiv (190 * e j - 95 * (e 0 + e 8) - (e 8 - e 0) * f) 190)))))
  | 5 =>
    let (l, h) := blocks.foldl (fun (a : List (Nat × Nat) × Hw) b =>
      let (g, h) := a.2.quot (2 * 1717986918 * 2 ^ 30) (a.2.stepVal k 5 (b.2 * 2) b.1 - a.2.stepVal k 5 (b.2 * 2 + 1) b.1)
      (a.1 ++ [(blk b.1 b.2 + 1, u32 g)], h)) ([], h)
    h.visPut k 5 l
  | 6 =>
    let (l, h) := (blocks.filter (fun b => b.1 != 1)).foldl (fun (a : List (Nat × Nat) × Hw) b =>
      let h := a.2
      let z := fun c (i : Nat) => h.stepVal k 6 (b.2 * 2 + i) c
      let y0 := h.visY k 1 b.2 (z 1 0)
      let y1 := h.visY k 1 b.2 (z 1 1)
      let a0 := h.visXl k b.1 b.2 (z b.1 0)
      let a1 := h.visXl k b.1 b.2 (z b.1 1)
      let (g, h) := h.quot ((y1 - y0) * 2 ^ 30) (a1 - a0)
      let (o, h) := h.quot (y0 * 2 ^ 30) g
      (a.1 ++ [(blk b.1 b.2, u32 (sx32 (h.visWord k (blk b.1 b.2)) + (a0 - o))), (blk b.1 b.2 + 1, u32 g)], h)) ([], h)
    h.visPut k 6 l
  | _ =>
    let v := fun (i : Nat) => h.visY k 0 0 (h.stepVal k 7 i 0)
    let dv := v 2 - v 0
    let (g, h) := h.quot (88 * 2 ^ 61) (100 * dv)
    let (o, h) := h.quot ((v 0 + v 1 + v 2) * 16 * 2 ^ 23) (30 * dv)
    h.visPut k 7 [(152, u32 o), (153, u32 g)]

/-- A visit's results are judged (R308): rejected, or accepted: they wait for the return, or take effect at once (R306); those of a unit
that has been connected since wait for its next injection boundary (R297). -/
def Hw.visJudge (h : Hw) (k : Nat) : Hw :=
  let v := h.visit k
  let d := visDie k
  if v.bad ≠ 0 then h.visFail k 2 v.bad
  else
    let h := h.modD d (fun x => { x with calRatio := v.ratio })
    let h := h.modVis k (fun v => { v with ok := true, words := (6, 0) :: v.words })
    let v := h.visit k
    if v.taken then
      (((h.put CAL_LAST_CH d (chanOf v.u)).put CAL_LAST_OUTCOME d 3).put CAL_LAST_REASON d 0).startReturn k
    else if h.live v.u then
      (((((h.put CAL_LAST_CH d (chanOf v.u)).put CAL_LAST_OUTCOME d 3).put CAL_LAST_REASON d 0).calWait v.u v.words.reverse true).modVis k
        (fun v => { v with told := true })).visClose k
    else
      let h := (h.calWait v.u v.words.reverse false).calApply v.u h.now
      (h.visTell k 0 0).visClose k

/-- The next step of a visit, or its results. -/
def Hw.visNext (h : Hw) (k : Nat) : Hw := if (h.visit k).steps.isEmpty then h.visJudge k else h.calBus k

/-! ### The voltage standard (R312) -/

/-- CAL_CMD EXT_STDV: a siding that serves no channel measures CALS in 4 steps. -/
def Hw.calExtStdv (h : Hw) (d : Nat) : Hw :=
    let busy := h.flag CAL_CMD_BUSY d
    let h := h.calCmdOp d 5 (h.get CAL_CMD_CH d)
    match [0, 1].find? (fun s => h.sidFree d s && (h.visit (d * 2 + s)).phase == 0) with
    | none => h.put CAL_CMD_RESULT d 2
    | some s =>
      if busy then h.put CAL_CMD_RESULT d 4 else
      let k := d * 2 + s
      let h := ((h.put CAL_CMD_RESULT d 0).put CAL_CMD_BUSY d 1).tokReq (visTok k) { who := visWho k, rank := 5 }
      let v : VisitS := { u := sidUnit k, kind := 2, phase := 5, cmd := true, steps := [(8, 0), (8, 1), (8, 2), (8, 3)] }
      let h := { h with visits := tset h.visits k v }
      h.calBus k

/-- The standard's reading judged: CAL_AREFX is corrected, or the outcome is CAL_REJECT (R308, R312, R314). -/
def Hw.stdJudge (h : Hw) (k : Nat) : Hw :=
  let d := visDie k
  let y := rdiv ((List.range 4).foldl (fun a i => a + h.visY k 0 0 (h.stepVal k 8 i 0)) 0) 4
  let m := rdiv (y * 2000000) (2 ^ 31)
  let s := h.code CAL_EXT_STD_VALUE d
  let a := h.get CAL_AREFX_UV d
  let ch := chanOf (sidUnit k)
  let h :=
    if iabs s < 200 * iabs (m - s) then h.calEnd d ch 2 6
    else
      let (n, h) := h.quot (a * s) m
      if !h.flag CAL_EXT_CFG_FACTORY d && decide (h.get CAL_WIN_GAIN d * a < (n - a).natAbs * 1000000) then h.calEnd d ch 2 2
      else (h.putC CAL_AREFX_UV d n).calEnd d ch 0 0
  h.visClose k

/-! ### Steps (R304) -/

/-- The mean of a list of step outputs, rounded half away from zero. -/
def meanOf (l : List Int) : Int := rdiv (l.foldl (· + ·) 0) l.length

/-- CAL_STEP on siding `s` of die `d` completes (R304): the outputs before correction of the three converters, and whether the
overload detector fired in a window. Nothing happens while the visit does not hold the bus. -/
def Hw.calStep (h : Hw) (d s : Nat) (outs : List (Int × Int × Int)) (ovl : Bool) : Hw :=
  let k := d * 2 + s % 2
  let v := h.visit k
  match v.steps with
  | [] => h
  | (kind, i) :: r =>
    if v.phase ≠ 5 ∨ !h.holds (.cal d) (visSid k) ∨ outs.length ≠ 16 then h
    else
      let h := { h with now := max h.now (v.stepAt.getD h.now + 4915200) }
      let g := if kind = 3 then i else if kind = 4 then i / 9 else if kind = 5 ∨ kind = 6 then i / 2 else 0
      let f := fun (c : Nat) (x : Int) => if kind = 5 then h.visXl k c g x else x
      let val := (meanOf (outs.map (fun x => f 0 x.1)), meanOf (outs.map (fun x => f 1 x.2.1)), meanOf (outs.map (fun x => f 2 x.2.2)))
      let h := (h.tokRel (.cal d) (visSid k)).modVis k (fun v => { v with
        steps := r, stepAt := none, got := tset v.got (kind, i) val })
      let last := match r with | (k2, _) :: _ => decide (k2 ≠ kind) | [] => true
      let h :=
        if kind = 8 then (if ovl then ((h.calEnd d (chanOf (sidUnit k)) 2 7).visClose k) else if r.isEmpty then h.stdJudge k else h.calBus k)
        else if ovl then h.visFail k 2 7
        else (if last then h.kindWords k kind else h).visNext k
      h.calBusGrant d

/-! ### Conversions of the checks (R307) -/

/-- The checks of a visit are complete (R306, R307). -/
def Hw.visChecked (h : Hw) (k : Nat) : Hw :=
  let v := h.visit k
  let d := visDie k
  let ref := h.refCheck d v.ratio
  let st := h.st v.u
  let conn := st == stOPEN || st == stCLOSED
  let r := if ref = 1 then 1 else if v.hot then 2
    else if v.phase == 1 && (h.rngBusy v.u || (h.unit (h.headOf v.u)).rng.begun != v.begun) then 4
    else if v.phase == 1 && !(conn || !h.live v.u) then 5 else ref
  if r ≠ 0 then h.visFail k 1 r
  else if v.phase = 4 then
    let l := h.visSteps k
    (h.modVis k (fun v => { v with phase := 5, steps := l })).visNext k
  else if conn || isSiding v.u then
    let h := h.modVis k (fun v => { v with phase := 2, at_ := h.now })
    let h := h.tokReq (visTok k) { who := visWho k, rank := 5 }
    if isSiding v.u && h.holds (visTok k) (visWho k) then (h.modVis k (fun v => { v with phase := 4 })).visConv k else h
  else (h.modVis k (fun v => { v with phase := 4 })).visConv k

/-- A conversion of a visit's checks is delivered: an internal sensor's, compared with the readings of the last 10 s, or CALREF's. -/
def Hw.visDeliver (h : Hw) (d n : Nat) (q : Int) : Hw :=
  let k := d * 2 + n / 8 % 2
  let c := n % 8
  let v := h.visit k
  if !v.need.contains c then h
  else
    let s := d * 12 + c
    let x := t16 (h.get TH_VAL_TEMP s)
    let hot := decide (c < 4) && (h.th s).hist.any (fun p => decide (64 * (h.get CAL_TOL_TEMP d : Int) ≤ iabs (x - p.2) * 1000))
    let h := h.modVis k (fun v => { v with need := v.need.erase c, hot := v.hot || hot, ratio := if c = 4 then q.toNat else v.ratio })
    if (h.visit k).need.isEmpty then h.visChecked k else h

/-- The time of a conversion in metronome ticks, by its requester (R177, R343): CALREF 400 µs, a diode 256 µs, an internal sensor or
a thermistor 128 µs, a supply monitor 32 µs. -/
def Hw.auxTime (h : Hw) (d who : Nat) : Nat :=
  let kind := who / 16
  let n := if kind = 5 then who % 8 else who % 16
  ticksOfUs (if kind = 0 ∨ 14 ≤ kind then 32
    else if kind = 5 ∧ 4 ≤ n then 400
    else if h.get TH_SCFG_TYPE (d * 12 + n) = 1 then 256 else 128)

/-- The instant at which a running conversion completes. -/
def Hw.auxEnd (h : Hw) (d who : Nat) : Nat := (tfind (h.die d).auxAt who).getD h.now + h.auxTime d who

/-- AUX_CONVERSION_DONE at instant `t` (R177, R344): the result of request `who` of die `d` is delivered, and the modulator
released. A supply monitor's result has no register (R177). `q` is what R343 takes for the sensor's type, or for CALREF the ratio in units of 2^-30; `fwd` a diode's forward voltage
in microvolts. -/
def Hw.auxDone (h : Hw) (d who : Nat) (q fwd : Int) (t : Nat) : Hw :=
  if !h.holds (.aux d) who || t != h.auxEnd d who then h
  else
    let h := { h with now := max h.now t }
    let kind := who / 16
    let n := who % 16
    if kind = 5 then
      let h := if n % 8 < 4 then h.thReading (d * 12 + n % 8) q fwd t else h
      (h.tokRel (.aux d) who).visDeliver d n q
    else if kind = 0 ∨ 14 ≤ kind ∨ 12 ≤ n then h.tokRel (.aux d) who
    else (h.thReading (d * 12 + n) q fwd t).thDeliver d who

/-! ### Takeover and return (R298 to R301) -/

/-- The visit or stand-in of a siding in a phase. -/
def Hw.visIn (h : Hw) (d s phase : Nat) : Option Nat :=
  [d * 2 + s % 2, 16 + d * 2 + s % 2].find? (fun k => (h.visit k).phase == phase)

/-- TAKEOVER_START (R298): with the siding's token held, the shadow begins; a siding's own visit goes to the bus. A channel that is
no longer connected, or that the other siding serves or shadows, is not taken over (R292); one whose range is changing waits. -/
def Hw.takeoverStart (h : Hw) (d s : Nat) : Hw :=
  match h.visIn d s 2 with
  | none => h
  | some k =>
    let u := (h.visit k).u
    if !h.holds (visTok k) (visWho k) then h
    else if isSiding u then (h.modVis k (fun v => { v with phase := 4 })).visConv k
    else if !(h.st u == stOPEN || h.st u == stCLOSED) || (h.servedBy u).isSome || (h.unit u).shadow.isSome then h.visFail k 1 5
    else if h.rngBusy u then h
    else
      let h := h.modVis k (fun v => { v with phase := 3, taken := true, at_ := h.now, periods := 0, diffs := [], tolBad := false })
      ((h.put CAL_SID_PHASE d 1 (visSid k)).put CAL_SID_CH d (chanOf u) (visSid k)).modU u (fun x => { x with shadow := some k })

/-- SIDING_TOKEN_TIMEOUT at instant `t` (R307). -/
def Hw.sidTokenTimeout (h : Hw) (d s t : Nat) : Hw :=
  let k := d * 2 + s % 2
  let v := h.visit k
  if v.phase = 2 ∧ !h.holds (visTok k) (visWho k) ∧ v.at_ + t1s ≤ t ∧ h.now ≤ t then
    let h := { h with now := t }
    h.visFail k 1 6
  else h

/-- The tick `n` satisfies R299: a boundary, after L periods, and the mean over the 64 ticks that end at it within the tolerance.
`own` and `sd` are the samples of the channel's and the siding's converters at the tick. -/
def Hw.tkoOk (h : Hw) (k n : Nat) (own sd : Sample) : Bool :=
  let v := h.visit k
  let u := v.u
  let (a, b) := h.viBy u u own
  let (x, y) := h.viBy (sidUnit k) u sd
  let l := ((x - a, y - b) :: v.diffs).take 64
  let _ := n
  h.boundary (h.headOf u) && decide (h.shadowLen u ≤ v.periods) && h.tolOk u l

/-- DRV and sense of a channel pass to its siding at tick `n` (R300); a forced stand-in's converters have sensed nothing before
(R160), and its drive is the hold code (R311). -/
def Hw.handOver (h : Hw) (k n : Nat) : Hw :=
  let v := h.visit k
  let u := v.u
  let h := ((h.modU u (fun x => { x with sid := some (sidUnit k), shadow := none })).dacTake u).otShow u
  let h := (h.put U_STATE_STATE u stSIDED).put U_STATE_SIDED_BY u (visSid k)
  let h := h.put CAL_SID_PHASE (visDie k) 2 (visSid k)
  let h := if v.force then (h.newConv u n).put U_MODE_OLSRC u 0 else h
  if v.kind = 1 then (h.modVis k (fun v => { v with phase := 7, cmd := false })).put CAL_CMD_BUSY (visDie k) 0
  else (h.modVis k (fun v => { v with phase := 4 })).visConv k

/-- HANDOVER at tick `n` (R298 to R300, R311), while the range PHASE is IDLE; a forced one only with the loop open. -/
def Hw.handover (h : Hw) (d s n : Nat) (own sd : Sample) : Hw :=
  match h.visIn d s 3 with
  | none => h
  | some k =>
    let u := (h.visit k).u
    h.preTick (h.headOf u) n (fun h =>
      if !h.rngBusy u && (if (h.visit k).force then h.st u == stOPEN else (h.st u == stOPEN || h.st u == stCLOSED) && h.tkoOk k n own sd)
      then h.handOver k n else h)

/-- TAKEOVER_TIMEOUT at instant `t` (R299): the takeover is abandoned. -/
def Hw.takeoverTimeout (h : Hw) (d s t : Nat) : Hw :=
  match h.visIn d s 3 with
  | none => h
  | some k =>
    let v := h.visit k
    if v.at_ + h.get CAL_TKO_WAIT d * t1s ≤ t ∧ h.now ≤ t then
      let h := { h with now := t }
      h.visFail k 1 (if v.tolBad then 9 else 11)
    else h

/-- A channel's own converters and buffer take over at tick `n`, and the corrections that wait for it take effect (R301). -/
def Hw.sidReturn (h : Hw) (k n : Nat) : Hw :=
  let v := h.visit k
  let u := v.u
  let h := ((h.modU u (fun x => { x with sid := none, shadow := none })).dacTake u).otShow u
  let h := if h.st u == stSIDED then h.put U_STATE_STATE u (if h.flag U_STATE_LOOP u then stCLOSED else stOPEN) else h
  let h := { h with now := n }
  let h := if v.ok then
      let h := (h.calWait u v.words.reverse true).modVis k (fun v => { v with told := true })
      h.calApply u n
    else h
  h.visClose k

/-- SIDING_RETURN at tick `n` (R301): a channel that is SAFING, or FAULTED, connected, stays with its siding (R302). -/
def Hw.sidingReturn (h : Hw) (d s n : Nat) (own sd : Sample) : Hw :=
  match h.visIn d s 6 with
  | none => h
  | some k => h.preTick (h.headOf (h.visit k).u) n (fun h =>
    if h.st (h.visit k).u == stSIDED && h.tkoOk k n own sd then h.sidReturn k n else h)

/-- RETURN_TIMEOUT at instant `t` (R301): the tolerance has failed for WAIT; the corrections are discarded and the return starts
again. -/
def Hw.returnTimeout (h : Hw) (d s t : Nat) : Hw :=
  match h.visIn d s 6 with
  | none => h
  | some k =>
    let v := h.visit k
    if v.tolBad ∧ v.at_ + h.get CAL_TKO_WAIT d * t1s ≤ t ∧ h.now ≤ t then
      let h := { h with now := t }
      let h := if v.kind = 0 then h.visTell k 2 7 else h
      (h.modVis k (fun v => { v with words := [], ok := false })).startReturn k
    else h

end Sys2Proof.Machine
end

