-- ==== Sys2Proof/Machine/Panel.lean ====
section
/-! DEFINITION. The operator's side (R320 to R326, R332, R335): the lid interlock, the keys, ABORT, the fixture inputs, the lamps
and the ISO_N backstop. -/

namespace Sys2Proof.Machine

/-- An operator cause on every unit a test admits that is not isolated (R332). -/
def Hw.causeAll (h : Hw) (cause t : Nat) (p : Nat → Bool) : Hw := h.each (h.heads.filter p) (fun h u => h.setCause u cause t)

/-- ILK_OPEN asserted or released by both head dies, which sense the same pins (R320, R323). That the line stands asserted at reset is the
register table's value (notes/assumptions/99.md). -/
def Hw.ilkLine (h : Hw) (b : Bool) : Hw := (h.each [0, 1] (fun h d => h.modD d (fun x => { x with ilkA := b }))).lines

/-- The lid inputs read at an instant: `i0` and `i1` say which read closed. -/
def Hw.lidRead (h : Hw) (t : Nat) (i0 i1 : Bool) : Hw :=
  let l := h.lid
  let l := if i0 then { l with open0 := t + 1 } else { l with shut0 := t + 1 }
  let l := if i1 then { l with open1 := t + 1 } else { l with shut1 := t + 1 }
  let l := if i0 == i1 then { l with apart := t + 1 } else l
  ({ h with now := t, lid := l }.putB STN_PANEL_ILK0 0 i0).putB STN_PANEL_ILK1 0 i1

/-- 10 µs of a level in metronome ticks (R322). -/
def t10us : Nat := 2458

/-- The dies whose Interlocking is live. -/
def Hw.liveDies (h : Hw) : List Nat := allDies.filter (fun d => h.boot.live.contains d)

/-- ILK_OPENING qualified at instant `t` (R322, R323, R332): `i0` and `i1` say which inputs read closed, `both` that both have read
open together for 10 µs. Nothing is qualified of a level that cannot have held that long. -/
def Hw.ilkOpening (h : Hw) (t : Nat) (i0 i1 both : Bool) : Hw :=
  let l := h.lid
  let held := (!i0 && decide (l.open0 + t10us ≤ t)) || (!i1 && decide (l.open1 + t10us ≤ t))
  let both := both && !i0 && !i1 && decide (max l.open0 l.open1 + t10us ≤ t)
  if decide (t < h.now) || !held || !h.sensed then h
  else
    let h := ({ h with discLock := h.discLock && !both }.lidRead t i0 i1).put STN_PANEL_ILK_OK 0 0
    if h.headLine (fun x => x.ilkA) then h
    else
      let h := (h.ilkLine true).incSat STN_ILK_CNT_OPENS 0
      let h := h.each h.liveDies (fun h d => h.modD d (fun x => { x with ilkBack := some (t + h.tSafe d) }))
      h.causeAll 1 t (fun _ => true)

/-- ILK_CLOSING qualified at instant `t` (R322, R323): both inputs have read closed for 50 ms; none after a discrepancy until both inputs
have been seen to open. -/
def Hw.ilkClosing (h : Hw) (t : Nat) : Hw :=
  if t < max h.now (max h.lid.shut0 h.lid.shut1 + 50 * t1ms) ∨ !h.sensed then h
  else
    let h := h.lidRead t true true
    if h.discLock then h else (h.put STN_PANEL_ILK_OK 0 1).ilkLine false

/-- ILK_DISCREPANCY at instant `t` (R322): the inputs have differed for 100 ms; `i0` says whether ILK0 is the closed one. -/
def Hw.ilkDiscrepancy (h : Hw) (t : Nat) (i0 : Bool) : Hw :=
  if t < max h.now (h.lid.apart + 100 * t1ms) ∨ !h.sensed then h
  else ({ h with discLock := true }.lidRead t i0 (!i0)).put STN_PANEL_DISC 0 1

/-- The debounce time in force (R324): STN_KEY_CFG.DEB, read at every sample; below 5 ms it acts as 5, above 50 as 50. -/
def Hw.debounce (h : Hw) : Nat := max 5 (min 50 (h.get STN_KEY_CFG_DEB 0)) * t1ms

/-- A change of the level of input `k` is qualified at instant `t` (R324): it can have held for the debounce time in force. -/
def Hw.qualified (h : Hw) (k t : Nat) : Bool := decide (h.now ≤ t) && decide (tget h.keyAt k 0 + h.debounce ≤ t) && h.sensed

/-- The level of input `k` qualified at instant `t`: its next change dates from a later sample. -/
def Hw.pinMark (h : Hw) (k t : Nat) : Hw := { h with now := t, keyAt := tset h.keyAt k (t + 1) }

/-- The local event of key index `k` (0 START, 1 ABORT, 2 to 5 KEY0 to KEY3) raised where it is enabled, due 32 ticks later (R324). -/
def Hw.keyEvent (h : Hw) (k t : Nat) : Hw :=
  if h.flag STN_KEY_EV_EN 0 k then h.evRaise (h.get STN_KEY_EV_EV 0 k) (t + 32) else h

/-- The panel bit of START or a KEY set (R324): key 0 is START, 1 to 4 KEY0 to KEY3. -/
def Hw.keyShow (h : Hw) (k : Nat) (b : Bool) : Hw :=
  if k = 0 then h.putB STN_PANEL_START 0 b
  else h.put STN_PANEL_KEY 0 (let x := h.get STN_PANEL_KEY 0; if b then setBit x (k - 1) else clrBit x (k - 1))

/-- The qualified level of START (0) or a KEY (1 to 4) in STN_PANEL. -/
def Hw.keyDown (h : Hw) (k : Nat) : Bool := if k = 0 then h.flag STN_PANEL_START 0 else bit (h.get STN_PANEL_KEY 0) (k - 1)

/-- The number under which the level of START (0) or a KEY (1 to 4) is kept. -/
def keyPin (k : Nat) : Nat := if k = 0 then 0 else k + 1

/-- KEY_PRESS of START or a KEY at instant `t` (R324). -/
def Hw.keyPress (h : Hw) (k t : Nat) : Hw :=
  if 4 < k ∨ h.keyDown k ∨ !h.qualified (keyPin k) t then h
  else ((h.pinMark (keyPin k) t).keyShow k true).keyEvent (keyPin k) t

/-- KEY_RELEASE at instant `t` (R324). -/
def Hw.keyRelease (h : Hw) (k t : Nat) : Hw :=
  if 4 < k ∨ !h.keyDown k ∨ !h.qualified (keyPin k) t then h
  else (h.pinMark (keyPin k) t).keyShow k false

/-- The ABORT line asserted or released by both head dies (R320). -/
def Hw.abortLine (h : Hw) (b : Bool) : Hw := (h.each [0, 1] (fun h d => h.modD d (fun x => { x with abA := b }))).lines

/-- ABORT_PRESS at instant `t` (R324, R332). -/
def Hw.abortPress (h : Hw) (t : Nat) : Hw :=
  if h.flag STN_PANEL_ABORT 0 ∨ !h.qualified 1 t then h
  else
    let h := (((h.pinMark 1 t).put STN_PANEL_ABORT 0 1).incSat STN_ILK_CNT_ABORTS 0).abortLine true
    let h := h.each h.liveDies (fun h d => h.modD d (fun x => { x with abortBack := some (t + h.tSafe d) }))
    (h.causeAll 2 t (fun _ => true)).keyEvent 1 t

/-- ABORT_RELEASE at instant `t` (R324). -/
def Hw.abortRelease (h : Hw) (t : Nat) : Hw :=
  if !h.flag STN_PANEL_ABORT 0 ∨ !h.qualified 1 t then h
  else ((h.pinMark 1 t).put STN_PANEL_ABORT 0 0).abortLine false

/-- FIX_ABSENT of input `k` at instant `t` (R325, R332): the units, or consists, whose masks name it are taken off their loads. -/
def Hw.fixAbsent (h : Hw) (k t : Nat) : Hw :=
  if 7 < k ∨ !bit (h.get STN_PANEL_FIX 0) k ∨ !h.qualified (8 + k) t then h
  else
    let h := h.pinMark (8 + k) t
    let h := h.put STN_PANEL_FIX 0 (clrBit (h.get STN_PANEL_FIX 0) k)
    h.causeAll 3 t (fun u => (h.tree u).any (fun m => bit (h.get U_ILK_CFG_FIXMASK m) k))

/-- FIX_PRESENT of input `k` at instant `t` (R325). -/
def Hw.fixPresent (h : Hw) (k t : Nat) : Hw :=
  if 7 < k ∨ bit (h.get STN_PANEL_FIX 0) k ∨ !h.qualified (8 + k) t then h
  else
    let h := h.pinMark (8 + k) t
    h.put STN_PANEL_FIX 0 (setBit (h.get STN_PANEL_FIX 0) k)

/-- The units of a die that are not isolated: channels, sidings and the channels of consists (ILK_STAT.LIVE). -/
def Hw.dieLive (h : Hw) (d : Nat) : List Nat := (unitsOf d).filter (fun u => h.dieUp d && h.live u)

/-- ISO_BACKSTOP of a die at instant `t` (R335): T_SAFE after ILK_OPEN or ABORT was asserted, while the line is still asserted or some
unit of the die is not yet isolated. -/
def Hw.isoBackstop (h : Hw) (d t : Nat) : Hw :=
  let x := h.die d
  let live := !(h.dieLive d).isEmpty
  let ilk := x.ilkBack == some t && (h.flag ILK_STAT_ILK_OPEN d || live)
  let ab := x.abortBack == some t && (h.flag ILK_STAT_ABORT d || live)
  if (ilk || ab) && decide (h.now ≤ t) then
    let h := { h with now := t }
    let rel := h.flag ILK_STAT_ISO_REL d
    let h := h.isoAssert d
    if rel then h.put ILK_STAT_BACKSTOP d 1 else h
  else h

/-! ### Lamps (R326) -/

/-- The condition of a lamp's source. -/
def Hw.lampCond (h : Hw) (k : Nat) : Bool :=
  let open_ := h.flag STN_STATE_ILK_OPEN 0
  let st := h.get STN_STATE_STATE 0
  let all := (List.range 256 ++ (List.range 16).map (· + 256) ++ (List.range 256).map (· + 512)).filter h.runs
  match h.get STN_LAMP_CFG_SRC 0 k with
  | 1 => true
  | 2 => !open_
  | 3 => all.any h.live
  | 4 => st == 4 || (open_ && (st == 1 || st == 2))
  | 5 => all.any (fun u => h.get U_FAULT_FIRST u != 0)
  | 6 => h.flag ILK_STAT_ABORT h.bootDie
  | 7 => !open_ && !h.flag ILK_STAT_ABORT h.bootDie && (st == 3 || st == 5)
  | 8 => bit (h.get STN_LAMP_SW_ON 0) k
  | _ => false

/-- LAMPk is on (R326); it is off while power-on reset is held (R431). -/
def Hw.lampOn (h : Hw) (k : Nat) : Bool :=
  !h.cold &&
  let c := h.lampCond k != h.flag STN_LAMP_CFG_INV 0 k
  if h.flag STN_LAMP_CFG_BLINK 0 k then c && decide (h.now % 245760000 < 122880000) else c

end Sys2Proof.Machine
end

