-- ==== Sys2Proof/Machine/View.lean ====
section
/-! DEFINITION. What a register word reads as (R8 to R11): the stored fields, and the fields that show what the rest of the state
holds. -/

namespace Sys2Proof.Machine

/-- The number of a truth list's set bits by place. -/
def maskOf (l : List Bool) : Nat := (l.zipIdx.filter (fun p => p.1)).foldl (fun a p => a + 2 ^ p.2) 0

/-- Registers of a consist window that read otherwise than a channel's (R45): U_DRV_STAT and the ceilings read 0. -/
def consistZero (f : Fld) : Bool :=
  f == U_DRV_STAT_BUFMODE || f == U_DRV_STAT_DRV_OT || f == U_DRV_STAT_DRV_OT_SEEN || f == U_DRV_STAT_LIMITED ||
  f == U_CEILS_V_CODE || f == U_CEILS_I_CODE || f == U_CEILS_P_CODE || f == U_CEILS_RNG_VR || f == U_CEILS_RNG_IR ||
  f == U_CEILS_RNG_PIR || f == U_CEILS_RNG_PVR || f == U_CEIL_RNG_VR || f == U_CEIL_RNG_IR || f == U_CEIL_RNG_PIR ||
  f == U_CEIL_RNG_PVR || f == U_CEIL_V_CODE || f == U_CEIL_I_CODE || f == U_CEIL_P_CODE

/-- The coupling registers, which only a consist window has (R45): byte offsets 0x010 to 0x03B. -/
def couplingFld (f : Fld) : Bool := f.blk == .unit && decide (0x10 * 8 ≤ f.pos) && decide (f.pos < 0x3C * 8)

/-- A field of a unit window as it reads. -/
def Hw.unitView (h : Hw) (u : Nat) (x : Hit) : Nat :=
  let f := x.fld
  let r := (h.unit u).ref
  if couplingFld f && !isConsist u then 0
  else if isConsist u && consistZero f then 0
  else if f = U_ID_UNIT then u
  else if f = U_ID_KIND then (if isConsist u then 2 else if isSiding u then 1 else 0)
  else if f = U_ID_DIE then h.dieOf u
  else if f = U_ID_CHAN then (if isConsist u then 0 else if isSiding u then u % 2 else u % 32)
  else if f = U_ID_FLOAT ∧ isConsist u then b2n (h.isCoupled u && h.floating u)
  else if f = U_REF_STAT_LEVEL then min 32 r.q.length
  else if f = U_REF_STAT_OWNER then b2n (match h.engOf u with | some e => h.flag TT_STAT_OWNS e | none => false)
  else if f = U_REF_STAT_RAMPING then b2n (h.get U_REF_SLEWED_CODE u != h.get U_REF_TARGET_CODE u)
  else if f = U_REF_STAT_OVR_ACT then b2n r.ovr.isSome
  else if f = U_REF_STAT_SAFE_RAMP then b2n (h.unit u).safe.ramp
  else if f = U_REF_STAT_UNDERRUN then (match h.engOf u with | some e => h.get TT_SR_STAT_UNDERRUN e | none => 0)
  else if f = U_RANGE_SEL_AR_EN then b2n (h.arEn u)
  else if f = U_DRV_STAT_BUFMODE then h.bufMode u
  else if f = U_ILK_STAT_FIX_OK then b2n (h.fixOk u)
  else if (f = U_PTS_STAT_PAT ∨ f = U_PTS_STAT_RB) ∧ isConsist u then (if h.isCoupled u then h.get f (h.leadOf u) else 0)
  else if f = U_LAW_CFG_EN ∧ x.i = 0 then 1
  else h.fieldRead u x

/-- The digest and words of the audit entry that STN_AUD_SEL names (R383). -/
def Hw.audData (h : Hw) : List Nat :=
  match h.aud.entry (h.get STN_AUD_SEL_SEQ 0) with
  | some e => e.words
  | none => List.replicate 16 0

/-- A field of the station's registers as it reads. -/
def Hw.stnView (h : Hw) (x : Hit) : Nat :=
  let f := x.fld
  if f = STN_EV_STAT_PENDING then min 0xFF h.evs.length
  else if f = TW_LINE_TIME_TICK then h.now
  else if f = TW_LINE_TIME_PHASE then Config.freeValue h.free % 256
  else if f = SPI_ATTN_SRC_QUEUE then b2n h.attnQueue
  else if f = STN_AUD_HEAD_SEQ then h.aud.next - 1
  else if f = STN_AUD_STAT_RETAINED then min 4096 h.aud.next
  else if f = STN_AUD_STAT_PENDING then h.audQ.length
  else if f = STN_AUD_STAT_LOG_DIE then h.logDie
  else if f = STN_AUD_HASH_CHAIN then h.aud.last
  else if f = STN_AUD_DATA_WORD then h.audData.getD x.i 0
  else if f = STN_CERT0_WORD ∧ (h.die 0).fenced then 0
  else if f = STN_CERT1_WORD ∧ (h.die 1).fenced then 0
  else if f = STN_ATT_REP_WORD ∧ h.flag STN_ATT_CMD_BUSY 0 then 0
  else h.fieldRead 0 x

/-- A field of a die's registers as it reads. -/
def Hw.dieView (h : Hw) (d : Nat) (x : Hit) : Nat :=
  let f := x.fld
  if 2 ≤ d ∧ 0x800 * 8 ≤ f.pos ∧ f.pos < 0x900 * 8 then 0
  else if f = DIE_FAULT_SUM_UNITS then
    (if x.i = 0 then maskOf ((List.range 32).map (fun c => h.get U_FAULT_FIRST (d * 32 + c) != 0))
     else maskOf ((List.range 2).map (fun s => h.get U_FAULT_FIRST (256 + d * 2 + s) != 0)))
  else if f = DIE_AUX_STAT_BUSY then (h.arb (.aux d)).inst.foldl setBit 0
  else if f = DIE_AUX_STAT_PENDING then min 0x1F (h.arb (.aux d)).pend.length
  else if f = DIE_SNAP_STAT_HELD then (h.arb (.snap d)).inst.foldl setBit 0
  else if f = DIE_SNAP_STAT_WAITING then min 31 (h.arb (.snap d)).pend.length
  else if f = ILK_STAT_LIVE then (h.dieLive d).length
  else if f = CAL_SID_HEALTHY then b2n (h.sidHealthy d x.i)
  else h.fieldRead d x

/-- The hardware with an engine's registers as committed: what a predicted path has done to them is not visible before its confirmation
(R31, R255). -/
def Hw.engShown (h : Hw) (e : Nat) : Hw :=
  match (h.eng e).pred with
  | none => h
  | some p =>
    let b := p.snap
    let h := if (h.eng e).need.isSome then h.put TT_STAT_STATE e 1 else h
    let h := (h.setStacks e p.loops p.calls).setPc e p.addr
    let h := (h.put TT_SR_MARK_VALUE e b.mark).put TT_SR_STAT_MARKED e b.marked
    (h.put TT_SR_RP_VALUE e b.rp).put TT_SR_REWIND_REMAIN e b.rewind

/-- A field of an engine's registers as it reads. -/
def Hw.engView (h : Hw) (e : Nat) (x : Hit) : Nat :=
  let h := h.engShown e
  if x.fld = TT_SR_FREE_VALUE then h.srFree e else h.fieldRead e x

/-- A field as it reads. -/
def Hw.view (h : Hw) (b : Blk) (inst : Nat) (x : Hit) : Nat :=
  match b with
  | .unit => h.unitView inst x
  | .stn => h.stnView x
  | .die => h.dieView inst x
  | .eng => h.engView inst x
  | .sens => if x.fld = TH_MAP_CH ∧ inst % 12 < 4 then 0xFFFFFFFF else h.fieldRead inst x
  | .eth => if x.fld = ETH_STAT_SESS then maskOf ((List.range 4).map (fun s => (tget h.sess (inst * 4 + s) {}).owner.isSome)) else h.fieldRead inst x
  | .port =>
    if x.fld = TW_PORT_STAT_UPSTREAM then b2n (h.upstream h.now == some inst)
    else if x.fld = TW_PORT_STAT_SYNC_OK then b2n (h.tweedUp inst && ((h.port inst).heard h.now).isSome)
    else h.fieldRead inst x
  | _ => h.fieldRead inst x

/-- The words written at an offset of a block that wait for a tick, oldest first (R446). -/
def Hw.waiting (h : Hw) (b : Blk) (inst off : Nat) : List Nat :=
  let at_ := fun (l : List (Nat × Nat × Bool)) (k : Nat) => (l.filter (fun p => p.1 == k)).map (fun p => p.2.1)
  match b with
  | .unit => (h.unit inst).pend.filterMap (fun p => match p.act with
      | .word o v => if o = off then some v else none
      | .range i v r => if off = 0x400 then some (i + 16 * v + 256 * (r / 8)) else none
      | _ => none)
  | .eng => at_ (h.eng inst).pendW off ++ (if 0x280 ≤ off ∧ off < 0x2A0 then at_ (h.eng inst).slotW ((off - 0x280) / 4) else [])
  | .cap => at_ (h.cap inst).pendW off
  | _ => []

/-- An RW field reads as the last value written to it (R11), also while the write waits for a tick (R446). -/
def Hit.written (x : Hit) (l : List Nat) (v : Nat) : Nat :=
  if x.fld.acc = .rw then l.foldl (fun v w => fixField x.fld x.i (x.merge v w)) v else v

/-- The word at a byte offset of a block as it reads (R8, R10, R11). AR_EN of a consist with a follower reads 0 (R198). -/
def Hw.viewWord (h : Hw) (b : Blk) (inst off : Nat) : Nat :=
  let l := h.waiting b inst off
  wordOf (hits b off) (fun x =>
    if x.fld = U_RANGE_SEL_AR_EN ∧ h.hasFoll inst then h.view b inst x else x.written l (h.view b inst x))

end Sys2Proof.Machine
end

