-- ==== Sys2Proof/Machine/Snap.lean ====
section
/-! DEFINITION. Snapshot objects and the slots that hold their copies (R62 to R65, R276 to R278). -/

namespace Sys2Proof.Machine

/-- The snapshot object that a word of a block belongs to: its lowest word's offset and its number of words. -/
def snapObj (b : Blk) (off : Nat) : Option (Nat × Nat) :=
  let at_ := fun (lo n : Nat) => if lo ≤ off ∧ off < lo + 4 * n then some (lo, n) else none
  match b with
  | .unit => if 0x500 ≤ off ∧ off < 0x600 then some (off / 0x40 * 0x40, 16) else at_ 0x608 2
  | .eng => (at_ 0x18 2).orElse (fun _ => at_ 0x28 2)
  | .queue => (at_ 0x50 4).orElse (fun _ => at_ 0x80 32)
  | .die => ((if 0x500 ≤ off ∧ off < 0x600 then some (off / 0x10 * 0x10, 4) else none).orElse (fun _ => at_ 0x818 2)).orElse
      (fun _ => at_ 0x80018 2)
  | .sens => at_ 0x28 2
  | .stn => (at_ 0x8118 3).orElse (fun _ => at_ 0x3080 16)
  | _ => none

/-- The die that holds an object (R62). -/
def Hw.snapDie (h : Hw) (b : Blk) (inst : Nat) : Nat :=
  match b with
  | .unit => h.dieOf inst
  | .eng => inst / 8
  | .queue => inst / 64
  | .die => inst
  | .sens => inst / 12
  | _ => h.bootDie

/-- A master's number as a requester of slots (R36, R39). -/
def masterNo : Master → Nat
  | .tweed p => p % 4
  | .eth p s => 4 + p % 2 * 4 + s % 4
  | .spi => 12
  | .core d c => 13 + d % 8 * 2 + c % 2

/-- The answer the transport gives a master (R388); the SPI target's STATUS shows ATTN_N beside it (R415). -/
def Hw.answer (h : Hw) (m : Master) (status : Nat) (data : List Nat) : Hw :=
  { h with ans := { m := some m, status := if m = .spi then 128 + 64 * b2n h.attn + status else status, data := data } }

/-- The slot of a master on a die. -/
def Hw.slotOf (h : Hw) (d who : Nat) : Option SlotS := (h.die d).slots.find? (fun s => s.who == who)

/-- The copy of an object (R63, R276): its words, and for a queue's head the queue's GEN and read count. -/
def Hw.snapCopy (h : Hw) (b : Blk) (inst lo n : Nat) : (List Nat × Option (Nat × Nat)) × Hw :=
  if b = .queue ∧ lo = 0x80 then
    h.qHead inst
  else if b = .stn ∧ lo = 0x8118 then
    (((List.range n).map (fun i => h.viewWord b inst (lo + 4 * i)), none), h.fresh.2)
  else (((List.range n).map (fun i => h.viewWord b inst (lo + 4 * i)), none), h)

/-- An object copied into a master's slot, in place of what the slot held (R62, R63). -/
def Hw.snapFill (h : Hw) (d who : Nat) (b : Blk) (inst lo n : Nat) : Nat × Hw :=
  let ((w, hd), h) := h.snapCopy b inst lo n
  let g := match h.slotOf d who with | some s => s.granted | none => h.now
  let s : SlotS := { who := who, blk := b, inst := inst, off := lo, words := w, granted := g, last := h.now, head := hd,
                     top := if b = .queue ∧ lo = 0x80 then h.qP inst / 4 - 1 else n - 1 }
  (w.headD 0, h.modD d (fun x => { x with slots := s :: x.slots.filter (fun s => s.who != who) }))

/-- The number of a master as a requester of DDR5 at a die's Twill arbiters (R36). -/
def twHost (m : Master) : Nat := 128 + masterNo m

/-- The Twill token that the copy of an object takes: that of a queue's head in a log ring (R35, R276). -/
def Hw.headTok (h : Hw) (b : Blk) (inst lo : Nat) : Option Res :=
  if b = .queue ∧ lo = 0x80 ∧ (h.que inst).ring then (ddrChan (h.get Q_LR_BASE_ADDR inst)).map (fun c => Res.twill (inst / 64) c) else none

/-- The copy of an object into the slot that its master holds: the lowest word, or none while the copy waits for DDR5's token. -/
def Hw.snapTry (h : Hw) (w : SnapWait) (lo n : Nat) : Option Nat × Hw :=
  let d := h.snapDie w.blk w.inst
  match h.headTok w.blk w.inst lo with
  | none =>
    let (v, h) := h.snapFill d (masterNo w.m) w.blk w.inst lo n
    (some v, h)
  | some r =>
    let h := h.twAsk r (twHost w.m) 6
    if h.holds r (twHost w.m) then
      let (v, h) := h.snapFill d (masterNo w.m) w.blk w.inst lo n
      (some v, h.tokRel r (twHost w.m))
    else (none, h.modD d (fun x => { x with snapWait := x.snapWait ++ [w] }))

/-- Requests for slots that have been granted: the copy is made and the waiting read is answered (R62). -/
def Hw.snapGranted (h : Hw) (d : Nat) : Hw :=
  let l := (h.die d).snapWait.filter (fun w => h.holds (.snap d) (masterNo w.m))
  let h := h.modD d (fun x => { x with snapWait := x.snapWait.filter (fun w => !l.contains w) })
  h.each l (fun h w =>
    match snapObj w.blk w.off with
    | none => h
    | some (lo, n) =>
      match h.snapTry w lo n with
      | (none, h) => h
      | (some v, h) =>
        match w.job with
        | some j => { h with jobs := h.jobs ++ [(j, v)] }
        | none => h.answer w.m 0 [v])

/-- A master's slot released (R64). -/
def Hw.slotRelease (h : Hw) (d who : Nat) : Hw :=
  ((h.modD d (fun x => { x with slots := x.slots.filter (fun s => s.who != who) })).tokRel (.snap d) who).snapGranted d

/-- A read of a snapshot object's lowest word (R62): the word, or none while the master waits for a slot. -/
def Hw.snapLow (h : Hw) (m : Master) (b : Blk) (inst lo n : Nat) (job : Option Job) : Option Nat × Hw :=
  let d := h.snapDie b inst
  let who := masterNo m
  let w : SnapWait := { m := m, blk := b, inst := inst, off := lo, job := job }
  if (h.slotOf d who).isSome then h.snapTry w lo n
  else
    let h := if (h.die d).snapWait.any (fun w => masterNo w.m == who) then h else h.tokReq (.snap d) { who := who, rank := 6 }
    if h.holds (.snap d) who then h.snapTry w lo n
    else (none, h.modD d (fun x => { x with snapWait := x.snapWait ++ [w] }))

/-- A read of a higher word (R63 to R65, R277): the word and whether it missed; the highest word releases the slot, and pops a
queue's packet. -/
def Hw.snapHigh (h : Hw) (m : Master) (b : Blk) (inst off lo : Nat) : (Nat × Bool) × Hw :=
  let d := h.snapDie b inst
  let who := masterNo m
  match h.slotOf d who with
  | some s =>
    if s.blk = b ∧ s.inst = inst ∧ s.off = lo then
      let i := (off - lo) / 4
      let v := s.words.getD i 0
      if i = s.top then
        let h := match s.head with | some (g, rp) => h.qPop inst g rp | none => h
        ((v, false), h.slotRelease d who)
      else
        ((v, false), h.modD d (fun x => { x with slots := x.slots.map (fun t => if t.who = who then { t with last := h.now } else t) }))
    else ((0, true), h.inc DIE_SNAP_MISS_COUNT d)
  | none => ((0, true), h.inc DIE_SNAP_MISS_COUNT d)

/-- SNAP_SLOT_TIMEOUT of a requester's slot at instant `t` (R64): 20 µs after its last access, or 50 µs after its grant. -/
def Hw.slotTimeout (h : Hw) (d who t : Nat) : Hw :=
  match h.slotOf d who with
  | none => h
  | some s =>
    if h.now ≤ t ∧ (s.last + ticksOfUs 20 ≤ t ∨ s.granted + ticksOfUs 50 ≤ t) then
      let h := { h with now := t }
      h.slotRelease d who
    else h

/-- Q_CMD DROP_REST by a master (R278). -/
def Hw.dropRest (h : Hw) (m : Master) (q : Nat) : Hw :=
  let d := q / 64
  let who := masterNo m
  match h.slotOf d who with
  | some s =>
    if s.blk = .queue ∧ s.inst = q ∧ s.off = 0x80 then
      let h := match s.head with | some (g, rp) => h.qPop q g rp | none => h
      (h.put Q_CMD_RESULT q 0).slotRelease d who
    else h.put Q_CMD_RESULT q 1
  | none => h.put Q_CMD_RESULT q 1

end Sys2Proof.Machine
end

