-- ==== Sys2Proof/Machine/Nvm.lean ====
section
/-! DEFINITION. NVM: the calibration store's page programs (R314 to R316), the completion of a page program (R35), and what a die
loads from its NVM at boot (R317, R341). -/

namespace Sys2Proof.Machine

/-- CAL_CMD STORE (R316): ignored and reported while a store runs. -/
def Hw.calStore (h : Hw) (d : Nat) : Hw :=
  if h.flag CAL_NVM_STAT_STORING d || h.flag CAL_CMD_BUSY d then h.put CAL_CMD_RESULT d 4
  else (((h.put CAL_CMD_OP d 2).put CAL_CMD_RESULT d 0).put CAL_CMD_BUSY d 1).storeBegin d (h.storeSlot d) true

/-- CAL_CMD FACTORY_STORE (R314): refused with no rewrite left. -/
def Hw.calFactoryStore (h : Hw) (d : Nat) : Hw :=
  let busy := h.flag CAL_NVM_STAT_STORING d || h.flag CAL_CMD_BUSY d
  let h := h.cond (!busy) (fun h => h.put CAL_CMD_OP d 7)
  if h.get CAL_NVM_STAT_F_LEFT d = 0 then h.put CAL_CMD_RESULT d 3
  else if busy then h.put CAL_CMD_RESULT d 4
  else ((h.put CAL_CMD_RESULT d 0).put CAL_CMD_BUSY d 1).cntWrite (.slotF d)

/-- Ticks of an hour. -/
def tHour : Nat := 3600 * t1s

/-- STORE_DUE at instant `t` (R316): CAL_STORE_CFG.HOURS after the last store, a store runs. -/
def Hw.storeDue (h : Hw) (d t : Nat) : Hw :=
  let n := h.get CAL_STORE_CFG_HOURS d
  if h.dieUp d && decide (n ≠ 0) && decide (h.now ≤ t) && decide ((h.die d).storedAt + n * tHour ≤ t) && !h.flag CAL_NVM_STAT_STORING d then
    let h := { h with now := t }
    h.storeBegin d (h.storeSlot d) false
  else h

/-- A store ends. -/
def Hw.storeEnd (h : Hw) (d : Nat) (s : StoreS) : Hw :=
  let h := (h.modD d (fun x => { x with store := none })).put CAL_NVM_STAT_STORING d 0
  if s.cmd then h.put CAL_CMD_BUSY d 0 else h

/-- The store goes on with a page program. -/
def Hw.storeGo (h : Hw) (d : Nat) (s : StoreS) : Hw := (h.modD d (fun x => { x with store := some s })).storeAsk d

/-- A page program of a store completes (R316): page 0 the commit word's page with zeros, 1 to 105 header and data, 106 the digest,
after which the slot is read back (`ok`: its digest compares), 107 the commit word. A failed comparison is retried once. -/
def Hw.storePage (h : Hw) (d : Nat) (ok : Bool) : Hw :=
  let h := h.tokRel (.nvm d) 2
  match (h.die d).store with
  | none => h
  | some s =>
    let x := h.calSlot d s.slot
    let go := fun (h : Hw) => h.storeGo d { s with page := s.page + 1 }
    if s.page = 0 then go (h.setSlot d s.slot { x with commit := false })
    else if s.page = 1 then go (h.setSlot d s.slot { x with header := true, digest := false, seq := s.data.seq, time := s.data.time })
    else if s.page < 106 then go (h.setSlot d s.slot { x with arefx := s.data.arefx, ratio := s.data.ratio, sets := s.data.sets })
    else if s.page = 106 then
      if ok then go (h.setSlot d s.slot { x with digest := true })
      else
        let h := h.put CAL_NVM_STAT_STORE_FAIL d 1
        if s.retry = 0 then (h.inc CAL_NVM_CYC_COUNT d s.slot).storeGo d { s with page := 0, retry := 1 } else h.storeEnd d s
    else (h.setSlot d s.slot { x with commit := true }).storeEnd d s

/-- NVM_PAGE_DONE of a die (R35, R315, R341, R382): the page program of the token's holder completes, and the token is released. -/
def Hw.nvmPageDone (h : Hw) (d : Nat) (ok : Bool) : Hw :=
  match (h.arb (.nvm d)).hold with
  | [] => h
  | r :: _ =>
    if r.who = 1 then h.ceilPage d
    else if r.who = 2 then h.storePage d ok
    else if r.who = 3 ∧ d = h.logDie then h.auditWrite
    else h.tokRel (.nvm d) r.who

/-! ### Loading at boot -/

/-- The slot a die loads (R317): the valid one of A and B with the higher SEQ, else F, else none. -/
def Hw.loadSlot (h : Hw) (d : Nat) : Nat :=
  let a := h.calSlot d 0; let b := h.calSlot d 1
  if a.valid && b.valid then (if a.seq < b.seq then 1 else 0)
  else if a.valid then 0 else if b.valid then 1
  else if (h.calSlot d 2).valid then 2 else 3

/-- A die's correction sets loaded (R317). -/
def Hw.calLoad (h : Hw) (d : Nat) : Hw :=
  let h := h.each [0, 1, 2] (fun h k => h.setSlot d k (h.calSlot d k))
  let bad := (List.range 3).any (fun k => let x := h.calSlot d k; x.header && !x.commit)
  let h := if bad then h.put CAL_NVM_STAT_INCOMPLETE d 1 else h
  let k := h.loadSlot d
  let h : Hw := { h with regs := h.regs.filter (fun (p : RegKey × Nat) => !(p.1.blk == .cset && ownDie p.1.inst == d)) }
  let h := h.put CAL_NVM_STAT_ACTIVE d k
  if k = 3 then h.modD d (fun x => { x with calRatio := 0 })
  else
    let x := h.calSlot d k
    let h := { h with regs := h.regs ++ x.sets }
    let h := (h.put CAL_AREFX_UV d x.arefx).modD d (fun y => { y with calRatio := x.ratio, storedAt := 0 })
    if k = 2 then h.each (unitsOf d) (fun h u => h.put CAL_SET_WORD u (setBit (h.cset u 6) 1) 6) else h

/-- A ceiling copy of a die is unfinished (R341). -/
def Hw.ceilUnfinished (h : Hw) (d : Nat) : Bool :=
  (List.range 2).any (fun k => (tget h.nv.ceils (d * 2 + k) {}).begun)

/-- A die's ceilings loaded at boot (R341): the staged registers start as the active ones. -/
def Hw.ceilLoad (h : Hw) (d : Nat) : Hw := ((h.ceilFrom d).each (unitsOf d) (fun h u => h.stageCeil u)).recalcDie d

end Sys2Proof.Machine
end

