-- ==== Sys2Proof/Machine/Force.lean ====
section
/-! DEFINITION. The host's side of the force path (R75 to R79) and the DRV buffer's temperature detector (R92). -/

namespace Sys2Proof.Machine

/-- The timetable owns a unit's reference queue (R75). -/
def Hw.ttOwns (h : Hw) (u : Nat) : Bool := match h.engOf u with | some e => h.flag TT_STAT_OWNS e | none => false

/-- A unit window that a master can reach: a channel or siding of a die that is up, or a consist (R5, R44). -/
def Hw.reaches (h : Hw) (u : Nat) : Bool := isConsist u || (isPlain u && h.dieUp (ownDie u))

/-- A host push (R75 to R77, R88): ignored under an engine or a ramp to zero, dropped on a full queue, else enqueued. -/
def Hw.refPush (h : Hw) (u v : Nat) : Hw :=
  if !h.reaches u then h
  else if h.isMember u then h.put U_FLAGS_COUPLED_WR u 1
  else if h.ttOwns u || (h.unit u).safe.ramp then h.put U_REF_STAT_HOST_IGN u 1
  else if 32 ≤ (h.unit u).ref.q.length then (h.put U_REF_STAT_FULL u 1).inc U_REF_DROP_COUNT u
  else h.modU u (fun x => { x with ref := { x.ref with q := x.ref.q ++ [{ value := sx32 v }] } })

/-- U_REF_CMD.FLUSH (R79): the entries present are discarded at the next tick; a unit without ticks discards them at once. -/
def Hw.refFlush (h : Hw) (u : Nat) : Hw :=
  if !h.reaches u then h
  else if h.isMember u then h.put U_FLAGS_COUPLED_WR u 1
  else if h.flag U_REF_CMD_FLUSH u then h
  else if h.runs u then
    (h.put U_REF_CMD_FLUSH u 1).modU u (fun x => { x with ref := { x.ref with flush := x.ref.q.length } })
  else h.modU u (fun x => { x with ref := { x.ref with q := [], ready := 0 } })

/-- DRV_OT_TRIP of the buffer of a channel or siding (R92): a siding's acts on the unit it serves. -/
def Hw.drvOtTrip (h : Hw) (u : Nat) : Hw :=
  if !(isPlain u && h.dieUp (ownDie u)) || (h.unit u).ot then h
  else
    let m := h.servedUnit u
    (((h.modU u (fun x => { x with ot := true })).otShow u).otShow m).faultLater m 6 9

/-- DRV_OT_RELEASE (R92): the buffer returns to the mode its state calls for; the fault remains. -/
def Hw.drvOtRelease (h : Hw) (u : Nat) : Hw :=
  if isPlain u then ((h.modU u (fun x => { x with ot := false })).otShow u).otShow (h.servedUnit u) else h

end Sys2Proof.Machine
end

