-- ==== Sys2Proof/Machine/Image.lean ====
section
/-! DEFINITION. The Damask image's source and header (R363 to R371), HELD (R373), the wipe (R371), flash commands (R364) and
attestation (R374 to R376). -/

namespace Sys2Proof.Machine

/-- Where the model keeps the bytes of a head die's flash: beyond the 40-bit address space, which has no aperture for it. -/
def flashBase (head : Nat) : Nat := 2 ^ 40 + head * 2 ^ 32

/-- `n` bytes from an address. -/
def Hw.rdBytes (h : Hw) (a : Nat) : Nat → List Nat
  | 0 => []
  | n + 1 => (h.byte a).toNat :: h.rdBytes (a + 1) n

/-- `n` bytes of a list from place `i` as a little-endian number. -/
def leAt (l : List Nat) (i n : Nat) : Nat := ((l.drop i).take n).foldr (fun b a => b + 256 * a) 0

/-- Capacity of a head die's flash device in bytes; 0 without one (STN_XSPI_STAT). -/
def Hw.flashCap (h : Hw) (head : Nat) : Nat :=
  if h.get STN_XSPI_STAT_MODE 0 head = 0 then 0 else 2 ^ h.get STN_XSPI_STAT_CAP 0 head

/-- The address of an image source (R363, R373): 1 flash A, 2 flash B, 3 memory. -/
def Hw.srcAddr (h : Hw) (src : Nat) : Nat :=
  if src = 3 then h.get STN_IMG_ADDR_ADDR 0 else flashBase h.bootDie + (src - 1) * 0x1000000

/-- The section count of an image at an address, as far as a header of it can be read. -/
def Hw.imgSects (h : Hw) (a : Nat) : Nat := min 64 (h.byte (a + 0x0D)).toNat

/-- The header and section table of an image at an address (R365). -/
def Hw.imgHdr (h : Hw) (a : Nat) : List Nat := h.rdBytes a (0xC0 + 64 * h.imgSects a)

/-- NSECT, TOTAL and IMGVER of a header (R365). -/
def hdrSects (l : List Nat) : Nat := leAt l 0x0D 1
/-- TOTAL of a header. -/
def hdrTotal (l : List Nat) : Nat := leAt l 0x10 4
/-- IMGVER of a header. -/
def hdrVer (l : List Nat) : Nat := leAt l 0x08 4

/-- A section of a header's table: type, CRIT, offset, length, digest (R365). -/
def hdrSect (l : List Nat) (i : Nat) : Nat × Bool × Nat × Nat × Nat :=
  let e := 0xC0 + 64 * i
  (leAt l e 1, bit (leAt l (e + 1) 1) 0, leAt l (e + 4) 4, leAt l (e + 8) 4, leAt l (e + 16) 48)

/-- The sections of a header lie as R365 asks. -/
def hdrLayout (l : List Nat) : Bool :=
  let n := hdrSects l
  let s := (List.range n).map (fun i => let e := hdrSect l i; (e.2.2.1, e.2.2.2.1))
  s.all (fun x => x.1 % 8 == 0 && x.2 % 8 == 0 && decide (0xC0 + 64 * n + 96 ≤ x.1) && decide (x.1 + x.2 ≤ hdrTotal l)) &&
    s.zipIdx.all (fun x => s.zipIdx.all (fun y => x.2 == y.2 || !rangesMeet x.1.1 x.1.2 y.1.1 y.1.2))

/-- The reason of 1 to 4 for which a header is refused, 0 for none (R371, R447). -/
def Hw.hdrReason (h : Hw) (l : List Nat) : Nat :=
  if leAt l 0 4 ≠ 0x4B534D44 then 1
  else if leAt l 4 2 ≠ 1 ∨ leAt l 6 2 ≠ 0xC0 then 2
  else if 0x1000000 < hdrTotal l ∨ hdrSects l = 0 ∨ 64 < hdrSects l ∨ !hdrLayout l then 3
  else if !bit (leAt l 0x0E 1) (h.get STN_ID_PART 0) then 4
  else 0

/-- STN_BOOT.STEP shows a step begun (R357). -/
def Hw.setStep (h : Hw) (n : Nat) : Hw := h.put STN_BOOT_STEP 0 n

/-- The dies that serve, as STN_CENSUS.SERVING shows them (R68). -/
def Hw.showServing (h : Hw) : Hw := h.put STN_CENSUS_SERVING 0 (maskOf ((List.range 8).map (fun d => h.dieUp d && h.boot.answered.contains d)))

/-- The BOOT audit entry (R381). -/
def Hw.bootEntry (h : Hw) : Hw :=
  h.audit 0x02 h.logDie (h.get STN_STATE_RELIEF 0 + h.get STN_BOOT_IMG_SRC 0 * 2 + h.get STN_BOOT_HELD_CAUSE 0 * 8
    + h.get STN_CENSUS_SERVING 0 * 128)

/-- The station enters HELD with a cause (R359, R361, R363). -/
def Hw.hold (h : Hw) (cause : Nat) : Hw :=
  let h := { h with boot := { h.boot with read := 0, cand := [], start := [] } }
  ((h.put STN_BOOT_HELD_CAUSE 0 cause).put STN_IMG_LOAD_BUSY 0 0 |>.setStn 2).bootEntry

/-- The next candidate is tried, or the station enters HELD with cause 1 (R363). -/
def Hw.imgTry (h : Hw) : Hw :=
  match h.boot.cand with
  | [] => h.hold 1
  | s :: r =>
    let a := h.srcAddr s
    let h := { h with boot := { h.boot with cand := r, src := s, base := a, hdr := h.imgHdr a, read := 1, start := [], touched := false } }
    h.setStep 5

/-- A master writes the memory source of the image while the load runs: the next read finds it (R373). Any such write counts, whatever it
writes (notes/assumptions/101.md). -/
def Hw.srcTouch (h : Hw) (a n : Nat) : Hw :=
  if h.boot.read ≠ 0 ∧ h.boot.src = 3 ∧ rangesMeet a n h.boot.base (hdrTotal h.boot.hdr) then { h with boot := { h.boot with touched := true } }
  else h

/-! ### Refusal and wipe (R371) -/

/-- A register that a wipe leaves as it is: OTP, NVM and counted settings, the state of inputs, links and the metronome, and every
station register outside the two ranges that a record can write. -/
def wipeKeeps (k : RegKey) : Bool :=
  let o := k.pos / 8
  match k.blk with
  | .stn => o < 0x400 || (decide (0x2000 ≤ o) && decide (o < 0x4000)) || (o == 0xC04 && decide (k.pos < 0xC04 * 8 + 6))
      || k.pos == 0x1120 * 8 || (o == 0x1800 && k.pos != 0x1800 * 8 + 3) || (decide (0x8110 ≤ o) && decide (o < 0x8118))
  | .port => o == 0x4 && k.pos != 0x4 * 8 + 3
  | .eth => o == 0x2C
  | .die => o == 0x70004 || (o == 0x70008 && decide (k.pos < 0x70008 * 8 + 9)) || (decide (0x80064 ≤ o) && decide (o < 0x80080))
  | .unit => decide (0x670 ≤ o) && decide (o < 0x680)
  | _ => false

/-- A die as a wipe leaves it. -/
def DieS.wiped (x : DieS) : DieS :=
  { fenced := x.fenced, isoAt := x.isoAt, ilkBack := x.ilkBack, abortBack := x.abortBack, ilkA := x.ilkA, abA := x.abA, nvm := x.nvm, snap := x.snap, slots := x.slots,
    snapWait := x.snapWait, store := x.store, ceilW := x.ceilW, abandoned := x.abandoned, calRatio := x.calRatio,
    storedAt := x.storedAt, ddrCfg := x.ddrCfg }

/-- The mode a port starts in (R356, R384). -/
def Hw.startMode (h : Hw) (p : Nat) : Nat := if p < 2 ∧ h.flag STN_BOOT_STNMODE 0 then 2 else 1

/-- The wipe (R371): die regions, consist and C32 windows and the station registers a record can write return to reset; a port whose
mode changes goes DOWN. -/
def Hw.wipe (h : Hw) : Hw :=
  let change := (List.range 4).filter (fun p => h.get TW_PORT_CFG_MODE p != h.startMode p)
  let h := { h with
    regs := h.regs.filter (fun p => wipeKeeps p.1), units := [], engs := [], caps := [], ques := [], ths := [], sids := [], visits := [],
    evs := [], trigEnd := [], trigLvl := [], trigNew := [], trigAt := [], line := { everLocked := h.line.everLocked, everPtp := h.line.everPtp },
    dies := h.dies.map (fun (p : Nat × DieS) => (p.1, p.2.wiped)) }
  let h := h.each (List.range 4) (fun h p => h.put TW_PORT_CFG_MODE p (h.startMode p))
  let h := h.each allDies (fun h d => h.each (unitsOf d) (fun h u => h.stageCeil u))
  h.each change (fun h p => h.portDown p)

/-- An image is refused for a reason at a section (R371). -/
def Hw.imgRefuse (h : Hw) (reason sect : Nat) : Hw :=
  let src := h.boot.src
  let h := ((h.put STN_IMG_STAT_REASON 0 reason).put STN_IMG_STAT_SECTION 0 sect).put STN_IMG_STAT_SRC 0 src
  let h := h.audit 0x04 h.logDie (reason + sect * 256 + src * 2 ^ 16)
  let h := if 2 ≤ h.boot.read then h.wipe else h
  let h := { h with boot := { h.boot with tried := true } }
  h.imgTry

/-- Step 4 from power-on: the flash slots whose header passes are tried in descending order of IMGVER, slot A first among equals
(R363). -/
def Hw.imgChoose (h : Hw) : Hw :=
  let ok := fun s => decide (s * 0x1000000 ≤ h.flashCap h.bootDie) && h.hdrReason (h.imgHdr (h.srcAddr s)) == 0
  let v := fun s => hdrVer (h.imgHdr (h.srcAddr s))
  let l := [1, 2].filter ok
  let l := if l = [1, 2] ∧ v 1 < v 2 then [2, 1] else l
  let h := h.setStep 4
  let h := { h with boot := { h.boot with cand := l, tried := false } }
  h.imgTry

/-- STN_IMG_LOAD (R373): RESULT 1 outside HELD, 2 under HELD causes 2 to 4, 3 where a memory source is not wholly inside one
aperture; else the station returns to BOOTING at step 4 with the source named. -/
def Hw.imgLoad (h : Hw) (op : Nat) : Hw :=
  let a := h.get STN_IMG_ADDR_ADDR 0
  let inside := match h.place a (max 0x100 (h.rd32 (a + 0x10))) with | .mem => decide (0x1000000 ≤ a) | _ => false
  let r := if h.get STN_STATE_STATE 0 ≠ 2 then 1
    else if 2 ≤ h.get STN_BOOT_HELD_CAUSE 0 then 2
    else if op = 1 ∧ !inside then 3 else 0
  let h := h.put STN_IMG_LOAD_RESULT 0 r
  if r ≠ 0 then h
  else
    let src := if op = 1 then 3 else op - 1
    let h := ((h.put STN_IMG_LOAD_OP 0 op).put STN_IMG_LOAD_BUSY 0 1).put STN_BOOT_HELD_CAUSE 0 0
    let h := (h.setStn 1).setStep 4
    let a := h.srcAddr src
    let h := { h with boot := { h.boot with cand := [], src := src, tried := false, read := 0 } }
    let w := h.hdrReason (h.imgHdr a)
    if w ≠ 0 then h.imgRefuse w 0
    else
      let h := { h with boot := { h.boot with cand := [src] } }
      h.imgTry

/-! ### Flash commands (R364) -/

/-- STN_XSPI_CMD (R364): RESULT 1 busy, 2 head die not serving, 3 alignment or range. -/
def Hw.xspiCmd (h : Hw) (op head : Nat) : Hw :=
  let fa := h.get STN_XSPI_FADDR_ADDR 0
  let ma := h.get STN_XSPI_MADDR_ADDR 0
  let n := h.get STN_XSPI_LEN_LEN 0
  let sect := 2 ^ h.get STN_XSPI_STAT_SECT 0 head
  let n := if op = 3 then ceilTo sect n else n
  let mem := match h.place ma n with | .mem => decide (0x1000000 ≤ ma) | _ => false
  let r := if h.flag STN_XSPI_CMD_BUSY 0 then 1
    else if !h.dieUp head then 2
    else if h.flashCap head < fa + n ∨ (op = 3 ∧ fa % sect ≠ 0) ∨ (op ≠ 3 ∧ !mem) then 3 else 0
  let h := h.put STN_XSPI_CMD_RESULT 0 r
  if r ≠ 0 then h
  else
    let h := ((h.put STN_XSPI_CMD_OP 0 op).put STN_XSPI_CMD_HEAD 0 head).put STN_XSPI_CMD_BUSY 0 1
    { h with boot := { h.boot with xspi := some { op := op, head := head, faddr := fa, maddr := ma, len := n } } }

/-- `n` bytes copied from one address to another, in bursts of 256 bytes, each of which the ring guard judges by itself (R35, R267). -/
def Hw.copyBytes (h : Hw) (src dst : Nat) (n : Nat) : Hw :=
  let l := (h.rdBytes src n).zipIdx
  h.each (List.range ((n + 255) / 256)) (fun h k =>
    let c := (l.drop (256 * k)).take 256
    h.ringGuard (dst + 256 * k) c.length (fun h => h.each c (fun h p => h.wrByte (dst + p.2) p.1)))

/-- The operation of xSPI ends (R364, R382): its effect, RESULT 4 on a device error; an erase or program of an image slot is recorded. -/
def Hw.xspiEnd (h : Hw) (x : XspiS) (ok : Bool) : Hw :=
    let h := { h with boot := { h.boot with xspi := none } }
    let h := (h.put STN_XSPI_CMD_BUSY 0 0).put STN_XSPI_CMD_RESULT 0 (if ok then 0 else 4)
    let f := flashBase x.head + x.faddr
    let h := if !ok then h
      else if x.op = 1 then h.copyBytes f x.maddr x.len
      else if x.op = 2 then h.copyBytes x.maddr f x.len
      else h.each (List.range x.len) (fun h i => h.wrByte (f + i) 0xFF)
    if x.op = 1 then h
    else h.each ([0, 1].filter (fun s => rangesMeet x.faddr x.len (s * 0x1000000) 0x1000000))
      (fun h s => h.audit 0x0B x.head (x.head + b2n (x.op == 2) * 2 + s * 4))

/-- XSPI_DONE (R364): an operation on DDR5 ends holding the Twill path's token at rank 6 (R18, R35). -/
def Hw.xspiDone (h : Hw) (ok : Bool) : Hw :=
  match h.boot.xspi with
  | none => h
  | some x => if x.op = 3 then h.xspiEnd x ok else h.burst x.head x.maddr twBox 6 (fun h => h.xspiEnd x ok)

/-! ### Attestation (R375, R376) -/

/-- The digest of a calibration slot's contents, bytes 0 to LENGTH − 1 (R315). -/
def Hw.slotDigest (h : Hw) (d k : Nat) : Nat :=
  let x := h.calSlot d k
  let w := [1, x.seq, 0x68A0, d, x.time % 2 ^ 32, x.time / 2 ^ 32] ++ List.replicate 10 0 ++ [x.arefx, x.ratio] ++ List.replicate 14 0 ++
    (unitsOf d).flatMap (fun u => (List.range 196).map (fun i => tget x.sets (CAL_SET_WORD.key u i) (csetReset u i)))
  sha384 (w.flatMap (bytesOf 4))

/-- The 16 words of a die in the report (R376). -/
def Hw.attDie (h : Hw) (d : Nat) : List Nat :=
  if !h.dieUp d then List.replicate 16 0
  else
    let k := h.get CAL_NVM_STAT_ACTIVE d
    let w0 := k + h.get CAL_NVM_STAT_F_LEFT d * 2 ^ 8 + h.get ILK_CEIL_GEN_GEN d * 2 ^ 16 + h.get ILK_CEIL_GEN_LEFT d * 2 ^ 24
    if k = 3 then w0 :: List.replicate 15 0
    else [w0, (h.calSlot d k).seq] ++ wordsOf 12 (h.slotDigest d k) ++ [0, 0]

/-- The words 0x000 to 0x2DF of the report (R376). -/
def Hw.attWords (h : Hw) (signer : Nat) : List Nat :=
  let rel := h.get STN_STATE_RELIEF 0
  let mask := fun (f : Nat → Bool) => maskOf ((List.range 8).map f)
  let pres := h.get STN_CENSUS_PRESENT 0
  [ 0x54535441, 1 + 0x340 * 2 ^ 16,
    h.ownNum + signer * 2 ^ 12 + rel * 2 ^ 13 + h.get STN_ID_PART 0 * 2 ^ 14 + h.get STN_STATE_STATE 0 * 2 ^ 16 + h.get STN_KEYSLOT_PROV 0 * 2 ^ 19,
    h.get STN_IMGVER_VER 0 ] ++ (List.range 8).map (fun i => h.get STN_ATT_NONCE_WORD 0 i) ++ wordsOf 2 h.now ++
  [ h.get STN_KEYSLOT_IN_USE 0 + h.get STN_KEYSLOT_STATE 0 * 2 ^ 8 + h.get STN_BOOT_IMG_SRC 0 * 2 ^ 16,
    pres + h.get STN_CENSUS_SERVING 0 * 2 ^ 8 + mask (fun d => bit pres d && (h.die d).fenced) * 2 ^ 16 ] ++
  wordsOf 12 (h.get STN_IMG_DIGEST_DIGEST 0) ++ wordsOf 12 (h.get STN_KEY_DIGEST_DIGEST 0) ++ [h.aud.next - 1, 0] ++ wordsOf 12 h.aud.last ++
  [ h.get STN_BIND_NUM 0 + h.get STN_BIND_BOUND 0 * 2 ^ 12 + h.get STN_BIND_LEFT 0 * 2 ^ 16 + h.get STN_RELIEF_EN 0 * 2 ^ 20
      + h.get STN_RELIEF_LEFT 0 * 2 ^ 21, 0 ] ++ (List.range 8).flatMap h.attDie

/-- STN_ATT_CMD with GO (R375): RESULT 1 where the signer does not serve, 2 while a report is being formed. -/
def Hw.attest (h : Hw) (signer : Nat) : Hw :=
  let d := if signer = 1 then 0 else if signer = 2 then 1 else h.bootDie
  if 2 < signer ∨ !h.dieUp d then h.put STN_ATT_CMD_RESULT 0 1
  else if h.flag STN_ATT_CMD_BUSY 0 then h.put STN_ATT_CMD_RESULT 0 2
  else
    let h := ((h.put STN_ATT_CMD_SIGNER 0 signer).put STN_ATT_CMD_BUSY 0 1).put STN_ATT_CMD_DONE 0 0
    let h := (h.put STN_ATT_CMD_RESULT 0 0).put STN_ATT_CMD_GO 0 1
    { h with boot := { h.boot with att := some (d, h.attWords d) } }

/-- ATTEST_DONE (R375, R376): the report with its signature stands in STN_ATT_REP. -/
def Hw.attestDone (h : Hw) : Hw :=
  match h.boot.att with
  | none => h
  | some (d, w) =>
    let sig := Config.ecdsaSign d (sha384 (w.flatMap (bytesOf 4)))
    let words := w ++ (List.range 24).map (fun i => leAt sig (4 * i) 4)
    let h := h.each words.zipIdx (fun h p => h.put STN_ATT_REP_WORD 0 p.1 p.2)
    let h := ((h.put STN_ATT_CMD_BUSY 0 0).put STN_ATT_CMD_DONE 0 1).put STN_ATT_CMD_GO 0 0
    { h with boot := { h.boot with att := none } }

end Sys2Proof.Machine
end

