-- ==== Sys2Proof/Machine/Access.lean ====
section
/-! DEFINITION. Accesses of masters (R8 to R11, R39, R40, R58 to R65, R267, R446): where a write goes, when it takes effect, and what
a read returns. The status codes are those of R388. -/

namespace Sys2Proof.Machine

/-! ### Writes of unit windows -/

/-- The words of a unit's window that still wait when it has no ticks any more. -/
def Hw.wordsNow (h : Hw) (u : Nat) : Hw :=
  let l := (h.unit u).pend.filterMap (fun p => match p.act with | .word off v => some (off, v) | _ => none)
  (h.modU u (fun x => { x with pend := x.pend.filter (fun p => match p.act with | .word _ _ => false | _ => true) })).each l
    (fun h p => h.wordNow u p.1 p.2)

/-- A word of a unit window that takes effect at the unit's next guarded loop tick, or at once on a unit without ticks, after those that
came before it (R446). -/
def Hw.pendWord (h : Hw) (u off val : Nat) : Hw :=
  if h.runs u then h.modU u (fun x => { x with pend := x.pend ++ [{ act := .word off val }] }) else (h.wordsNow u).wordNow u off val

/-- Words of a unit window that no loop tick uses: they take effect when the write completes (R446): coupling registers, U_BIN_SRC,
staged ceilings, table pointers (which wait for an injection boundary by themselves), the trace selection. -/
def atOnce (off : Nat) : Bool :=
  (decide (0x10 ≤ off) && decide (off < 0x40)) || off == 0xB4 || (decide (0x660 ≤ off) && decide (off < 0x670)) || off == 0x700 || off == 0x704
    || (decide (0x780 ≤ off) && decide (off < 0x7C0))

/-- Captures in ARMED or TRIGGERED of a unit (R149). -/
def Hw.tracing (h : Hw) (u : Nat) : List Nat :=
  (List.range 64).filter (fun c => h.get MUS_CAP_UNIT_UNIT c == u && (h.get MUS_CAP_STAT_STATE c == 1 || h.get MUS_CAP_STAT_STATE c == 2))

/-- A write of the words that take effect at once. -/
def Hw.atOnceWrite (h : Hw) (u off val : Nat) : Hw :=
  if off < 0x40 then
    if !isConsist u && decide (off < 0x3C) then h
    else if h.isCoupled u && decide (off < 0x38) then h.put U_FLAGS_COUPLED_WR u 1
    else h.writeFields .unit u off val (fun f => f != U_CONSIST_STAT_DEPARTED || h.st u == stISOLATED)
  else if 0x660 ≤ off ∧ off < 0x670 then (if isConsist u then h else h.writeFields .unit u off val (fun _ => true))
  else if 0x780 ≤ off then
    if (h.tracing u).isEmpty then h.writeFields .unit u off val (fun _ => true)
    else h.each (h.tracing u) (fun h c => h.put MUS_CAP_STAT_SEL_WR c 1)
  else
    let h := h.writeFields .unit u off val (fun _ => true)
    if off = 0x700 then h.put U_TBL_STAT_FF_PEND u 1 else if off = 0x704 then h.put U_TBL_STAT_LEAK_PEND u 1 else h

/-- A write of U_RANGE_SEL (R207): it waits for the unit's next guarded tick. -/
def Hw.rangeSel (h : Hw) (u val : Nat) : Hw :=
  if !h.reaches u then h
  else if h.isMember u then h.put U_FLAGS_COUPLED_WR u 1
  else
    let h := if bit val 9 then h.pendWord u 0x400 val else h
    if h.runs u then
      h.modU u (fun x => { x with pend := x.pend ++ [{ act := .range (bits val 3 0) (bits val 5 4) (7 + 8 * bits val 8 8) }] })
    else h.rangeWrite u h.now (some (bits val 3 0)) (some (bits val 5 4)) (some (bits val 8 8))

/-- A write of U_ILK_CFG: FIXMASK acts at the unit's next guarded tick (R325). -/
def Hw.ilkCfg (h : Hw) (u val : Nat) : Hw :=
  if !h.reaches u then h else if h.isMember u then h.put U_FLAGS_COUPLED_WR u 1 else h.pendWord u 0x640 val

/-- A write to a unit window (R45, R50, R446). -/
def Hw.unitWrite (h : Hw) (u off val : Nat) : Hw :=
  let h := h.passGuard u
  if off = 0xA4 then h.loopWrite u (bits val 2 0) (bits val 3 3) (bits val 5 4)
  else if off = 0x648 then h.connWrite u (bits val 1 0)
  else if h.isMember u && decide (0x40 ≤ off) && decide (off < 0x700) then h.put U_FLAGS_COUPLED_WR u 1
  else if off = 0x14 then
    if !isConsist u then h else match bits val 1 0 with | 1 => h.couple u | 2 => h.uncouple u | _ => h
  else if off = 0x44 then h.refPush u val
  else if off = 0x54 then (if bit val 0 then h.refFlush u else h)
  else if 0x94 ≤ off ∧ off < 0xA0 then h.mdecWrite u ((off - 0x94) / 4) val
  else if off = 0x400 then h.rangeSel u val
  else if off = 0x614 then (if bit val 0 then h.clearWrite u else h)
  else if off = 0x640 then h.ilkCfg u val
  else if atOnce off then h.atOnceWrite u off val
  else if hasPlain .unit off then h.pendWord u off val
  else h

/-! ### Writes of other blocks -/

/-- What a write to an engine finds: the guard instant of its unit has passed if it has come (R26, R446). -/
def Hw.engPass (h : Hw) (e : Nat) : Hw := if h.flag TT_BIND_VALID e then h.passGuard (h.get TT_BIND_UNIT e) else h

/-- A write to an engine's registers: a plain word waits for a guarded tick of the bound unit (R446), and one of an engine without a unit
that has ticks takes effect at once. -/
def Hw.engWrite (h : Hw) (e off val : Nat) : Hw :=
  let h := h.engPass e
  if off = 0x0 then h.ttBind e (bits val 9 0) (bits val 15 15)
  else if off = 0x4 then (let c := bits val 1 0; if c = 0 then h else h.ttCmd e c)
  else if 0x280 ≤ off ∧ off < 0x2A0 then
    if h.flag TT_BIND_VALID e && h.runs (h.get TT_BIND_UNIT e) then
      h.modE e (fun x => { x with slotW := x.slotW ++ [((off - 0x280) / 4, val, false)] })
    else (h.modE e (fun x => { x with slotW := guardW x.slotW ++ [((off - 0x280) / 4, val, true)] })).slotTick e
  else if off = 0x2C0 then
    let h := h.put TT_JUMP_BREAK e (bits val 1 1)
    if bit val 0 then h.jumpRequest e else h
  else if off = 0x2C8 then h.jumpTgt e false val
  else if off = 0x2CC then h.jumpTgt e true val
  else if off = 0x310 then h.srWp e val
  else if !hasPlain .eng off then h
  else if h.flag TT_BIND_VALID e && h.runs (h.get TT_BIND_UNIT e) then h.modE e (fun x => { x with pendW := x.pendW ++ [(off, val, false)] })
  else (h.engWordsNow e).writeFields .eng e off val (fun _ => true)

/-- A write to a queue's registers by a master. -/
def Hw.queueWrite (h : Hw) (m : Master) (q off val : Nat) : Hw :=
  if off = 0x0 then h.qCfgWrite q val
  else if off = 0x20 then
    let h := if bit val 0 then h.dropRest m q else h
    if bit val 1 then h.qFlush q else h
  else if off = 0x24 then h.qRelease q val
  else h.writeFields .queue q off val (fun _ => true)

/-- A write of CAL_CMD (R310 to R316). -/
def Hw.calCmd (h : Hw) (d val : Nat) : Hw :=
  let ch := bits val 8 3
  match bits val 2 0 with
  | 1 => h.calVisit d ch
  | 2 => h.calStore d
  | 3 => h.calStandin d ch (bits val 9 9) (bit val 10)
  | 4 => h.calReturn d ch
  | 5 => h.calExtStdv d
  | 6 => h.extRange d (bits val 11 11)
  | 7 => h.calFactoryStore d
  | _ => if h.flag CAL_CMD_BUSY d then h else h.writeFields .die d 0x80010 val (fun _ => true)

/-- A write to a die's registers. Those that its units use at loop ticks count from a unit's next guard instant (R446). -/
def Hw.dieWrite (h : Hw) (d off val : Nat) : Hw :=
  let h := if off = 0x70000 ∨ off = 0x80008 ∨ off = 0x8000C then h.each h.heads Hw.passGuard else h
  if 0x800 ≤ off ∧ off < 0x900 ∧ 2 ≤ d then h
  else if off = 0x804 then (if bit val 0 then h.ddrTrain d else h)
  else if off = 0x80010 then h.calCmd d val
  else if off = 0x60010 then (if bit val 4 then h.thConvert d (bits val 3 0) else h.writeFields .die d off val (fun _ => true))
  else if off = 0x70008 then (h.writeFields .die d off val (fun _ => true)).cntWrite (.ceil d (bits val 3 0))
  else h.writeFields .die d off val (fun _ => true)

/-- A write to a capture's registers: while the capture runs or waits to be armed, a plain word waits for a guarded tick of its unit (R446);
otherwise no tick uses it, and it takes effect at once. -/
def Hw.capWrite (h : Hw) (c off val : Nat) : Hw :=
  let h := h.passGuard (h.get MUS_CAP_UNIT_UNIT c)
  if off = 0x24 then match bits val 1 0 with | 1 => h.capArm c | 2 => h.capStop c | 3 => h.capForce c | _ => h
  else if !hasPlain .cap off then h
  else if (h.get MUS_CAP_STAT_STATE c % 3 != 0 || (h.cap c).arm) && h.runs (h.get MUS_CAP_UNIT_UNIT c) then
    h.modC c (fun x => { x with pendW := x.pendW ++ [(off, val, false)] })
  else (h.capWordsNow c).writeFields .cap c off val (fun _ => true)

/-- TW_LINE_LAT: the master's LINE_LAT at a locked station, else the station's own, in metronome ticks rounded up (R408). -/
def Hw.showLat (h : Hw) : Hw :=
  let own := max 1 (h.get TW_LINE_CFG_LINE_LAT 0)
  let us := if h.flag TW_LINE_STAT_LOCKED 0 && !h.flag TW_LINE_STAT_IS_MASTER 0 then max 1 (h.line.lat.getD own) else own
  h.put TW_LINE_LAT_TICKS 0 (ticksOfUs us)

/-- A station joined to its Line (R69, R399, R404): announced, and locked or Line master. -/
def Hw.joined (h : Hw) : Bool :=
  h.flag TW_LINE_STAT_ANNOUNCED 0 && (h.flag TW_LINE_STAT_LOCKED 0 || h.flag TW_LINE_STAT_IS_MASTER 0)

/-- A write of TW_LINE_CFG. DARK_B shows a station not joined to a Line that is configured (R69). -/
def Hw.lineCfg (h : Hw) (val : Nat) : Hw :=
  let was := h.flag TW_LINE_CFG_EN 0
  let h := (h.writeFields .stn 0 0x8100 val (fun _ => true)).candidacy.showLat
  if !h.serves then h
  else if !h.flag TW_LINE_CFG_EN 0 then h.setDark false
  else if was then h
  else h.setDark (!h.joined)

/-- A write to the registers of a Tweed port: one that changes MODE takes the port DOWN (R384). -/
def Hw.portWrite (h : Hw) (p off val : Nat) : Hw :=
  if off = 0 then
    if h.get TW_PORT_CFG_MODE p = bits val 1 0 then h else (h.portDown p).put TW_PORT_CFG_MODE p (bits val 1 0)
  else h.writeFields .port p off val (fun _ => true)

/-- A write of STN_KEY_CMD (R380). -/
def Hw.keyWrite (h : Hw) (val : Nat) : Hw :=
  let op := bits val 1 0
  if op = 1 ∨ op = 2 then h.keyCmd op (bits val 3 2)
  else if h.flag STN_KEY_CMD_BUSY 0 then h else h.put STN_KEY_CMD_SLOT 0 (bits val 3 2)

/-- A write to the station's registers. -/
def Hw.stnWrite (h : Hw) (off val : Nat) : Hw :=
  if off = 0x14 then (let c := bits val 1 0; if c = 0 then h else h.imgLoad c)
  else if off = 0x100 then h.cntWrite (.bind val)
  else if off = 0x104 then h.cntWrite (.relief (bits val 0 0))
  else if off = 0x10C then h.keyWrite val
  else if off = 0x200 then
    (let c := bits val 1 0; if c = 0 then (if h.flag STN_XSPI_CMD_BUSY 0 then h else h.writeFields .stn 0 off val (fun _ => true)) else h.xspiCmd c (bits val 2 2))
  else if off = 0xC00 then h.metroCtrl val
  else if off = 0x1008 then (if bit val 10 then h.hostRaise (bits val 8 0) (bit val 9) else h.writeFields .stn 0 off val (fun _ => true))
  else if 0x1100 ≤ off ∧ off < 0x1120 then h.trigCfg ((off - 0x1100) / 4) val
  else if off = 0x2020 then (if bit val 0 then h.attest (bits val 2 1) else h.writeFields .stn 0 off val (fun _ => true))
  else if off = 0x300C then h.audit 0x0C h.logDie (bits val 19 0)
  else if off = 0x8100 then h.lineCfg val
  else h.writeFields .stn 0 off val (fun _ => true)

/-- A word written to a register (R11, R446). -/
def Hw.regWrite (h : Hw) (m : Master) (b : Blk) (inst off val : Nat) : Hw :=
  let val := val % 2 ^ 32
  match b with
  | .unit => h.unitWrite inst off val
  | .eng => h.engWrite inst off val
  | .queue => h.queueWrite m inst off val
  | .die => h.dieWrite inst off val
  | .cap => h.capWrite inst off val
  | .port => h.portWrite inst off val
  | .stn => h.stnWrite off val
  | .sens => h.writeFields .sens inst off val (fun f => !(decide (inst % 12 < 4) && (f == TH_SCFG_TYPE || f == TH_MAP_CH)))
  | .eth =>
    let h := h.writeFields .eth inst off val (fun _ => true)
    if h.flag ETH_PTP_EN inst then h else h.put ETH_PTP_LOCK inst 0
  | b => h.writeFields b inst off val (fun _ => true)

/-! ### Memory -/

/-- Bytes written to memory by a master, through the ring guard of DDR5 (R267). -/
def Hw.memStore (h : Hw) (a n val : Nat) : Hw := h.ringGuard a n (fun h => h.wrLE a val n)

/-- An access to memory made: STATUS and data. -/
def Hw.memDo (h : Hw) (w : MemWait) : (Nat × Nat) × Hw :=
  match h.place w.addr w.n with
  | .mem =>
    match w.val with
    | some v => ((0, 0), h.memStore w.addr w.n v)
    | none =>
      let (bad, h) := { h with ecc := h.ecc ++ w.ecc }.eccRead w.addr w.n
      if bad then ((1, 0), h) else ((0, h.rdLE w.addr w.n), h)
  | _ => ((1, 0), h)

/-- The die whose Twill path a master's access to DDR5 takes: the one its port, or its core, is on (R12, R13, R18). -/
def Hw.twDie (h : Hw) : Master → Nat
  | .tweed p => p % 4 / 2
  | .eth _ _ => 0
  | .spi => h.bootDie
  | .core d _ => d

/-- The token that a master's access to an address takes. -/
def Hw.memTok (h : Hw) (m : Master) (a : Nat) : Option Res := (ddrChan a).map (fun c => .twill (h.twDie m) c)

/-- An access of a master to memory: STATUS and data, or none while it waits for the Twill path's token (R18, R35). -/
def Hw.memAccess (h : Hw) (w : MemWait) : Option (Nat × Nat) × Hw :=
  match h.memTok w.m w.addr with
  | none =>
    let (v, h) := h.memDo w
    (some v, h)
  | some r =>
    let h := h.twAsk r (twHost w.m) 6
    if h.holds r (twHost w.m) then
      let (v, h) := h.memDo w
      (some v, h.tokRel r (twHost w.m))
    else (none, { h with memQ := h.memQ ++ [{ w with ecc := h.ecc }] })

/-! ### Accesses -/

/-- Masters are served in stages during start-up (R358): the SPI target port and the signal boxes from step 2, which begins with the
release of reset, the Tweed and Ethernet ports from step 3; none after the boot die's signal box failed. -/
def Hw.servesMaster (h : Hw) (m : Master) : Bool :=
  match m with
  | .tweed _ => decide (3 ≤ h.get STN_BOOT_STEP 0)
  | .eth _ _ => decide (3 ≤ h.get STN_BOOT_STEP 0)
  | .spi => !h.boot.noRom
  | .core d c => h.dieUp d && decide (c < 2) && !h.boot.noRom

/-- A write of `n` bytes by a master (R9, R58 to R60): the STATUS, or none while it waits for DDR5's token; and the hardware. -/
def Hw.masterWrite (h : Hw) (m : Master) (a n val : Nat) (job : Option Job := none) : Option Nat × Hw :=
  match h.place a n with
  | .reg b inst off => (some 0, h.regWrite m b inst off val)
  | .mem =>
    let h := h.srcTouch a n
    let (r, h) := h.memAccess { m := m, addr := a, n := n, val := some val, job := job }
    (r.map (fun x => x.1), h)
  | .hole => (some 0, h)
  | .bad => (some 1, h)

/-- A queue's pointers are compared before a read of its registers shows them (R283). -/
def Hw.readCheck (h : Hw) (b : Blk) (inst : Nat) : Hw := match b with | .queue => h.qCheck inst | _ => h

/-- A read of `n` bytes by a master (R9, R58 to R65, R287): the STATUS with the data, or none while the master waits for a snapshot
slot or for DDR5's token; and the hardware. -/
def Hw.masterRead (h : Hw) (m : Master) (a n : Nat) (job : Option Job := none) : Option (Nat × Nat) × Hw :=
  match h.place a n with
  | .reg b inst off =>
    let h := h.readCheck b inst
    match snapObj b off with
    | some (lo, k) =>
      if off = lo then
        let (v, h) := h.snapLow m b inst lo k job
        (v.map (fun x => (0, x)), h)
      else
        let ((v, miss), h) := h.snapHigh m b inst off lo
        (some (b2n miss, v), h)
    | none =>
      if b = .c32 ∧ off < 0xC then
        let (v, h) := h.c32Read inst (off / 4)
        (some (0, v), h)
      else (some (0, h.viewWord b inst off), h)
  | .mem => h.memAccess { m := m, addr := a, n := n, job := job }
  | .hole => (some (0, 0), h)
  | .bad => (some (1, 0), h)

/-- REGISTER_WRITE (R446): a write by a master, with its answer. -/
def Hw.writeCmd (h : Hw) (m : Master) (a n val : Nat) : Hw :=
  if h.servesMaster m then
    match h.masterWrite m a n val with
    | (some st, h) => h.answer m st []
    | (none, h) => h
  else h

/-- ACCESS_ERROR (R9, R60): an access that has no effect but the report of an access error. -/
def Hw.accessError (h : Hw) (m : Master) (a n : Nat) : Hw :=
  match h.place a n with
  | .bad => if h.servesMaster m then h.answer m 1 [] else h
  | _ => h

/-- A read of a snapshot object's lowest word, or of a higher one (R62, R63). -/
def Hw.snapCmd (h : Hw) (m : Master) (a : Nat) (lowest : Bool) : Hw :=
  match h.place a 4 with
  | .reg b _ off =>
    match snapObj b off with
    | some (lo, _) =>
      if (off == lo) == lowest && h.servesMaster m then
        let (r, h) := h.masterRead m a 4
        match r with
        | some (st, v) => h.answer m st [v]
        | none => h
      else h
    | none => h
  | _ => h

/-- A read of a C32 data register (R176). -/
def Hw.c32Cmd (h : Hw) (m : Master) (g path : Nat) : Hw :=
  if h.servesMaster m && h.dieUp (g / 32) && decide (path < 3) then
    let (v, h) := h.c32Read g path
    h.answer m 0 [v]
  else h

end Sys2Proof.Machine
end

