-- ==== Sys2Proof/Machine/Boot.lean ====
section
/-! DEFINITION. Start-up (R356 to R361), the application of an image's records (R368 to R370), leaving BOOTING, and fencing (R68). -/

namespace Sys2Proof.Machine

/-! ### Fencing (R68) -/

/-- A die is fenced: its ISO_N is asserted, its members depart, its ports go DOWN, its DDR5 channel's capacity is 0 and
its drive onto the package lines is cut (R320). -/
def Hw.fence (h : Hw) (d cause : Nat) : Hw :=
  let h := h.departDie d
  let h := (h.isoAssert d).modD d (fun x => { x with fenced := true })
  let h := if d < 2 then (((h.portDown (2 * d)).portDown (2 * d + 1)).ringsLost d).trigGone d else h
  let h := { h with boot := { h.boot with fences := h.boot.fences ++ [(d, cause)] } }
  h.lines.showServing

/-- DIE_FENCE at run time (R68): the boot die is never fenced; a FENCE entry is written at once, during start-up at step 8 (R382). -/
def Hw.dieFence (h : Hw) (d : Nat) : Hw :=
  if d = h.bootDie ∨ !h.dieUp d ∨ h.get STN_BOOT_STEP 0 < 3 then h
  else
    let h := h.fence d 3
    if h.get STN_STATE_STATE 0 = 1 ∧ h.get STN_BOOT_STEP 0 < 8 then h
    else
      let h := { h with boot := { h.boot with fences := h.boot.fences.filter (fun p => p.1 != d) } }
      h.audit 0x09 d 3

/-! ### Power-on reset and the census (R356 to R361, R421) -/

/-- Registers that OTP and parts hold: they stand over a power-on reset. -/
def otpKeeps (k : RegKey) : Bool :=
  let o := k.pos / 8
  match k.blk with
  | .stn => o == 0 || k.pos == 0x4 * 8 || (decide (0x100 ≤ o) && decide (o < 0x108)) || o == 0x2024 || (decide (0x2800 ≤ o) && decide (o < 0x3000)) || o == 0x8110
  | .die => k.pos == 0x70008 * 8 + 4 || k.pos == 0x80064 * 8 + 8 || (decide (0x80074 ≤ o) && decide (o < 0x80080))
  | _ => false

/-- The station after power-on reset (R356, R359, R421): NVM, OTP and flash keep their contents, everything else is at reset; the
straps are sampled, and the boot ROM starts (R357). `fl0` and `fl1` are what the head dies' flash devices declare: bit 0 an SFDP table, bit 1
8D-8D-8D operation in it, which is then used, else 1-4-4 (R362); above them CAP and SECT as STN_XSPI_STAT lays them out. -/
def Hw.powerUp (h : Hw) (bootsel stnmode : Bool) (fl0 fl1 : Nat) : Hw :=
  let h := h.burnCut
  let h : Hw := { free := h.free, regs := h.regs.filter (fun (p : RegKey × Nat) => otpKeeps p.1),
                  mem := h.mem.filter (fun (p : Host.Cell) => decide (2 ^ 40 ≤ p.1)), nv := h.nv }
  let h := ((h.putB STN_BOOT_BOOTSEL 0 bootsel).putB STN_BOOT_STNMODE 0 stnmode).putB STN_STATE_RELIEF 0 bootsel
  let h := h.each [0, 1] (fun h k =>
    let v := if k = 0 then fl0 else fl1
    ((h.put STN_XSPI_STAT_MODE 0 (if !bit v 0 then 0 else if bit v 1 then 3 else 2) k).put STN_XSPI_STAT_CAP 0 (bits v 7 2) k).put STN_XSPI_STAT_SECT 0 (bits v 12 8) k)
  let h := h.each [0, 1] (fun h p => h.put TW_PORT_CFG_MODE p (h.startMode p))
  let h := h.keyShown.setStep 2
  if bootsel && !h.flag STN_RELIEF_EN 0 then h.hold 2 else h

/-- Every present die has answered or is fenced: step 4 begins (R357, R360). -/
def Hw.censusEnd (h : Hw) : Hw :=
  if h.get STN_STATE_STATE 0 = 1 ∧ h.get STN_BOOT_STEP 0 = 3 ∧
      (bitIdx 8 (h.get STN_CENSUS_PRESENT 0)).all (fun d => h.boot.answered.contains d || (h.die d).fenced) then h.imgChoose
  else h

/-- The self-test of a die ends, and its Interlocking is live (R358, R360, R361): 0 pass; for the boot die 1 its signal box failed, 2 its Twill port, Interlocking or
SRAM, 3 its metronome; any other die that fails is fenced. -/
def Hw.bistDone (h : Hw) (d fail : Nat) : Hw :=
  if !h.dieUp d || h.boot.live.contains d then h
  else
    let h := { h with boot := { h.boot with live := h.boot.live ++ [d] } }
    let h := if d < 2 then h.lines else h
    let ok := { h with boot := { h.boot with answered := h.boot.answered ++ [d] } }
    if d = h.bootDie then
      if 2 < h.get STN_BOOT_STEP 0 then h
      else if fail = 0 then (ok.showServing.setStep 3).censusEnd
      else if h.get STN_STATE_STATE 0 ≠ 1 then h
      else if fail = 1 then { h.setStep 2 with boot := { h.boot with noRom := true } }
      else (h.setStep 3).hold (fail + 1)
    else if fail = 0 then ok.showServing.censusEnd
    else ((h.put STN_CENSUS_BIST_FAIL 0 (setBit (h.get STN_CENSUS_BIST_FAIL 0) d)).fence d 1).censusEnd

/-- CENSUS_TIMEOUT at instant `t` (R360): a die that has not answered 20 ms after reset release is fenced. -/
def Hw.censusTimeout (h : Hw) (d t : Nat) : Hw :=
  if !h.dieUp d || d == h.bootDie || h.boot.answered.contains d || decide (t < h.now) || decide (t < 20 * t1ms)
      || h.get STN_BOOT_STEP 0 != 3 then h
  else
    let h := { h with now := t }
    ((h.put STN_CENSUS_NOANSWER 0 (setBit (h.get STN_CENSUS_NOANSWER 0) d)).fence d 2).censusEnd

/-! ### Records (R368 to R370) -/

/-- Fields whose Reset column reads "from image" and that a master cannot write (R369). -/
def fromImage (f : Fld) : Bool := f == U_ID_FLOAT || f == U_MODE_POL || f == U_SAFE_PAT_SAFE

/-- The fields of a word that only an image can write, written. -/
def Hw.imageFields (h : Hw) (inst off val : Nat) : Hw :=
  h.each (hits .unit off) (fun h x => if fromImage x.fld then h.put x.fld inst (h.writtenVal inst x val) x.i else h)

/-- A record's word written to a unit window: at once, since every unit is isolated; no CMD field is written (R369). -/
def Hw.recUnit (h : Hw) (u off val : Nat) : Hw :=
  let h := h.imageFields u off val
  if off = 0x14 ∨ off = 0x54 ∨ off = 0xA4 ∨ off = 0x614 ∨ off = 0x648 then h.writeFields .unit u off val (fun _ => true)
  else if off = 0x44 then h.refPush u val
  else if 0x94 ≤ off ∧ off < 0xA0 then h.mdecWrite u ((off - 0x94) / 4) val
  else if off = 0x400 then h.rangeWrite u h.now (some (bits val 3 0)) (some (bits val 5 4)) (some (bits val 8 8))
  else if atOnce off then h.atOnceWrite u off val
  else h.wordNow u off val

/-- A record's word written to a register (R369): as a master writes, but for CMD and CNT fields. -/
def Hw.recReg (h : Hw) (b : Blk) (inst off val : Nat) : Hw :=
  let plain := fun (h : Hw) => h.writeFields b inst off val (fun _ => true)
  match b with
  | .unit => h.recUnit inst off val
  | .eng => if off = 0x4 then h else if off = 0x2C0 then plain h else h.engWrite inst off val
  | .queue => if off = 0x20 then h else h.queueWrite (.core h.bootDie 0) inst off val
  | .die => plain h
  | .cap => if off = 0x24 then h else plain h
  | .port => h.portWrite inst off val
  | .stn => if off = 0x1008 then plain h else h.stnWrite off val
  | _ => plain h

/-- A record's word written to a station address. -/
def Hw.recWord (h : Hw) (a val : Nat) : Hw :=
  match h.place a 4 with
  | .reg b inst off => h.recReg b inst off (val % 2 ^ 32)
  | .mem => h.memStore a 4 val
  | _ => h

/-- A record (R369): OP, COUNT, ADDR, body. -/
abbrev ImgRec := Nat × Nat × Nat × List Nat

/-- The word of a record that goes to its `i`-th address. -/
def recVal (r : ImgRec) (i : Nat) : Nat := if r.1 = 2 then r.2.2.2.getD 0 0 else r.2.2.2.getD i 0

/-- The words a record writes. -/
def recCount (r : ImgRec) : Nat := if r.1 = 3 then 0 else r.2.1

/-- A record touches an address range. -/
def recMeets (r : ImgRec) (a n : Nat) : Bool := decide (0 < recCount r) && rangesMeet r.2.2.1 (4 * recCount r) a n

/-- The engine that a START record names (R369), if its address is an engine base. -/
def startEng (a : Nat) : Option Nat :=
  if 0x100000 ≤ a ∧ a < 0x900000 then
    let d := (a - 0x100000) / 0x100000
    let o := (a - 0x100000) % 0x100000
    if 0x40000 ≤ o ∧ o < 0x48000 ∧ o % 0x1000 = 0 then some (d * 8 + (o - 0x40000) / 0x1000) else none
  else none

/-- A record is one of those an image may hold (R369, reason 9). -/
def recOk (r : ImgRec) : Bool :=
  let a := r.2.2.1
  (r.1 == 1 || r.1 == 2 || (r.1 == 3 && r.2.1 == 0 && (startEng a).isSome)) && decide (a < 2 ^ 40) &&
    !recMeets r 0 0x400 && !recMeets r 0x2000 0x2000

/-- The records of a section body, as long as they parse; and whether all of it does (R369). -/
def parseRecs : Nat → List Nat → List ImgRec × Bool
  | 0, l => ([], l.isEmpty)
  | f + 1, l =>
    match l with
    | [] => ([], true)
    | w0 :: a0 :: a1 :: r =>
      let op := w0 % 256
      let n := w0 / 256
      let k := if op = 1 then n else if op = 2 then 1 else 0
      let rec_ : ImgRec := (op, n, a0 + a1 * 2 ^ 32, r.take k)
      let used := (3 + k + 1) / 2 * 2
      if r.length < k ∨ !recOk rec_ then ([], false)
      else
        let (l', ok) := parseRecs f (l.drop used)
        (rec_ :: l', ok)
    | _ => ([], false)

/-- A record is deferred to read 3 (R370). -/
def recDeferred (r : ImgRec) : Bool :=
  recMeets r 0x1000000000 0x2000000000 ||
    (decide (r.1 ≠ 3) && (List.range (recCount r)).any (fun i =>
      let a := r.2.2.1 + 4 * i
      decide (0x100000 ≤ a) && decide (a < 0x900000) && decide (0x50000 ≤ (a - 0x100000) % 0x100000) && decide ((a - 0x100000) % 0x100000 < 0x54000)
        && a % 0x100 == 0 && bit (recVal r i) 2 && bit (recVal r i) 3))

/-- A record applied. -/
def Hw.recApply (h : Hw) (r : ImgRec) : Hw :=
  match startEng r.2.2.1 with
  | some e =>
    if r.1 = 3 then (if h.dieUp (e / 8) then { h with boot := { h.boot with start := h.boot.start ++ [e] } } else h)
    else h.each (List.range (recCount r)) (fun h i => h.recWord (r.2.2.1 + 4 * i) (recVal r i))
  | none => h.each (List.range (recCount r)) (fun h i => h.recWord (r.2.2.1 + 4 * i) (recVal r i))

/-- A deferred record addresses DDR5 beyond the installed capacity (R371, reason 11). -/
def Hw.recBeyond (h : Hw) (r : ImgRec) : Bool :=
  recMeets r 0x1000000000 0x2000000000 && (match h.place r.2.2.1 (4 * recCount r) with | .mem => false | _ => true)

/-- The sections of the image in the order of their application: ascending TYPE, then the order of the table (R370). -/
def sectOrder (hdr : List Nat) : List Nat :=
  (List.range 11).flatMap (fun t => (List.range (hdrSects hdr)).filter (fun i => t ≠ 0 && (hdrSect hdr i).1 == t))

/-- The bytes of a section where the image stands. -/
def Hw.sectBytes (h : Hw) (i : Nat) : List Nat :=
  let s := hdrSect h.boot.hdr i
  h.rdBytes (h.boot.base + s.2.2.1) s.2.2.2.1

/-- The words of a section. -/
def Hw.sectWords (h : Hw) (i : Nat) : List Nat :=
  let s := hdrSect h.boot.hdr i
  h.rdWords (h.boot.base + s.2.2.1) (s.2.2.2.1 / 4)

/-- The first section whose digest does not compare (R370, R371). -/
def Hw.badDigest (h : Hw) : Option Nat :=
  (List.range (hdrSects h.boot.hdr)).find? (fun i => sha384 (h.sectBytes i) % 2 ^ 384 != (hdrSect h.boot.hdr i).2.2.2.2)

/-- The records that a read applies, section by section (R370): the refusal met, if any, and the hardware. -/
def Hw.applySects (h : Hw) (deferred : Bool) : List Nat → Option (Nat × Nat) × Hw
  | [] => (none, h)
  | i :: r =>
    let w := h.sectWords i
    let (recs, ok) := parseRecs w.length w
    let recs := recs.filter (fun x => recDeferred x == deferred)
    if deferred && recs.any h.recBeyond then (some (11, i), h)
    else
      let h := h.each recs (fun h x => h.recApply x)
      if ok then h.applySects deferred r else (some (9, i), h)

/-! ### The reads (R370) -/

/-- The public key of the image, and its digest (R366). -/
def Hw.imgKey (h : Hw) : List Nat := (h.boot.hdr.drop 0x20).take 97

/-- The image digest (R366). -/
def Hw.imgDigest (h : Hw) : Nat := sha384 h.boot.hdr % 2 ^ 384

/-- The key digest (R366). -/
def Hw.keyDigest (h : Hw) : Nat := sha384 h.imgKey % 2 ^ 384

/-- The station is provisioned: some key slot has left BLANK (R367). -/
def Hw.provisioned (h : Hw) : Bool := h.get STN_KEYSLOT_STATE 0 != 0

/-- The refusal that read 1 finds, the lowest-numbered of those found (R367, R368, R371, R447): reason and section; reason 0 for
none. -/
def Hw.read1 (h : Hw) : Nat × Nat :=
  let hdr := h.boot.hdr
  let n := hdrSects hdr
  let slot := leAt hdr 0x0C 1
  let sig := h.rdBytes (h.boot.base + 0xC0 + 64 * n) 96
  let unknown := (List.range n).find? (fun i => let s := hdrSect hdr i; s.2.1 && (s.1 == 0 || decide (10 < s.1)))
  if h.provisioned && (decide (3 < slot) || h.keyState slot != 1) then (5, 0)
  else if h.provisioned && h.get STN_KEY_SLOTD_DIGEST 0 slot != h.keyDigest then (6, 0)
  else if !ecdsaVerify h.imgKey h.imgDigest sig then (7, 0)
  else match h.badDigest with
    | some i => (8, i)
    | none => match unknown with | some i => (12, i) | none => (0, 0)

/-- Consists that the image lists: entry 0 valid, with or without remote members (R370). -/
def Hw.listed (h : Hw) (remote : Bool) : List Nat :=
  ((List.range 256).map (· + 512)).filter (fun c => h.flag U_MEMBER_VALID c 0 &&
    (List.range 8).any (fun m => h.flag U_MEMBER_VALID c m && h.flag U_MEMBER_REMOTE c m) == remote)

/-- The end of read 2 (R98, R357, R370): safe patterns, local consists, and the training of both channels. -/
def Hw.read2End (h : Hw) : Hw :=
  let h := h.each (List.range 8) (fun h d =>
    if h.dieUp d then h.each (List.range 32) (fun h c =>
      h.ptsReq d { ch := c, pat := h.get U_SAFE_PAT_SAFE (posUnit d c), rank := 1, why := .image }) else h)
  let h := h.each (h.listed false) (fun h c => h.couple c)
  let h := { h with boot := { h.boot with remote := !(h.listed true).isEmpty, read := 3 } }
  let h := h.setStep 7
  h.each [0, 1] (fun h c =>
    if h.flag DDR_STAT_TRAINED c && (h.die c).ddrCfg == some (h.ddrCfgWord c) then h else h.ddrTrain c)

/-- The image is in force, as read 1 judged it (R366, R367). -/
def Hw.inForce (h : Hw) : Hw :=
  let h := (h.put STN_IMG_DIGEST_DIGEST 0 h.imgDigest).put STN_KEY_DIGEST_DIGEST 0 h.keyDigest
  let h := (h.put STN_IMGVER_VER 0 (hdrVer h.boot.hdr)).put STN_BOOT_IMG_SRC 0 h.boot.src
  let h := (h.putB STN_BOOT_FALLBACK 0 h.boot.tried).putB STN_KEYSLOT_UNPROV_IMG 0 (!h.boot.prov)
  h.put STN_KEYSLOT_IN_USE 0 (if h.boot.prov then leAt h.boot.hdr 0x0C 1 else 0)

/-- IMAGE_READ_DONE (R370, R371): one read of the image completes; `err` tells a read error of the source. -/
def Hw.imageRead (h : Hw) (err : Bool) : Hw :=
  if h.get STN_STATE_STATE 0 ≠ 1 then h
  else
    let total := hdrTotal h.boot.hdr
    let n := h.boot.read
    if n = 0 ∨ 3 < n ∨ (n = 3 ∧ (h.flag DDR_STAT_BUSY 0 || h.flag DDR_STAT_BUSY 1)) then h
    else
      let (ue, h) := if h.boot.src = 3 then h.eccRead h.boot.base total else (false, h)
      if err || ue then h.imgRefuse 10 0
      else if h.boot.touched then h.imgRefuse 8 0
      else if n = 1 then
        let (r, i) := h.read1
        if r ≠ 0 then h.imgRefuse r i
        else
          let h := { h with boot := { h.boot with read := 2, prov := h.provisioned } }
          h.setStep 6
      else match h.badDigest with
        | some i => h.imgRefuse 8 i
        | none =>
          match h.applySects (n == 3) (sectOrder h.boot.hdr) with
          | (some (r, i), h) => h.imgRefuse r i
          | (none, h) =>
            if n = 2 then h.read2End
            else
              let h := h.inForce
              let h := { h with boot := { h.boot with read := 0, cand := [] } }
              h.setStep 8

/-! ### Leaving BOOTING (R357, R370, R378, R382) -/

/-- A CNT_RECOVER entry where the count in OTP is further spent than the last CNT_CHANGE entry records (R378). -/
def Hw.cntRecover (h : Hw) (set die left full : Nat) : Hw :=
  if left < tget h.nv.cntSeen (h.cntKey set die) full then h.audit 0x06 die (set + left % 16 * 2 ^ 4) else h

/-- The audit checks and entries of step 8 (R360, R378, R382). -/
def Hw.bootAudit (h : Hw) : Hw :=
  let h := h.cntRecover 0 0 (h.get STN_BIND_LEFT 0) 8
  let h := h.each (List.range 8) (fun h d =>
    if h.dieUp d then (h.cntRecover 1 d (h.get ILK_CEIL_GEN_LEFT d) 16).cntRecover 2 d (h.get CAL_NVM_STAT_F_LEFT d) 8 else h)
  let h := if h.dieUp 1 then h.cntRecover 3 1 (h.get STN_RELIEF_LEFT 0) 2 else h
  let h := h.each h.boot.fences (fun h p => h.audit 0x09 p.1 p.2)
  let h := { h with boot := { h.boot with fences := [] } }
  let h := h.each (List.range 8) (fun h d =>
    if h.dieUp d then
      let h := if h.flag CAL_NVM_STAT_INCOMPLETE d then h.audit 0x0A d 0 else h
      if h.ceilUnfinished d then h.audit 0x0A d 1 else h
    else h)
  let h := h.audit 0x03 h.logDie (h.get STN_KEYSLOT_IN_USE 0 + h.get STN_KEYSLOT_UNPROV_IMG 0 * 4 + h.get STN_BOOT_IMG_SRC 0 * 8)
    (bytesOf 48 (h.get STN_IMG_DIGEST_DIGEST 0))
  h.bootEntry

/-- The station has entered RUN: step 10; consists with remote members are coupled the first time (R357, R370). -/
def Hw.enterRun (h : Hw) : Hw :=
  if h.get STN_STATE_STATE 0 ≠ 3 then h
  else
    let h := if h.get STN_BOOT_STEP 0 = 9 then h.setStep 10 else h
    if h.boot.remote then
      let h := { h with boot := { h.boot with remote := false } }
      h.each (h.listed true) (fun h c => h.couple c)
    else h

/-- LEAVE_BOOTING (R357): step 8's loads and audit entries, then DARK or RUN, and the START records. -/
def Hw.leaveBooting (h : Hw) : Hw :=
  if h.get STN_STATE_STATE 0 ≠ 1 ∨ h.get STN_BOOT_STEP 0 ≠ 8 then h
  else
    let h := h.each (List.range 8) (fun h d => if h.dieUp d then (h.ceilLoad d).calLoad d else h)
    let h := h.bootAudit.setStep 9
    let h := (h.put STN_BOOT_BOOT_MS 0 (min 0xFFFF (h.now / t1ms))).put STN_IMG_LOAD_BUSY 0 0
    let h := h.putB STN_STATE_DARK_B 0 (h.flag TW_LINE_CFG_EN 0 && !h.joined)
    let h := h.stnServe.boundNum.showLat
    let h := { h with line := { h.line with appliedAt := some h.now } }
    let h := h.each h.boot.start (fun h e => h.ttCmd e 1)
    let h := { h with boot := { h.boot with start := [] } }
    h.enterRun

end Sys2Proof.Machine
end

