-- ==== Sys2Proof/Machine/Rebase.lean ====
section
/-! DEFINITION. A step of the Line tick count (R404, R405, R413): the count changes and the spacing of ticks does not, so every
instant that the hardware holds for its own timing is re-based by the step. Contents that carry a count keep it. -/

namespace Sys2Proof.Machine

/-- An instant under the new count; one before its start becomes 0. -/
def shiftT (d : Int) (t : Nat) : Nat := ((t : Int) + d).toNat

/-- An instant that may be absent. -/
def shiftO (d : Int) (t : Option Nat) : Option Nat := t.map (shiftT d)

/-- A table of instants. -/
def shiftTab (d : Int) (t : Tab Nat Nat) : Tab Nat Nat := t.map (fun (p : Nat × Nat) => (p.1, shiftT d p.2))

/-- A unit's instants. The period that contains the step ends at the first loop tick of the new count at least a whole period after
the last one (R405); every measurement decimator restarts (R160). -/
def UnitS.shift (d : Int) (now period : Nat) (x : UnitS) : UnitS :=
  { x with
    clk := { x.clk with last := shiftT d x.clk.last, floor := if x.clk.ticked then shiftT d (x.clk.last + period) else x.clk.floor }
    ref := { x.ref with slewAt := shiftO d x.ref.slewAt }
    law := { x.law with nodeTick := shiftT d x.law.nodeTick, complAt := shiftO d x.law.complAt }
    flt := { x.flt with tick := shiftT d x.flt.tick, recAt := shiftO d x.flt.recAt }
    safe := { x.safe with deadline := shiftO d x.safe.deadline, rbAt := shiftT d x.safe.rbAt, causeDl := shiftT d x.safe.causeDl,
                          isoAt := shiftO d x.safe.isoAt
                          cause := x.safe.cause.map (fun (p : Nat × Nat) => (p.1, shiftT d p.2)),
                          due := x.safe.due.map (fun (p : Nat × Nat) => (p.1, shiftT d p.2)) }
    chk := { x.chk with start := shiftT d x.chk.start, lam := shiftT d x.chk.lam }
    rng := { x.rng with isAt := shiftT d x.rng.isAt, shAt := shiftT d x.rng.shAt, vsAt := shiftT d x.rng.vsAt,
                        decided := shiftT d x.rng.decided, designated := shiftT d x.rng.designated, lamM := shiftO d x.rng.lamM,
                        lamB := shiftO d x.rng.lamB, lastRet := shiftT d x.rng.lastRet, openLam := shiftO d x.rng.openLam,
                        arm := x.rng.arm.map (fun (p : Nat × Nat) => (p.1, shiftT d p.2)) }
    mdec := [0, 1, 2].map (fun (k : Nat) => (k, { tget x.mdec k {} with restart := some now, pendOut := none, lastOut := none }))
    cons := { x.cons with outAt := shiftO d x.cons.outAt }
    blockAt := shiftO d x.blockAt
    trc := x.trc.map (fun (t : TraceS) => { t with tick := shiftT d t.tick }) }

/-- A token arbiter's instants. -/
def ArbS.shift (d : Int) (a : ArbS) : ArbS :=
  { a with since := none, hold := a.hold.map (fun (r : Req) => { r with at_ := shiftT d r.at_ }),
           pend := a.pend.map (fun (r : Req) => { r with at_ := shiftT d r.at_ }) }

/-- A die's instants. -/
def DieS.shift (d : Int) (x : DieS) : DieS :=
  { x with
    isoDue := shiftO d x.isoDue, isoAt := shiftT d x.isoAt, compAt := shiftO d x.compAt, ilkBack := shiftO d x.ilkBack, abortBack := shiftO d x.abortBack
    pts := { x.pts with lam := shiftT d x.pts.lam, since := shiftO d x.pts.since, granted := shiftT d x.pts.granted, initAt := shiftO d x.pts.initAt }
    auxAt := x.auxAt.map (fun (p : Nat × Nat) => (p.1, shiftT d p.2))
    aux := x.aux.shift d, cal := x.cal.shift d, sid0 := x.sid0.shift d, sid1 := x.sid1.shift d
    twill0 := x.twill0.shift d, twill1 := x.twill1.shift d, nvm := x.nvm.shift d, snap := x.snap.shift d
    slots := x.slots.map (fun (s : SlotS) => { s with granted := shiftT d s.granted, last := shiftT d s.last })
    passAt := shiftO d x.passAt, emergAt := shiftO d x.emergAt, rotaAt := shiftO d x.rotaAt, storedAt := shiftT d x.storedAt }

/-- A port's instants. -/
def PortS.shift (d : Int) (x : PortS) : PortS :=
  { x with
    wordAt := shiftT d x.wordAt, ackAt := shiftTab d x.ackAt, sentWordAt := shiftT d x.sentWordAt
    used := x.used.map (fun (p : Nat × Nat) => (shiftT d p.1, p.2))
    sync := x.sync.map (fun (p : Nat × Nat × Nat) => (p.1, p.2.1, shiftT d p.2.2))
    reqT1 := shiftO (256 * d) x.reqT1, reqAt := shiftO d x.reqAt }

/-- The Line's instants. -/
def LineS.shift (d : Int) (x : LineS) : LineS :=
  { x with
    reqs := x.reqs.map (fun (r : LineReq) => { r with at_ := shiftT d r.at_ })
    annAt := shiftO d x.annAt, helloAt := shiftO d x.helloAt, hello := shiftTab d x.hello, appliedAt := shiftO d x.appliedAt
    syncAt := shiftO d x.syncAt, lowAt := shiftO d x.lowAt, sentAt := shiftO d x.sentAt, ofs := x.ofs - 256 * d
    arp := x.arp.map (fun (p : Nat × List (Nat × Nat × Nat)) => (p.1, p.2.map (fun e => (e.1, e.2.1, shiftT d e.2.2)))) }

/-- A sensor's instants. -/
def ThS.shift (d : Int) (x : ThS) : ThS :=
  { x with stop := x.stop.map (fun (p : Nat × Int) => (shiftT d p.1, p.2)),
           hist := x.hist.map (fun (p : Nat × Int) => (shiftT d p.1, p.2)) }

/-- The measurement outputs held for a unit's next tick are skipped by the restart of their decimators, and counted (R160, R405). -/
def Hw.stepGaps (h : Hw) : Hw :=
  h.each h.units (fun h p => h.each [0, 1, 2] (fun h k => if (tget p.2.mdec k {}).pendOut.isSome then h.inc U_MEAS_GAP_COUNT p.1 else h))

/-- The count stepped to `t` (R404, R405). -/
def Hw.stepCount (h : Hw) (t : Nat) : Hw :=
  let d : Int := (t : Int) - (h.now : Int)
  let h := h.stepGaps
  let h : Hw := { h with
    now := t
    units := h.units.map (fun (p : Nat × UnitS) => (p.1, p.2.shift d t (h.period p.1)))
    dies := h.dies.map (fun (p : Nat × DieS) => (p.1, p.2.shift d))
    ths := h.ths.map (fun (p : Nat × ThS) => (p.1, p.2.shift d))
    sids := h.sids.map (fun (p : Nat × SidS) => (p.1, { p.2 with visitAt := shiftT d p.2.visitAt }))
    visits := h.visits.map (fun (p : Nat × VisitS) => (p.1, { p.2 with at_ := shiftT d p.2.at_, stepAt := shiftO d p.2.stepAt }))
    evs := h.evs.map (fun (p : Nat × Nat) => (p.1, shiftT d p.2))
    keyAt := shiftTab d h.keyAt
    lid := { open0 := shiftT d h.lid.open0, open1 := shiftT d h.lid.open1, shut0 := shiftT d h.lid.shut0, shut1 := shiftT d h.lid.shut1,
             apart := shiftT d h.lid.apart }
    burn := h.burn.map (fun (b : BurnS) => { b with at_ := shiftT d b.at_ })
    trigEnd := shiftTab d h.trigEnd, trigAt := shiftTab d h.trigAt
    ports := h.ports.map (fun (p : Nat × PortS) => (p.1, p.2.shift d))
    line := h.line.shift d
    sess := h.sess.map (fun (p : Nat × SessS) => (p.1, { p.2 with at_ := shiftT d p.2.at_ })) }
  h.put TW_LINE_STAT_STEPPED 0 1

end Sys2Proof.Machine
end

