-- ==== Sys2Proof/Machine/Link.lean ====
section
/-! DEFINITION. The Tweed link: training, link words, the order in which frames are sent, and what happens to a frame that arrives
(R385 to R396). -/

namespace Sys2Proof.Machine

/-! ### Training and link words (R385, R390, R391) -/

/-- A lane that needs credits. -/
def creditLanes : List Nat := [1, 2, 3]

/-- PORT_UP (R385, R390): a Tweed port with 64 valid link words, an Ethernet port with block lock. -/
def Hw.portUp (h : Hw) (p : Nat) : Hw :=
  let m := h.portMode p
  if h.get TW_PORT_STAT_LINK p = 2 ∨ m = 0 ∨ (m = 1 ∧ (h.get TW_PORT_STAT_LINK p ≠ 1 ∨ (h.port p).words < 64)) then h
  else if m = 2 then (h.setLink p 2).put ETH_STAT_BLOCK_LOCK p 1
  else
    let h := (h.modP p (fun x => { x with cred := creditLanes.map (fun (l : Nat) => (l, laneBuf l)) })).setLink p 2
    if h.serves && h.flag TW_LINE_CFG_EN 0 && h.joined then (h.setDark false).enterRun else h

/-- PORT_DOWN at instant `t` (R385): block lock lost, or no valid link word for 8 µs. -/
def Hw.portLost (h : Hw) (p t : Nat) (lock : Bool) : Hw :=
  if 4 ≤ p ∨ h.get TW_PORT_STAT_LINK p = 0 ∨ t < h.now then h
  else if lock || (h.portMode p == 1 && decide ((h.port p).wordAt + ticksOfUs 8 ≤ t)) then
    let h := { h with now := t }
    h.portDown p
  else h

/-- Frames of a lane up to a SEQ are acknowledged: they are kept no longer. -/
def ackFrames (lane seq : Nat) (l : List Frame) : List Frame :=
  match l.find? (fun f => f.lane == lane && f.seq == seq) with
  | none => l
  | some f => l.filter (fun g => g.lane != lane || decide (0 < (g.seq + 2 ^ 16 - f.seq) % 2 ^ 16 ∧ (g.seq + 2 ^ 16 - f.seq) % 2 ^ 16 < 2 ^ 15))

/-- LINK_WORD at instant `t` (R385, R390, R391). -/
def Hw.linkWord (h : Hw) (p lane credits ack t : Nat) : Hw :=
  if h.portMode p ≠ 1 ∨ t < h.now then h
  else
    let h := { h with now := t }
    let h := h.modP p (fun x => { x with wordAt := t })
    match h.get TW_PORT_STAT_LINK p with
    | 0 => (h.modP p (fun x => { x with words := 1 })).setLink p 1
    | 1 => h.modP p (fun x => { x with words := x.words + 1 })
    | _ =>
      let h := if lane = 0 then h else h.modP p (fun x => { x with cred := tset x.cred lane (tget x.cred lane 0 + credits) })
      if lane < 2 then h
      else h.modP p (fun x =>
        let l := ackFrames lane ack x.unack
        if l.length < x.unack.length then
          { x with unack := l, again := x.again.filter (fun f => f.lane != lane || l.contains f), ackAt := tset x.ackAt lane t }
        else x)

/-- LINK_WORD_SEND at instant `t` (R385): the credits to return for a lane, at most 63 to a word, and the last SEQ accepted. -/
def Hw.linkWordSend (h : Hw) (p lane t : Nat) : Hw :=
  if h.portMode p ≠ 1 ∨ t < h.now then h
  else
    let h := { h with now := t }
    h.modP p (fun x =>
      let c := min 63 (tget x.ret lane 0)
      { x with ret := tset x.ret lane (tget x.ret lane 0 - c), sentWord := some (lane, c, tget x.rxSeq lane 0), sentWordAt := t })

/-- GO_BACK_RESEND at instant `t` (R391): the unacknowledged frames of a lane are to be sent again, from the oldest. -/
def Hw.goBack (h : Hw) (p lane t : Nat) : Hw :=
  let x := h.port p
  let l := x.unack.filter (fun f => f.lane == lane)
  if !h.tweedUp p || lane < 2 || decide (t < h.now) || l.isEmpty || decide (t < tget x.ackAt lane 0 + ticksOfUs 2) then h
  else
    let h := { h with now := t }
    (h.modP p (fun x => { x with again := x.again.filter (fun f => f.lane != lane) ++ l, ackAt := tset x.ackAt lane t })).inc TW_PORT_RETRY_COUNT p

/-! ### Sending (R389 to R393, R403) -/

/-- A TIME frame as it leaves at a tick and phase (R387, R403): SYNC carries the transmit time, DELAY_RSP its t3. -/
def Frame.stamp (f : Frame) (t ph : Nat) : Frame :=
  let g := fun k => f.words.getD k 0
  if f.lane ≠ 0 then f
  else match f.ty with
    | 0 => { f with words := [t % 2 ^ 32, t / 2 ^ 32 % 2 ^ 32, g 2 / 256 * 256 + ph % 256, g 3] }
    | 2 => { f with words := [g 0, g 1, (t * 256 + ph % 256) % 2 ^ 32, (t * 256 + ph % 256) / 2 ^ 32 % 2 ^ 32] }
    | _ => f

/-- CTRL has used less than 25% of the port over the 100 µs before an instant (R389). -/
def PortS.ctrlOk (x : PortS) (t : Nat) : Bool :=
  decide (((x.used.filter (fun (u : Nat × Nat) => decide (t < u.1 + t100us))).foldl (fun a u => a + u.2) 0) < 31250)

/-- The port with CTRL bytes noted as sent at an instant. -/
def PortS.useCtrl (x : PortS) (t n : Nat) : PortS :=
  { x with used := x.used.filter (fun (u : Nat × Nat) => decide (t < u.1 + t100us)) ++ [(t, n)] }

/-- The next frame of a lane: one to be sent again (no place), or the place in the queue of a new one for which a credit is held;
with its bytes. -/
def PortS.ready (x : PortS) (lane : Nat) : Option (Nat × Option Nat) :=
  match x.again.find? (fun f => f.lane == lane) with
  | some f => some ((Frame.size f), none)
  | none =>
    if lane ≠ 0 ∧ tget x.cred lane 0 = 0 then none
    else match x.q.findIdx? (fun e => e.1.lane == lane) with
      | none => none
      | some i => (x.q[i]?).map (fun e => (Frame.size e.1, some i))

/-- Deficit round robin between MGMT and DATA with quanta of 256 and 2,048 bytes (R389): the lane that sends next, and its place in
the queue; within the given number of turns. -/
def drrPick (x : PortS) : Nat → Option (Nat × Option Nat) × PortS
  | 0 => (none, x)
  | n + 1 =>
    if x.turn = 2 then
      match x.ready 2 with
      | some (sz, i) => if sz ≤ x.dM then (some (2, i), { x with dM := x.dM - sz }) else drrPick { x with turn := 3, dD := x.dD + 2048 } n
      | none => drrPick { x with dM := 0, turn := 3, dD := x.dD + 2048 } n
    else
      match x.ready 3 with
      | some (sz, i) => if sz ≤ x.dD then (some (3, i), { x with dD := x.dD - sz }) else drrPick { x with turn := 2, dM := x.dM + 256 } n
      | none => drrPick { x with dD := 0, turn := 2, dM := x.dM + 256 } n

/-- A new frame goes out: it takes the lane's next SEQ and a credit; CTRL goes twice, MGMT and DATA are kept until acknowledged. -/
def Hw.sendNew (h : Hw) (p i t ph : Nat) : Hw :=
  match (h.port p).q[i]? with
  | none => h
  | some (f, o) =>
    let h := h.modP p (fun x =>
      let s := (tget x.txSeq f.lane 0 + 1) % 2 ^ 16
      let f := { Frame.stamp f t ph with seq := s }
      let x := { x with q := x.q.eraseIdx i, txSeq := tset x.txSeq f.lane s, sent := some f, cut := false }
      match f.lane with
      | 0 => if f.ty = 1 then { x with reqT1 := some (t * 256 + ph % 256) } else x
      | 1 => { x.useCtrl t (Frame.size f) with cred := tset x.cred 1 (tget x.cred 1 0 - 1), dup := some f }
      | l => { x with cred := tset x.cred l (tget x.cred l 0 - 1), unack := x.unack ++ [f],
                      ackAt := if x.unack.any (fun g => g.lane == l) then x.ackAt else tset x.ackAt l t })
    h.fwdDone f.lane o

/-- A frame of MGMT or DATA goes out again (R391). -/
def Hw.sendAgain (h : Hw) (p lane : Nat) : Hw :=
  h.modP p (fun x =>
    match x.again.find? (fun f => f.lane == lane) with
    | none => x
    | some f => { x with again := x.again.erase f, sent := some f, cut := false })

/-- FRAME_BOUNDARY at a tick and phase (R389): the second copy of a CTRL frame, TIME, CTRL within its share, then MGMT and DATA. -/
def Hw.frameBoundary (h : Hw) (p t ph : Nat) : Hw :=
  if !h.tweedUp p || decide (t < h.now) then h
  else
    let h := { h with now := t }
    let x := h.port p
    match x.dup with
    | some f => h.modP p (fun x => { x.useCtrl t (Frame.size f) with dup := none, sent := some f, cut := false })
    | none =>
      match x.ready 0 with
      | some (_, some i) => h.sendNew p i t ph
      | _ =>
        match x.ctrlOk t, x.ready 1 with
        | true, some (_, some i) => h.sendNew p i t ph
        | _, _ =>
          if (x.ready 2).isNone && (x.ready 3).isNone then h
          else
            let (r, y) := drrPick x 8
            let h := h.modP p (fun _ => y)
            match r with
            | some (_, some i) => h.sendNew p i t ph
            | some (l, none) => h.sendAgain p l
            | none => h

/-! ### Receiving (R386, R387, R390 to R396) -/

/-- The frame types of R387. -/
def Frame.listed (f : Frame) : Bool :=
  match f.lane with
  | 0 => decide (f.ty ≤ 2)
  | 1 => decide (f.ty ≤ 2)
  | 2 => decide (f.ty ≤ 8)
  | 3 => decide (f.ty ≤ 3)
  | _ => false

/-- Types that may be group or broadcast frames: EVENT, NOTICE, LOST, WR_REQ (R395). -/
def Frame.multiOk (f : Frame) : Bool := (f.lane == 1 && f.ty == 0) || (f.lane == 2 && (f.ty == 4 || f.ty == 8)) || (2 ≤ f.lane && f.ty == 2)

/-- RD_REQ and WR_REQ. -/
def Frame.isReq (f : Frame) : Bool := decide (2 ≤ f.lane) && (f.ty == 0 || f.ty == 2)

/-- A response to a request that came by port `p` (R397): to SRC, on the request's lane, with its TAG. -/
def Hw.respond (h : Hw) (p : Nat) (f : Frame) (w : List Nat) : Hw :=
  let r : Frame := { lane := f.lane, ty := f.ty + 1, dest := f.src, tag := f.tag, words := w }
  if f.loc then h.localSend p r else h.lineSend r

/-- An accepted frame is delivered here, forwarded, or dropped (R390, R393 to R396): `act` is its delivery. -/
def Hw.routeFrame (h : Hw) (p : Nat) (f : Frame) (act : Hw → Hw) : Hw :=
  let multi := f.group || f.bcast
  let here := f.loc || (if f.bcast then true else if f.group then h.flag TW_MCAST_LOCAL 0 (f.dest % 64)
    else f.dest == h.ownNum && h.flag TW_LINE_STAT_NUM_VALID 0)
  if h.get STN_BOOT_STEP 0 < 3 ∨ (!f.loc ∧ !h.flag TW_LINE_CFG_EN 0) ∨ (multi ∧ !Frame.multiOk f) then h.creditRet p f.lane
  else
    let out := if f.hops = 0 ∨ (here ∧ !multi) then [] else h.outPorts f (some p)
    let id := h.line.fwd
    let h := if out.isEmpty then h.creditRet p f.lane
      else
        let h := { h with line := { h.line with fwd := id + 1 } }
        h.each out (fun h q => h.portSend q { f with hops := f.hops - 1 } (some (p, id)))
    if here then act h
    else if !multi && out.isEmpty && decide (f.hops ≠ 0) && Frame.isReq f then h.respond p f [2]
    else h

/-- A bad copy of a CTRL frame (R392): the second one with its SEQ loses the frame. That a copy with a bad header counts too is read so
(notes/assumptions/100.md). -/
def Hw.ctrlBad (h : Hw) (p seq : Nat) : Hw :=
  let x := h.port p
  if tget x.rxSeq 1 0 = seq then h
  else if x.badCtrl = some seq then ((h.modP p (fun x => { x with badCtrl := none })).inc TW_PORT_CTRL_LOST_COUNT p).creditRet p 1
  else h.modP p (fun x => { x with badCtrl := some seq })

/-- A frame whose CRC fails after its header has gone on (R386, R393): on each output port that is idle and holds a credit, what went out is
ended with an error terminate block, and the next station drops it. What such a copy takes of SEQ and credit is the model's choice
(notes/assumptions/100.md). -/
def Hw.cutFrame (h : Hw) (p : Nat) (f : Frame) : Hw :=
  let here := f.loc || (!f.bcast && !f.group && f.dest == h.ownNum && h.flag TW_LINE_STAT_NUM_VALID 0)
  if here || !h.flag TW_LINE_CFG_EN 0 || f.hops == 0 || !Frame.listed f then h
  else
    h.each (h.outPorts f (some p)) (fun h q =>
      let x := h.port q
      if x.q.isEmpty && x.again.isEmpty && x.dup.isNone && (f.lane == 0 || decide (0 < tget x.cred f.lane 0)) then
        h.modP q (fun x => { x with sent := some { f with hops := f.hops - 1, seq := (tget x.txSeq f.lane 0 + 1) % 2 ^ 16 }, cut := true })
      else h)

/-- The receiver takes a whole frame (R391, R392): any of TIME, the first good copy of CTRL, the next SEQ of MGMT and DATA. -/
def PortS.takes (x : PortS) (f : Frame) : Bool :=
  let last := tget x.rxSeq f.lane 0
  match f.lane with
  | 0 => true
  | 1 => f.seq != last
  | _ => f.seq == (last + 1) % 2 ^ 16

/-- A frame arrives at a port at instant `t` (R386, R387, R391 to R396). A command that receives frames says by `row` which of the
listed frames are its own, and by `act` what the delivery of one does. -/
def Hw.recv (h : Hw) (p : Nat) (f : Frame) (crc : Crc) (t : Nat) (row : Frame → Bool) (act : Hw → Hw) : Hw :=
  if !h.tweedUp p || decide (t < h.now) || (Frame.listed f && !row f) then h
  else
    let h := { h with now := t }
    match crc with
    | .badHeader =>
      let h := h.inc TW_PORT_ERR_COUNT p
      if f.lane = 1 then h.ctrlBad p f.seq else h
    | .badFrame =>
      let h := h.cutFrame p f
      if f.lane = 1 then h.ctrlBad p f.seq else h
    | .good =>
      if !(h.port p).takes f then h
      else
        let h := h.modP p (fun x => { x with rxSeq := tset x.rxSeq f.lane f.seq, badCtrl := if f.lane = 1 then none else x.badCtrl })
        if Frame.listed f then h.routeFrame p f act else (h.inc TW_PORT_ERR_COUNT p).creditRet p f.lane

/-- The frames of a lane and type. -/
def isFrame (lane ty : Nat) (f : Frame) : Bool := f.lane == lane && f.ty == ty

/-- The frames of a type of MGMT or DATA. -/
def isAccess (ty : Nat) (f : Frame) : Bool := decide (2 ≤ f.lane) && f.ty == ty

/-- A number of two payload words. -/
def Frame.w64 (f : Frame) (k : Nat) : Nat := f.words.getD k 0 % 2 ^ 32 + f.words.getD (k + 1) 0 % 2 ^ 32 * 2 ^ 32

end Sys2Proof.Machine
end

