-- ==== Sys2Proof/Machine/LineTime.lean ====
section
/-! DEFINITION. Line time, station numbers and joining, and the traffic of events, consists and notices (R398 to R411). -/

namespace Sys2Proof.Machine

/-! ### Line time (R403 to R406) -/

/-- A station that joins its Line enters RUN (R69). -/
def Hw.joinLine (h : Hw) : Hw :=
  if h.serves && h.flag TW_LINE_CFG_EN 0 && h.joined then (h.setDark false).enterRun else h

/-- With LEARN, every route is set to the upstream port before the station first announces (R400). -/
def Hw.learnRoutes (h : Hw) (t : Nat) : Hw :=
  if h.flag TW_LINE_CFG_LEARN 0 && !h.line.learned && !h.flag TW_LINE_STAT_ANNOUNCED 0 && !h.flag TW_LINE_STAT_IS_MASTER 0 then
    match h.upstream t with
    | none => h
    | some p =>
      let h := { h with line := { h.line with learned := true } }
      h.each (List.range 4096) (fun h n => h.put TW_ROUTE_PORT 0 p n)
  else h

/-- TW_TIME_OFS: 32 bits, saturating. -/
def Hw.putOfs (h : Hw) (e : Int) : Hw := h.putC TW_TIME_OFS_E 0 (sat32 e)

/-- A station follows a Line master (R399, R400): a change of master has every station announce again. -/
def Hw.followMaster (h : Hw) (m : Nat) : Hw :=
  if h.get TW_LINE_STAT_MASTER 0 = m then h
  else
    let h := { h with line := { h.line with stopped := false, annAt := none } }
    (h.put TW_LINE_STAT_MASTER 0 m).put TW_LINE_STAT_ANNOUNCED 0 0

/-- A SYNC heard on the upstream port at sub-tick time `r` (R403, R408): the master followed, its LINE_LAT, and the offset e. -/
def Hw.syncUp (h : Hw) (p : Nat) (f : Frame) (m r : Nat) : Hw :=
  let h := h.followMaster m
  let e : Int := ((Frame.w64 f 0 * 256 + bits (f.words.getD 2 0) 7 0 : Nat) : Int) + sxw 24 (h.get TW_PORT_DELAY_DELAY p) - (r : Int)
  let h := { h with line := { h.line with
    ofs := e, okRun := if e.natAbs ≤ 62 then h.line.okRun + 1 else 0, lat := some (f.words.getD 3 0 % 256) } }
  (h.putOfs e).showLat

/-- A SYNC delivered (R399, R403, R406): a hop count of 16 or more is ignored; a master that hears a lower one yields. -/
def Hw.syncRecv (h : Hw) (p : Nat) (f : Frame) (r : Nat) : Hw :=
  let m := bits (f.words.getD 2 0) 19 8
  let k := bits (f.words.getD 2 0) 24 20
  let t := r / 256
  if !h.flag TW_LINE_CFG_EN 0 || decide (16 ≤ k) then h
  else
    let up := h.upstream t
    let h := h.modP p (fun x => { x with sync := some (m, k, t) })
    let h := if h.upstream t == up && decide (h.get TW_LINE_STAT_MASTER 0 = m ∨ up != some p) then h else { h with line := { h.line with stepped := false } }
    let low := decide (m < h.ownNum) && h.flag TW_LINE_STAT_NUM_VALID 0
    let h := if low then
        let h := { h with line := { h.line with lowAt := some t } }
        if h.flag TW_LINE_STAT_IS_MASTER 0 then h.put TW_LINE_STAT_IS_MASTER 0 0 else h
      else h
    let h := if m ≤ h.get TW_LINE_STAT_MASTER 0 then { h with line := { h.line with syncAt := some t } } else h
    let h := h.showUpstream t
    if h.upstream t == some p && !h.flag TW_LINE_STAT_IS_MASTER 0 then
      let h := h.syncUp p f m r
      let h := { h with line := { h.line with syncAt := some t } }
      h.learnRoutes t
    else h

/-- SYNC_SEND at tick `t` (R403). -/
def Hw.syncSend (h : Hw) (t : Nat) : Hw :=
  let ms := h.flag TW_LINE_STAT_IS_MASTER 0
  if t % 4096 ≠ 0 ∨ t < h.now ∨ !h.flag TW_LINE_CFG_EN 0 ∨ !(ms || h.flag TW_LINE_STAT_LOCKED 0) ∨ h.line.sentAt = some t then h
  else
    let h := { h with now := t, line := { h.line with sentAt := some t } }
    let own := max 1 (h.get TW_LINE_CFG_LINE_LAT 0)
    let hops := if ms then 0 else
      match h.upstream t with
      | some p => match (h.port p).sync with | some (_, k, _) => k + 1 | none => 16
      | none => 16
    let m := if ms then h.ownNum else h.get TW_LINE_STAT_MASTER 0
    let lat := if ms then own else h.line.lat.getD own
    h.each h.upPorts (fun h p => h.localSend p { lane := 0, ty := 0, words := [t % 2 ^ 32, t / 2 ^ 32 % 2 ^ 32, m * 256 + hops % 32 * 2 ^ 20, lat % 256] })

/-- DELAY_EXCHANGE at instant `t` (R403): every 1 ms. -/
def Hw.delayExchange (h : Hw) (p t : Nat) : Hw :=
  if !h.tweedUp p || decide (t < h.now) || (match (h.port p).reqAt with | some a => decide (t < a + t1ms) | none => false) then h
  else
    let h := { h with now := t }
    (h.modP p (fun x => { x with reqAt := some t, reqT1 := none })).localSend p { lane := 0, ty := 1 }

/-- A DELAY_REQ received at sub-tick time `t2` is answered; t3 is stamped as the answer leaves (R387, R403). -/
def Hw.delayAnswer (h : Hw) (p t2 : Nat) : Hw :=
  h.localSend p { lane := 0, ty := 2, words := [t2 % 2 ^ 32, t2 / 2 ^ 32 % 2 ^ 32, 0, 0] }

/-- A DELAY_RSP received at sub-tick time `t4` (R403): the mean of the last 8 of ((t4 − t1) − (t3 − t2)) / 2 + ASYM; twice each
is kept. -/
def Hw.delayRsp (h : Hw) (p : Nat) (f : Frame) (t4 : Nat) : Hw :=
  match (h.port p).reqT1 with
  | none => h
  | some t1 =>
    let d : Int := ((t4 : Int) - (t1 : Int)) - ((Frame.w64 f 2 : Int) - (Frame.w64 f 0 : Int)) + 2 * sxw 16 (h.get TW_PORT_ASYM_ASYM p)
    let l := ((h.port p).delays ++ [d]).drop ((h.port p).delays.length + 1 - 8)
    let h := h.modP p (fun x => { x with reqT1 := none, delays := l })
    h.put TW_PORT_DELAY_DELAY p (toW 24 (rdiv (l.foldl (fun a x => a + x) 0) (2 * l.length)))

/-- The station may step its count to Line time (R404): once for each upstream port and master that it comes to follow, while it is not
locked. -/
def Hw.maySync (h : Hw) (t : Nat) : Bool :=
  h.serves && !h.flag TW_LINE_STAT_LOCKED 0 && h.dark && !h.flag TW_LINE_STAT_IS_MASTER 0 && (h.upstream t).isSome && !h.line.stepped && (!h.line.everLocked || !h.anyConnected)

/-- TIME_STEP at the station's own tick `t` (R404, R405): the count becomes the integer part of Line time. -/
def Hw.timeStep (h : Hw) (t : Nat) : Hw :=
  if t % 4096 ≠ 0 ∨ t < h.now ∨ !h.maySync t then h
  else
    let h := { h with now := t, line := { h.line with stepped := true } }
    h.stepCount (((t : Int) * 256 + h.line.ofs) / 256).toNat

/-- The metronome takes Line time as its source where SRC is 0 or 1 (R23, R404). -/
def Hw.metroLine (h : Hw) : Hw :=
  let h := { h with metLost := clrBit h.metLost 1 }
  match h.get STN_METRO_CTRL_SRC 0 with
  | 0 => h.srcSwitch
  | 1 => h.takeSrc 1 false
  | _ => h

/-- LINE_LOCKED (R404): |e| ≤ 1 ns at 16 consecutive SYNCs. -/
def Hw.lineLocked (h : Hw) : Hw :=
  if !h.serves || !h.flag TW_LINE_CFG_EN 0 || h.flag TW_LINE_STAT_IS_MASTER 0 || h.flag TW_LINE_STAT_LOCKED 0 || decide (h.line.okRun < 16)
      || (h.upstream h.now).isNone then h
  else
    let h := { h with line := { h.line with everLocked := true } }
    ((h.put TW_LINE_STAT_LOCKED 0 1).showLat).metroLine.joinLine

/-- LINE_TIME_LOST at instant `t` (R24, R406): no SYNC of the master, or of a lower one, for 100 µs. -/
def Hw.lineLost (h : Hw) (t : Nat) : Hw :=
  if !h.flag TW_LINE_STAT_LOCKED 0 || h.flag TW_LINE_STAT_IS_MASTER 0 || decide (t < h.now)
      || (match h.line.syncAt with | some a => decide (t < a + t100us) | none => false) then h
  else
    let h := { h with now := t, line := { h.line with okRun := 0, stepped := false } }
    let h := ((h.put TW_LINE_STAT_LOCKED 0 0).put TW_LINE_STAT_LOCK_LOST 0 1).attnSrc 2
    let h := (h.showUpstream t).showLat
    if h.get STN_METRO_STAT_ACT_SRC 0 = 1 then h.srcLost else h

/-- MASTER_TAKEOVER at instant `t` (R399): a bound candidate that is locked, or has just applied its image, and that no lower SYNC
has reached for 1 ms. It carries its own count onward with no step (R406). -/
def Hw.takeover (h : Hw) (t : Nat) : Hw :=
  let quiet := fun (a : Option Nat) => match a with | some a => decide (a + t1ms ≤ t) | none => true
  let fresh := h.line.appliedAt.isSome && !h.line.everLocked
  if !h.serves || !h.flag TW_LINE_CFG_EN 0 || !h.flag TW_LINE_CFG_MASTER 0 || !h.flag STN_BIND_BOUND 0 || h.flag TW_LINE_STAT_IS_MASTER 0
      || decide (t < h.now) || !quiet h.line.lowAt || !(h.flag TW_LINE_STAT_LOCKED 0 || fresh) || !quiet h.line.appliedAt then h
  else
    let h := { h with now := t, line := { h.line with
      stopped := false, table := (h.get TW_SERIAL_SERIAL 0, h.ownNum) :: h.line.table.filter (fun (p : Nat × Nat) => p.2 != h.ownNum && p.1 != h.get TW_SERIAL_SERIAL 0) } }
    let h := (h.put TW_LINE_STAT_IS_MASTER 0 1).put TW_LINE_STAT_MASTER 0 h.ownNum
    ((h.put TW_LINE_STAT_ANNOUNCED 0 1).showLat).joinLine

/-! ### Numbers (R398 to R401) -/

/-- An ANNOUNCE's words; CLAIM with the number where it is bound, or was assigned since power-on. -/
def Hw.announceWords (h : Hw) : List Nat :=
  let s := h.get TW_SERIAL_SERIAL 0
  let n := if h.flag STN_BIND_BOUND 0 then h.get STN_BIND_NUM 0 + 2 ^ 12 else if h.line.assigned then h.ownNum + 2 ^ 12 else 0
  [s % 2 ^ 32, s / 2 ^ 32 % 2 ^ 32, n]

/-- An ANNOUNCE sent on the upstream port, or on every UP Tweed port while there is none. -/
def Hw.announce (h : Hw) (t : Nat) : Hw :=
  let h := h.learnRoutes t
  let h := { h with line := { h.line with annAt := some t } }
  let ps := match h.upstream t with | some p => [p] | none => h.upPorts
  h.each ps (fun h p => h.localSend p { lane := 2, ty := 5, words := h.announceWords })

/-- ANNOUNCE_SEND at instant `t` (R400): every 10 ms until answered. -/
def Hw.announceSend (h : Hw) (t : Nat) : Hw :=
  if decide (h.get STN_BOOT_STEP 0 < 3) || !h.flag TW_LINE_CFG_EN 0 || h.flag TW_LINE_STAT_ANNOUNCED 0 || h.flag TW_LINE_STAT_IS_MASTER 0 || h.line.stopped
      || decide (t < h.now) || (match h.line.annAt with | some a => decide (t < a + 10 * t1ms) | none => false) then h
  else
    let h := { h with now := t }
    h.announce t

/-- The lowest number from ENUM_BASE that no serial holds, counting past 4,095 to 0 (R400). -/
def Hw.freeNum (h : Hw) : Option Nat :=
  ((List.range 4096).map (fun k => (h.get TW_LINE_CFG_ENUM_BASE 0 + k) % 4096)).find? (fun n => !h.line.table.any (fun p => p.2 == n))

/-- The master's answer to an ANNOUNCE (R400): a number, or none for DUP. -/
def Hw.assignNum (h : Hw) (serial : Nat) (claim : Option Nat) : Option Nat :=
  match claim with
  | some n => if h.line.table.any (fun p => p.2 == n && p.1 != serial) then none else some n
  | none => match h.line.table.find? (fun p => p.1 == serial) with
    | some p => some p.2
    | none => h.freeNum

/-- An ASSIGN passes a station (R400): it leaves by the port recorded, and the route is learned from it. -/
def Hw.assignOut (h : Hw) (q serial num : Nat) (dup : Bool) : Hw :=
  let h := if h.flag TW_LINE_CFG_LEARN 0 then h.put TW_ROUTE_PORT 0 q num else h
  h.localSend q { lane := 2, ty := 6, words := [serial % 2 ^ 32, serial / 2 ^ 32 % 2 ^ 32, num + b2n dup * 2 ^ 12] }

/-- An ANNOUNCE delivered at instant `t` (R400): answered by the master, passed upstream by any other station. -/
def Hw.announceRecv (h : Hw) (p : Nat) (f : Frame) (t : Nat) : Hw :=
  let serial := Frame.w64 f 0
  let w := f.words.getD 2 0
  if !h.flag TW_LINE_CFG_EN 0 then h
  else if h.flag TW_LINE_STAT_IS_MASTER 0 then
    match h.assignNum serial (if bit w 12 then some (bits w 11 0) else none) with
    | none => h.assignOut p serial (bits w 11 0) true
    | some n =>
      let h := { h with line := { h.line with
        table := (serial, n) :: h.line.table.filter (fun (x : Nat × Nat) => x.1 != serial), hello := tset h.line.hello n t } }
      h.assignOut p serial n false
  else if h.upstream t == some p then h
  else
    let l := h.line.recs.filter (fun (x : Nat × Nat) => x.1 != serial)
    let h := { h with line := { h.line with recs := l.drop (l.length - 15) ++ [(serial, p)] } }
    match h.upstream t with
    | some u => h.localSend u { lane := 2, ty := 5, words := f.words }
    | none => h

/-- An ASSIGN delivered (R398, R400): the station's own answer, or one to pass on by its record. -/
def Hw.assignRecv (h : Hw) (f : Frame) : Hw :=
  let serial := Frame.w64 f 0
  let w := f.words.getD 2 0
  if !h.flag TW_LINE_CFG_EN 0 then h
  else if serial = h.get TW_SERIAL_SERIAL 0 then
    if bit w 12 then
      let h := { h with line := { h.line with stopped := true } }
      h.put TW_LINE_STAT_DUP 0 1
    else
      let h := if h.flag STN_BIND_BOUND 0 then h
        else
          let h := { h with line := { h.line with assigned := true } }
          (h.put TW_LINE_STAT_NUM 0 (bits w 11 0)).put TW_LINE_STAT_NUM_VALID 0 1
      (h.put TW_LINE_STAT_ANNOUNCED 0 1).joinLine
  else match h.line.recs.find? (fun x => x.1 == serial) with
    | none => h
    | some x => h.assignOut x.2 serial (bits w 11 0) (bit w 12)

/-- A HELLO delivered at instant `t` (R401). -/
def Hw.helloRecv (h : Hw) (f : Frame) (t : Nat) : Hw :=
  if h.flag TW_LINE_CFG_EN 0 && h.flag TW_LINE_STAT_IS_MASTER 0 then { h with line := { h.line with hello := tset h.line.hello f.src t } } else h

/-- HELLO_SEND at instant `t` (R401): every 1 ms. -/
def Hw.helloSend (h : Hw) (t : Nat) : Hw :=
  if !h.flag TW_LINE_CFG_EN 0 || !h.flag TW_LINE_STAT_ANNOUNCED 0 || h.flag TW_LINE_STAT_IS_MASTER 0 || decide (t < h.now)
      || (match h.line.helloAt with | some a => decide (t < a + t1ms) | none => false) then h
  else
    let h := { h with now := t, line := { h.line with helloAt := some t } }
    h.lineSend { lane := 2, ty := 7, dest := h.get TW_LINE_STAT_MASTER 0 }

/-- The station numbers of a LOST frame: the last half is padding where it is 0 and not the first (R387). -/
def lostNums (w : List Nat) : List Nat :=
  let l := w.flatMap (fun x => [x % 2 ^ 16, x / 2 ^ 16 % 2 ^ 16])
  if 1 < l.length ∧ l.getLast? = some 0 then l.dropLast else l

/-- A LOST report acts at a station (R401, R411). -/
def Hw.lostActs (h : Hw) (l : List Nat) (t : Nat) : Hw :=
  h.each l (fun h n =>
    let h := (h.inc TW_LOST_CNT_COUNT 0).lostStation n
    if h.flag TW_LINE_STAT_NUM_VALID 0 && h.ownNum == n && !h.flag TW_LINE_STAT_IS_MASTER 0 then h.announce t else h)

/-- HELLO_TIMEOUT of station `n` at instant `t` (R401): the master broadcasts LOST, and is itself one of the stations told. -/
def Hw.helloTimeout (h : Hw) (n t : Nat) : Hw :=
  match tfind h.line.hello n with
  | none => h
  | some a =>
    if h.flag TW_LINE_CFG_EN 0 && h.flag TW_LINE_STAT_IS_MASTER 0 && decide (h.now ≤ t) && decide (a + 3 * t1ms ≤ t) then
      let h := { h with now := t, line := { h.line with hello := tdel h.line.hello n } }
      (h.lineSend { lane := 2, ty := 8, bcast := true, words := [n] }).lostActs [n] t
    else h

/-! ### Events, consists, notices (R243, R244, R281, R409) -/

/-- An EVENT delivered (R243, R244). -/
def Hw.eventRecv (h : Hw) (f : Frame) : Hw := h.lineEvent (bits (f.words.getD 0 0) 7 0) (Frame.w64 f 1)

/-- A NOTICE delivered (R281). -/
def Hw.noticeRecv (h : Hw) (f : Frame) : Hw := { h with line := { h.line with notice := f.words } }

end Sys2Proof.Machine
end

