-- ==== Sys2Proof/Machine/Remote.lean ====
section
/-! DEFINITION. Accesses that come over Tweed, Ethernet and SPI, and those this station sends to another (R61, R388, R397,
R412 to R416). -/

namespace Sys2Proof.Machine

/-! ### Bytes -/

/-- Words from bytes, lowest first; missing bytes are 0 (R387). -/
def packBytes : List Nat → List Nat
  | [] => []
  | [a] => [a]
  | [a, b] => [a + b * 2 ^ 8]
  | [a, b, c] => [a + b * 2 ^ 8 + c * 2 ^ 16]
  | a :: b :: c :: d :: r => (a + b * 2 ^ 8 + c * 2 ^ 16 + d * 2 ^ 24) :: packBytes r

/-- Bytes of words. -/
def wordBytes (l : List Nat) : List Nat := l.flatMap (bytesOf 4)

/-- Bytes of the naturally aligned 32-bit access that begins at an address, out of `n` (R397). -/
def pieceAt (a n : Nat) : Nat := min n (4 - a % 4)

/-! ### Answers -/

/-- An Ethernet session. -/
def Hw.session (h : Hw) (k : Nat) : SessS := tget h.sess k {}

/-- An Ethernet session changed. -/
def Hw.modSess (h : Hw) (k : Nat) (f : SessS → SessS) : Hw := { h with sess := tset h.sess k (f (h.session k)) }

/-- A datagram sent in a session. -/
def Hw.ethSend (h : Hw) (k : Nat) (d : Dgram) : Hw := (h.modSess k (fun x => { x with sent := some d })).inc ETH_TX_COUNT (k / 4)

/-- The response to a request of a session, kept for its repetition (R414). -/
def Hw.ethDone (h : Hw) (k op seq st : Nat) (data : List Nat) : Hw :=
  let d : Dgram := { op := op, rsp := true, session := k % 4, status := st, seq := seq, data := data, peer := (h.session k).owner }
  (h.modSess k (fun x => { x with last := some (seq, d), wait := none })).ethSend k d

/-- An access of a master completes: a session's waiting request gets its response, another master its answer. -/
def Hw.accessDone (h : Hw) (m : Master) (st : Nat) (data : List Nat) : Hw :=
  match m with
  | .eth p s =>
    match (h.session (p * 4 + s)).wait with
    | some (op, seq) => h.ethDone (p * 4 + s) op seq st data
    | none => h
  | m => h.answer m st (packBytes data)

/-! ### Serving requests (R397) -/

/-- The master of a request: the port, or the session, at which it entered. -/
def Job.master (j : Job) : Master := if j.eth then .eth (j.from_ / 4) (j.from_ % 4) else .tweed j.from_

/-- A request after its access of `k` bytes at its address, which read `v`. -/
def Job.step (j : Job) (k v : Nat) : Job :=
  { j with addr := j.addr + k, left := j.left - k, data := j.data.drop k, got := if j.write then [] else j.got ++ bytesOf k v }

/-- A request served as aligned 32-bit accesses in ascending order, to its first failing one: STATUS and bytes, or none while it
waits for a snapshot slot or for DDR5's token. -/
def Hw.serve (h : Hw) (j : Job) : Nat → Option (Nat × List Nat) × Hw
  | 0 => (some (0, j.got), h)
  | n + 1 =>
    if j.left = 0 then (some (0, j.got), h)
    else
      let k := pieceAt j.addr j.left
      let r := if j.write then
          let (st, h) := h.masterWrite j.master j.addr k (leAt j.data 0 k) (some j)
          (st.map (fun x => (x, 0)), h)
        else h.masterRead j.master j.addr k (some j)
      match r with
      | (none, h) => (none, h)
      | (some (st, v), h) => if st ≠ 0 then (some (st, []), h) else h.serve (j.step k v) n

/-- A request's response: on the lane of the request, or as the session's datagram. -/
def Hw.jobDone (h : Hw) (j : Job) (st : Nat) (data : List Nat) : Hw :=
  if j.eth then h.accessDone j.master st data
  else if j.quiet then h
  else h.respond j.from_ j.frame (if j.write then [st] else st :: packBytes data)

/-- A request served, and answered unless it waits. -/
def Hw.runJob (h : Hw) (j : Job) : Hw :=
  match h.serve j (j.left + 1) with
  | (none, h) => h
  | (some (st, data), h) => h.jobDone j st data

/-- A waiting access to DDR5 made, under the token it holds (R18, R35). -/
def Hw.memTurn (h : Hw) (w : MemWait) (r : Res) : Hw :=
  let ((st, v), h) := { h with memQ := h.memQ.erase w }.memDo w
  let h := h.tokRel r (twHost w.m)
  let h := if h.memQ.any (fun x => x.m == w.m && h.memTok x.m x.addr == some r) then h.twAsk r (twHost w.m) 6 else h
  match w.job with
  | none => h.answer w.m st (if w.val.isSome then [] else [v])
  | some j => if st ≠ 0 then h.jobDone j st [] else { h with jobs := h.jobs ++ [(j, v)] }

/-- The next waiting access to DDR5 whose token has been granted. -/
def Hw.memNext (h : Hw) : Option (MemWait × Res) :=
  h.memQ.findSome? (fun w => match h.memTok w.m w.addr with | some r => if h.holds r (twHost w.m) then some (w, r) else none | none => none)

/-- A die with a queue head to be copied whose slot and whose token of DDR5 have been granted. -/
def Hw.headNext (h : Hw) : Option Nat :=
  (List.range 8).find? (fun d => (h.die d).snapWait.any (fun w => h.holds (.snap d) (masterNo w.m) &&
    (match h.headTok w.blk w.inst w.off with | some r => h.holds r (twHost w.m) | none => false)))

/-- Accesses that waited for a slot or a token they now hold go on, one after another. -/
def Hw.resumeJobs (h : Hw) : Nat → Hw
  | 0 => h
  | n + 1 =>
    match h.memNext, h.headNext, h.jobs with
    | some (w, r), _, _ => (h.memTurn w r).resumeJobs n
    | none, some d, _ => (h.snapGranted d).resumeJobs n
    | none, none, (j, v) :: l => ({ h with jobs := l }.runJob (j.step (pieceAt j.addr j.left) v)).resumeJobs n
    | none, none, [] => h

/-- What follows an access or a token's release: accesses that waited go on, and a station that has entered RUN takes up its remote
consists. -/
def Hw.settle (h : Hw) : Hw := (h.resumeJobs 64).enterRun

/-- Address and COUNT of RD_REQ and WR_REQ (R387). -/
def reqAddr (f : Frame) : Nat := Frame.w64 f 0 % 2 ^ 40

/-- COUNT of a request. -/
def reqCount (f : Frame) : Nat := bits (f.words.getD 2 0) 8 0

/-- A request is malformed: its COUNT is not 4 to 240 or does not fit its payload (R387, R388). -/
def reqBad (f : Frame) : Bool :=
  let n := reqCount f
  decide (n < 4) || decide (240 < n) || decide (f.words.length ≠ (if f.ty = 2 then 3 + (n + 3) / 4 else 3))

/-- RD_REQ delivered (R397). -/
def Hw.rdReq (h : Hw) (p : Nat) (f : Frame) : Hw :=
  if reqBad f then h.respond p f [4]
  else (h.runJob { eth := false, from_ := p, frame := f, addr := reqAddr f, left := reqCount f }).settle

/-- WR_REQ delivered (R395, R397): a group or broadcast one has no response. -/
def Hw.wrReq (h : Hw) (p : Nat) (f : Frame) : Hw :=
  let quiet := f.group || f.bcast
  if reqBad f then (if quiet then h else h.respond p f [4])
  else
    let l := (wordBytes (f.words.drop 3)).take (reqCount f)
    (h.runJob { eth := false, from_ := p, frame := f, addr := reqAddr f, left := l.length, write := true, data := l, quiet := quiet }).settle

/-! ### Requests to other stations (R61, R397) -/

/-- The COUNT of the next request of an access with `n` bytes left: 4 to 240, and what remains can be sent too (R387). -/
def nextCount (n : Nat) : Nat := if n ≤ 240 then n else if n < 244 then 236 else 240

/-- A request sent for a master: its next bytes; NO_ROUTE where no forwarding port leads there. An access of less than 4 bytes has no request
that could carry it: one of 1 to 3 bytes is malformed, one of none is done (notes/assumptions/91.md). -/
def Hw.reqSend (h : Hw) (r : LineReq) : Hw :=
  let left := if r.write then r.data.length else r.left
  let n := nextCount left
  let ws := [r.addr % 2 ^ 32, r.addr / 2 ^ 32 % 2 ^ 8, n] ++ (if r.write then packBytes (r.data.take n) else [])
  let f : Frame := { lane := 2, ty := (if r.write then 2 else 0), dest := r.stn, tag := h.line.tag, words := ws }
  if !h.flag TW_LINE_CFG_EN 0 || (h.outPorts f none).isEmpty then h.accessDone r.m 2 []
  else if left < 4 then h.accessDone r.m (if left = 0 then 0 else 4) []
  else
    let r := { r with tag := h.line.tag, at_ := h.now, addr := r.addr + n, left := r.left - n, data := r.data.drop n }
    let h := { h with line := { h.line with tag := (h.line.tag + 1) % 2 ^ 16, reqs := h.line.reqs ++ [r] } }
    h.lineSend f

/-- A response to this station's request (R397): what is left of it goes on, else it completes. NO_ROUTE comes from the station that dropped
the request (R394). -/
def Hw.reqRsp (h : Hw) (f : Frame) (write : Bool) : Hw :=
  match h.line.reqs.find? (fun r => r.tag == f.tag && r.write == write && (r.stn == f.src || bits (f.words.getD 0 0) 2 0 == 2)) with
  | none => h
  | some r =>
    let h := { h with line := { h.line with reqs := h.line.reqs.erase r } }
    let st := bits (f.words.getD 0 0) 2 0
    let got := r.got ++ wordBytes (f.words.drop 1)
    if st ≠ 0 then h.accessDone r.m st []
    else if write then (if r.data.isEmpty then h.accessDone r.m 0 [] else h.reqSend r)
    else if r.left = 0 then h.accessDone r.m 0 got else h.reqSend { r with got := got }

/-- ACCESS_TIMEOUT at instant `t` (R397): no response within 2 ms. -/
def Hw.reqTimeout (h : Hw) (tag t : Nat) : Hw :=
  match h.line.reqs.find? (fun r => r.tag == tag) with
  | none => h
  | some r =>
    if h.now ≤ t ∧ r.at_ + 2 * t1ms ≤ t then
      let h := { h with now := t, line := { h.line with reqs := h.line.reqs.erase r } }
      h.accessDone r.m 3 []
    else h

/-- A system-wide access names this station (R61). -/
def Hw.isOwn (h : Hw) (stn : Option Nat) : Bool := match stn with | none => true | some n => n == h.ownNum

/-- REGISTER_WRITE with a station address, or with a system-wide one (R61, R397, R446). The SPI target port issues station addresses
only. -/
def Hw.accessWrite (h : Hw) (m : Master) (stn : Option Nat) (a n val : Nat) : Hw :=
  if h.isOwn stn then (h.writeCmd m a n val).settle
  else if m = .spi ∨ !h.servesMaster m then h
  else h.reqSend { m := m, tag := 0, write := true, at_ := h.now, stn := stn.getD 0, addr := a % 2 ^ 40, data := bytesOf n val }

/-! ### Ethernet (R412 to R414) -/

/-- An Ethernet port that receives frames. -/
def Hw.ethUp (h : Hw) (p : Nat) : Bool := decide (p < 2) && h.portMode p == 2 && h.get TW_PORT_STAT_LINK p == 2 && decide (3 ≤ h.get STN_BOOT_STEP 0)

/-- A datagram received in a session at instant `t` from a source (R414): another source's is BUSY until the session has been idle
for 10 s; a repeated SEQ gets the stored response; one request is served at a time; `act` executes it. A request to a session that
is not open is malformed. A port without an IPv4 address receives none. -/
def Hw.ethReq (h : Hw) (p s : Nat) (src : Src) (op seq t : Nat) (act : Hw → Hw) : Hw :=
  if !h.ethUp p || h.get ETH_IP_ADDR p == 0 || decide (3 < s) || decide (t < h.now) then h
  else
    let k := p * 4 + s
    let h := { h with now := t }
    let h := h.inc ETH_RX_COUNT p
    let x := h.session k
    let rsp := fun (st : Nat) => ({ op := op, rsp := true, session := s, status := st, seq := seq, data := [], peer := some src } : Dgram)
    let mine := x.owner == some src
    let again := x.last.any (fun l => l.1 == seq && (mine || (x.owner.isNone && l.2.op == 2 && op == 2)))
    if x.owner.isSome && !mine && !x.idle then h.ethSend k (rsp 5)
    else
      let h := if x.owner.isSome then h.modSess k (fun x => { x with at_ := t, idle := false }) else h
      if x.wait.isSome then h.inc ETH_DROP_COUNT p
      else if again then (match x.last with | some l => h.ethSend k l.2 | none => h)
      else if op = 1 ∨ x.owner.isSome then
        let h := if mine then h else h.modSess k (fun x => { x with owner := some src, note := false, last := none, at_ := t, idle := false })
        act h
      else h.ethSend k (rsp 4)

/-- ETH_OPEN (R414). -/
def Hw.ethOpen (h : Hw) (p s : Nat) (src : Src) (seq t : Nat) (note : Bool) : Hw :=
  h.ethReq p s src 1 seq t (fun h => (h.modSess (p * 4 + s) (fun x => { x with note := note })).ethDone (p * 4 + s) 1 seq 0 [])

/-- ETH_CLOSE (R414). -/
def Hw.ethClose (h : Hw) (p s : Nat) (src : Src) (seq t : Nat) : Hw :=
  h.ethReq p s src 2 seq t (fun h => (h.ethDone (p * 4 + s) 2 seq 0 []).modSess (p * 4 + s) (fun x => { x with owner := none, note := false }))

/-- ETH_READ (R397, R414): `count` bytes from a system address. -/
def Hw.ethRead (h : Hw) (p s : Nat) (src : Src) (seq a count t : Nat) : Hw :=
  h.ethReq p s src 3 seq t (fun h =>
    let k := p * 4 + s
    let stn := a / 2 ^ 40 % 2 ^ 12
    if 8192 < count then h.ethDone k 3 seq 4 []
    else
      let h := h.modSess k (fun x => { x with wait := some (3, seq) })
      if h.isOwn (some stn) then (h.runJob { eth := true, from_ := k, seq := seq, addr := a % 2 ^ 40, left := count }).settle
      else h.reqSend { m := .eth p s, tag := 0, write := false, at_ := t, stn := stn, addr := a % 2 ^ 40, left := count })

/-- ETH_WRITE (R397, R414): bytes written from a system address. -/
def Hw.ethWrite (h : Hw) (p s : Nat) (src : Src) (seq a : Nat) (data : List Nat) (t : Nat) : Hw :=
  h.ethReq p s src 4 seq t (fun h =>
    let k := p * 4 + s
    let stn := a / 2 ^ 40 % 2 ^ 12
    let data := data.map (· % 256)
    if 8192 < data.length then h.ethDone k 4 seq 4 []
    else if h.isOwn (some stn) then
      ((h.modSess k (fun x => { x with wait := some (4, seq) })).runJob
        { eth := true, from_ := k, seq := seq, addr := a % 2 ^ 40, left := data.length, write := true, data := data }).settle
    else
      let h := h.modSess k (fun x => { x with wait := some (4, seq) })
      h.reqSend { m := .eth p s, tag := 0, write := true, at_ := t, stn := stn, addr := a % 2 ^ 40, data := data })

/-- ETH_SESSION_IDLE at instant `t` (R414): no datagram of its source for 10 s. -/
def Hw.ethIdle (h : Hw) (p s t : Nat) : Hw :=
  let x := h.session (p * 4 + s)
  if x.owner.isSome && decide (h.now ≤ t) && decide (x.at_ + 10000 * t1ms ≤ t) then
    let h := { h with now := t }
    h.modSess (p * 4 + s) (fun x => { x with idle := true })
  else h

/-- An Ethernet frame that the port drops. -/
def Hw.ethDropped (h : Hw) (p : Nat) : Hw := (h.inc ETH_RX_COUNT p).inc ETH_DROP_COUNT p

/-- ARP_REQUEST for an address from a sender at instant `t` (R412): answered where it is ETH_IP; the sender enters the port's cache of
16 entries, those older than 60 s leave it. -/
def Hw.arpRequest (h : Hw) (p target ip mac t : Nat) : Hw :=
  if !h.ethUp p || decide (t < h.now) then h
  else
    let h := { h with now := t }
    if h.get ETH_IP_ADDR p ≠ 0 ∧ h.get ETH_IP_ADDR p = target then
      let l := (tget h.line.arp p []).filter (fun (x : Nat × Nat × Nat) => x.1 != ip && decide (t < x.2.2 + 60000 * t1ms))
      let h := { h with line := { h.line with arp := tset h.line.arp p (l.drop (l.length - 15) ++ [(ip, mac, t)]) } }
      (h.inc ETH_RX_COUNT p).inc ETH_TX_COUNT p
    else h.ethDropped p

/-- ICMP_ECHO to an address (R412). -/
def Hw.icmpEcho (h : Hw) (p target : Nat) : Hw :=
  if !h.ethUp p then h
  else if h.get ETH_IP_ADDR p ≠ 0 ∧ h.get ETH_IP_ADDR p = target then (h.inc ETH_RX_COUNT p).inc ETH_TX_COUNT p
  else h.ethDropped p

/-- The count that a PTP time in nanoseconds stands for (R413): rounded to the nearest tick. -/
def Hw.ptpCount (h : Hw) (p ns : Nat) : Nat := (rdiv (((ns : Int) - (h.get ETH_PTP_EPOCH_SEC p : Int) * 1000000000) * 24576) 100000).toNat

/-- The PTP port whose clock serves: port 0 where both are locked (R413). -/
def Hw.ptpServes (h : Hw) (p : Nat) : Bool :=
  let on := fun (q : Nat) => h.ethUp q && h.flag ETH_PTP_EN q && h.flag ETH_PTP_LOCK q
  on p && (p == 0 || !on 0)

/-- PTP_MESSAGE at the count `t` (R413): the offset in ns, the PTP time of this count, and whether the clock is locked. The count is
stepped at the first lock after reset, and afterwards only while no unit is connected. -/
def Hw.ptpMessage (h : Hw) (p t : Nat) (ofs : Int) (ns : Nat) (lock : Bool) : Hw :=
  if !h.ethUp p || decide (t < h.now) || !h.flag ETH_PTP_EN p then h
  else
    let h := { h with now := t }
    let h := ((h.inc ETH_RX_COUNT p).putC ETH_PTP_OFS_NS p (sat32 ofs)).putB ETH_PTP_LOCK p lock
    if lock && (h.upstream t).isNone && h.ptpServes p then
      let c := h.ptpCount p ns
      let may := !h.line.everPtp || !h.anyConnected
      let h := { h with line := { h.line with everPtp := true } }
      let h := h.metroLine
      if may && c != t then h.stepCount c else h
    else h

/-! ### SPI (R415) -/

/-- The frame begins with CMD and the address, or goes on at the next word while INC is 1: the address to access. A wrong upper
nibble has the frame ignored and counted. -/
def Hw.spiAddr (h : Hw) (start : Option (Nat × Nat)) (rd : Bool) : Option Nat × Hw :=
  match start with
  | some (cmd, a) =>
    if h.spi.on || (bit cmd 3 != rd) then (none, h)
    else if bits cmd 7 4 ≠ 0xA then
      let h := { h with spi := { on := true, ignored := true } }
      (none, h.inc SPI_ERR_COUNT 0)
    else (some (a % 2 ^ 40), { h with spi := { on := true, rd := rd, inc := bit cmd 2, addr := a % 2 ^ 40, words := 1 } })
  | none =>
    let x := h.spi
    if x.on && !x.ignored && x.rd == rd && x.inc then
      let a := (x.addr + 4) % 2 ^ 40
      (some a, { h with spi := { x with addr := a, words := x.words + 1 } })
    else (none, h)

/-- SPI_READ (R415): a word read, and its STATUS. -/
def Hw.spiRead (h : Hw) (start : Option (Nat × Nat)) : Hw :=
  if !h.servesMaster .spi then h
  else match h.spiAddr start true with
    | (none, h) => h
    | (some a, h) =>
      match h.masterRead .spi a 4 with
      | (none, h) => h
      | (some (st, v), h) => (h.answer .spi st [v]).settle

/-- SPI_WRITE (R415): a word written, and its STATUS. -/
def Hw.spiWrite (h : Hw) (start : Option (Nat × Nat)) (val : Nat) : Hw :=
  if !h.servesMaster .spi then h
  else match h.spiAddr start false with
    | (none, h) => h
    | (some a, h) =>
      match h.masterWrite .spi a 4 val with
      | (none, h) => h
      | (some st, h) => (h.answer .spi st []).settle

/-- SPI_CS_RISE (R415): the frame ends; what was sent of a data word is discarded. -/
def Hw.spiEnd (h : Hw) : Hw := { h with spi := {} }

end Sys2Proof.Machine
end

