-- ==== Sys2Proof/Machine/Wire.lean ====
section
/-! DEFINITION. What leaves the station's ports, byte by byte: Tweed frames with their header and checks (R386), link words (R385), and
the Ethernet frames that carry datagrams (R412, R414). -/

namespace Sys2Proof.Machine

/-! ### Tweed (R385, R386) -/

/-- The CRC-16 of the header: polynomial 0x1021, initial value 0xFFFF, most significant bit first (R386; notes/assumptions/72.md). -/
def crc16 (l : List Nat) : Nat :=
  l.foldl (fun c x => (List.range 8).foldl (fun c i => if bit c 15 != bit x (7 - i) then c * 2 % 65536 ^^^ 0x1021 else c * 2 % 65536) c) 0xFFFF

/-- CRC-32C: the Castagnoli polynomial, reflected, initial value and final XOR of 0xFFFF_FFFF (R386). -/
def crc32c (l : List Nat) : Nat :=
  l.foldl (fun c x => (List.range 8).foldl (fun c i => if bit c 0 != bit x i then c / 2 ^^^ 0x82F63B78 else c / 2) c) 0xFFFFFFFF ^^^ 0xFFFFFFFF

/-- Header bytes 0 to 13 (R386). -/
def Frame.head14 (f : Frame) : List Nat :=
  bytesOf 4 (f.lane % 4 + f.ty % 16 * 2 ^ 2 + b2n f.loc * 2 ^ 6 + b2n f.group * 2 ^ 7 + b2n f.bcast * 2 ^ 8 + f.hops % 32 * 2 ^ 9
    + 4 * f.words.length % 512 * 2 ^ 14) ++
  bytesOf 4 (f.dest % 4096 + f.src % 4096 * 2 ^ 12) ++ bytesOf 4 (f.seq % 65536 + f.tag % 65536 * 2 ^ 16) ++ [0, 0]

/-- The 16-byte header with its HCRC (R386). -/
def Frame.header (f : Frame) : List Nat := Frame.head14 f ++ bytesOf 2 (crc16 (Frame.head14 f))

/-- A whole frame: header, payload and CRC-32C (R386). -/
def Frame.wire (f : Frame) : List Nat :=
  let l := Frame.header f ++ wordBytes f.words
  l ++ bytesOf 4 (crc32c l)

/-- The frame that went out last on a port, and whether an error terminate block ended it (R386). -/
def Hw.tweedOut (h : Hw) (p : Nat) : Option (List Nat × Bool) := (h.port p).sent.map (fun f => (Frame.wire f, (h.port p).cut))

/-- The three data bytes of the last link word sent on a port (R385). -/
def Hw.linkOut (h : Hw) (p : Nat) : Option (List Nat) :=
  (h.port p).sentWord.map (fun w => bytesOf 3 (w.1 % 4 + w.2.1 % 64 * 2 ^ 2 + w.2.2 % 65536 * 2 ^ 8))

/-! ### Ethernet (R412, R414) -/

/-- `n` bytes of a number, highest first. -/
def beBytes (n v : Nat) : List Nat := (bytesOf n v).reverse

/-- A datagram's bytes: the 12-byte header and the body (R414). -/
def Dgram.bytes (d : Dgram) : List Nat :=
  bytesOf 4 (0x5D + d.op % 16 * 2 ^ 8 + b2n d.rsp * 2 ^ 12 + d.session % 4 * 2 ^ 13 + d.status % 256 * 2 ^ 16) ++ bytesOf 4 d.seq ++
    bytesOf 4 d.data.length ++ d.data

/-- The 16-bit words of bytes, high byte first, an odd last byte padded with 0. -/
def beWords : List Nat → List Nat
  | [] => []
  | [a] => [a * 256]
  | a :: b :: r => (a * 256 + b) :: beWords r

/-- The Internet checksum: the complement of the ones' complement sum of the words. -/
def inetSum (l : List Nat) : Nat :=
  let s := (beWords l).foldl (· + ·) 0
  let s := s % 65536 + s / 65536
  65535 - (s % 65536 + s / 65536)

/-- The UDP datagram between two endpoints, its checksum over the pseudo-header, never sent as 0 (R412). -/
def udpBytes (src dst : Src) (data : List Nat) : List Nat :=
  let n := 8 + data.length
  let head := beBytes 2 src.port ++ beBytes 2 dst.port ++ beBytes 2 n
  let c := inetSum (beBytes 4 src.ip ++ beBytes 4 dst.ip ++ [0, 17] ++ beBytes 2 n ++ head ++ [0, 0] ++ data)
  head ++ beBytes 2 (if c = 0 then 65535 else c) ++ data

/-- The IPv4 packet with TTL 64 and no options, not a fragment (R412). -/
def ipBytes (src dst : Src) (data : List Nat) : List Nat :=
  let udp := udpBytes src dst data
  let a := [0x45, 0] ++ beBytes 2 (20 + udp.length) ++ [0, 0, 0, 0, 64, 17]
  let b := beBytes 4 src.ip ++ beBytes 4 dst.ip
  a ++ beBytes 2 (inetSum (a ++ [0, 0] ++ b)) ++ b ++ udp

/-- The address whose MAC a packet goes to: its destination on the subnet of ETH_MASK, else the gateway (R412). -/
def Hw.nextHop (h : Hw) (p ip : Nat) : Nat :=
  let m := h.get ETH_MASK_MASK p
  if ip &&& m = h.get ETH_IP_ADDR p &&& m then ip else h.get ETH_GW_GW p

/-- The MAC that the port's ARP cache holds for an address, no older than 60 s (R412). -/
def Hw.macOf (h : Hw) (p ip : Nat) : Option Nat :=
  ((tget h.line.arp p []).find? (fun e => e.1 == ip && decide (h.now < e.2.2 + 60000 * t1ms))).map (fun e => e.2.1)

/-- The 802.1Q tag of a port's frames, where ETH_VLAN.EN is 1 (R412). -/
def Hw.vlanTag (h : Hw) (p : Nat) : List Nat :=
  if h.flag ETH_VLAN_EN p then [0x81, 0] ++ beBytes 2 (h.get ETH_VLAN_VID p + h.get ETH_VLAN_PCP p * 2 ^ 13) else []

/-- The Ethernet frame of the last datagram sent in a session: from ETH_MAC, ETH_IP and ETH_UDP.PORT to the endpoint; none while the cache
holds no MAC for its next hop (R412, R414; notes/assumptions/92.md). -/
def Hw.ethOut (h : Hw) (k : Nat) : Option (List Nat) :=
  let p := k / 4
  match (tget h.sess k {}).sent with
  | none => none
  | some d =>
    match d.peer with
    | none => none
    | some to_ =>
      (h.macOf p (h.nextHop p to_.ip)).map (fun mac =>
        beBytes 6 mac ++ beBytes 6 (h.get ETH_MAC_MAC p) ++ h.vlanTag p ++ [8, 0] ++
          ipBytes { ip := h.get ETH_IP_ADDR p, port := h.get ETH_UDP_PORT p } to_ (Dgram.bytes d))

end Sys2Proof.Machine
end

