-- ==== Sys2Proof/Machine/Rows.lean ====
section
/-! DEFINITION. What the rows of the command table share beyond the operations of the other files: a write by a master through its
transport, the instants at which a row may come, and rows that touch two units of the hardware. -/

namespace Sys2Proof.Machine

/-- What DDR5's error correction finds in this command's reads (R287). -/
def Hw.meets (h : Hw) (l : List (Nat × Bool)) : Hw := { h with ecc := l }

/-- A write by a master whose effect is `f` (R39, R446): its transport answers OK, whether the register is reached or lies in a hole
(R5, R60). -/
def Hw.byHost (h : Hw) (m : Master) (reached : Bool) (f : Hw → Hw) : Hw :=
  if h.servesMaster m then (if reached then ((f h).answer m 0 []).settle else h.answer m 0 []) else h

/-- An engine that a master can reach. -/
def Hw.hasEng (h : Hw) (e : Nat) : Bool := decide (e < 64) && h.dieUp (e / 8)

/-- A capture that a master can reach. -/
def Hw.hasCap (h : Hw) (c : Nat) : Bool := decide (c < 64) && h.dieUp (c / 8)

/-- A queue that a master can reach. -/
def Hw.hasQueue (h : Hw) (q : Nat) : Bool := decide (q < 512) && h.dieUp (q / 64)

/-- TOKEN_RELEASE (R37): a snapshot slot's token goes with its copy (R64), the calibration bus to the visit that waits. -/
def Hw.tokenFreed (h : Hw) (r : Res) (who : Nat) : Hw :=
  match r with
  | .snap d => (h.slotRelease d who).settle
  | .cal d => (h.tokRel r who).calBusGrant d
  | r => (h.tokRel r who).settle

/-- A read of a snapshot object's lowest or of a higher word, in this station or by a system-wide address (R61 to R63). -/
def Hw.accessSnap (h : Hw) (m : Master) (stn : Option Nat) (a : Nat) (lowest : Bool) : Hw :=
  if h.isOwn stn then (h.snapCmd m a lowest).settle
  else if m = .spi ∨ !h.servesMaster m then h
  else h.reqSend { m := m, tag := 0, write := false, at_ := h.now, stn := stn.getD 0, addr := a % 2 ^ 40, left := 4 }

/-- POINTS_INIT (R98, R193): between 100 µs and 1 ms after reset release, before an image is applied, a die takes its idle points bus for the
power-up sequence. Its readbacks have completed at the end of the sequence. -/
def Hw.pointsInit (h : Hw) (d : Nat) (rbs : List Nat) : Hw :=
  let t := max h.now t100us
  if h.dieUp d && decide (h.now ≤ t1ms) && decide (h.get STN_BOOT_STEP 0 ≤ 5) && (h.die d).pts.cur.isNone then
    let h := h.modD d (fun x => { x with pts := { x.pts with initAt := some t } })
    ({ h with now := h.initEnd d t }).ptsInit d rbs
  else h

/-- A row of an engine that follows the last tick of its unit. -/
def Hw.waitRow (h : Hw) (e : Nat) (f : Hw → Hw) : Hw :=
  if h.hasEng e && h.flag TT_BIND_VALID e then h.postTick (h.get TT_BIND_UNIT e) f else h

/-- STREAM_RESUME (R264). -/
def Hw.streamRow (h : Hw) (e : Nat) : Hw := if h.hasEng e then h.streamResume e else h

/-- WATCH_EVENT_SEEN (R250): an event seen at a slot not being waited on is handled once. -/
def Hw.watchRow (h : Hw) (e k : Nat) : Hw :=
  if (h.eng e).seenNow.contains k && !h.waitedOn e k then
    (h.watchSeen e k).modE e (fun x => { x with seenNow := x.seenNow.filter (· != k) })
  else h

/-- EVENT_SCHEDULE at instant `t` (R243, R244): an event reaches the station's scheduler; a number from 320 names none (R240). -/
def Hw.eventReaches (h : Hw) (ev due t : Nat) : Hw :=
  if t < h.now ∨ 319 < ev then h
  else
    let h := { h with now := t }
    if ev < 64 then h.evSchedule ev due else h.lineEvent (ev - 64) due

/-- A read of word `i` of a queue's head (R276, R277). -/
def Hw.headRead (h : Hw) (m : Master) (q i : Nat) : Hw :=
  if h.hasQueue q then (h.snapCmd m (0x100000 + q / 64 * 0x100000 + 0x50000 + q % 64 * 0x100 + 0x80 + 4 * i) (i == 0)).settle else h

/-- LOST delivered at instant `t` (R401). -/
def Hw.lostRecv (h : Hw) (f : Frame) (t : Nat) : Hw := if h.flag TW_LINE_CFG_EN 0 then h.lostActs (lostNums f.words) t else h

end Sys2Proof.Machine
end

