-- ==== Sys2Proof/Machine/CmdBoot.lean ====
section
/-! DEFINITION. The commands of start-up, images, identity and audit: one meaning for each. -/

namespace Sys2Proof.Machine

/-- CENSUS_TIMEOUT (R360). -/
def execCensusTimeout (d : Nat) (t : Nat) (s : State) : Host.Outcome State Fault Refusal :=
  s.run (fun h => h.censusTimeout d t)

/-- IMAGE_READ_DONE (R370). -/
def execImageReadDone (err : Bool) (ecc : List (Nat × Bool)) (s : State) : Host.Outcome State Fault Refusal :=
  s.run (fun h => (h.meets ecc).imageRead err)

/-- LEAVE_BOOTING (R357). -/
def execLeaveBooting (s : State) : Host.Outcome State Fault Refusal :=
  s.run (fun h => h.leaveBooting)

/-- IMG_LOAD_MEMORY (R373). -/
def execImgLoadMemory (m : Master) (s : State) : Host.Outcome State Fault Refusal :=
  s.run (fun h => h.byHost m true (fun h => h.stnWrite 0x14 1))

/-- IMG_LOAD_FLASH_A (R373). -/
def execImgLoadFlashA (m : Master) (s : State) : Host.Outcome State Fault Refusal :=
  s.run (fun h => h.byHost m true (fun h => h.stnWrite 0x14 2))

/-- IMG_LOAD_FLASH_B (R373). -/
def execImgLoadFlashB (m : Master) (s : State) : Host.Outcome State Fault Refusal :=
  s.run (fun h => h.byHost m true (fun h => h.stnWrite 0x14 3))

/-- ATTEST (R375). -/
def execAttest (m : Master) (signer : Nat) (s : State) : Host.Outcome State Fault Refusal :=
  s.run (fun h => h.byHost m true (fun h => h.stnWrite 0x2020 (1 + signer % 4 * 2)))

/-- ATTEST_DONE (R376). -/
def execAttestDone (s : State) : Host.Outcome State Fault Refusal :=
  s.run (fun h => h.attestDone)

/-- BIND_WRITE (R379). -/
def execBindWrite (m : Master) (val : Nat) (s : State) : Host.Outcome State Fault Refusal :=
  s.run (fun h => h.byHost m true (fun h => h.stnWrite 0x100 val))

/-- RELIEF_WRITE (R359). -/
def execReliefWrite (m : Master) (val : Nat) (s : State) : Host.Outcome State Fault Refusal :=
  s.run (fun h => h.byHost m true (fun h => h.stnWrite 0x104 val))

/-- KEY_PROGRAM (R380). -/
def execKeyProgram (m : Master) (slot : Nat) (s : State) : Host.Outcome State Fault Refusal :=
  s.run (fun h => h.byHost m true (fun h => h.stnWrite 0x10C (1 + slot % 4 * 4)))

/-- KEY_REVOKE (R380). -/
def execKeyRevoke (m : Master) (slot : Nat) (s : State) : Host.Outcome State Fault Refusal :=
  s.run (fun h => h.byHost m true (fun h => h.stnWrite 0x10C (2 + slot % 4 * 4)))

/-- XSPI_READ (R364). -/
def execXspiRead (m : Master) (head : Nat) (s : State) : Host.Outcome State Fault Refusal :=
  s.run (fun h => h.byHost m true (fun h => h.stnWrite 0x200 (1 + head % 2 * 4)))

/-- XSPI_PROGRAM (R364). -/
def execXspiProgram (m : Master) (head : Nat) (s : State) : Host.Outcome State Fault Refusal :=
  s.run (fun h => h.byHost m true (fun h => h.stnWrite 0x200 (2 + head % 2 * 4)))

/-- XSPI_ERASE (R364). -/
def execXspiErase (m : Master) (head : Nat) (s : State) : Host.Outcome State Fault Refusal :=
  s.run (fun h => h.byHost m true (fun h => h.stnWrite 0x200 (3 + head % 2 * 4)))

/-- XSPI_DONE (R382). -/
def execXspiDone (ok : Bool) (s : State) : Host.Outcome State Fault Refusal :=
  s.run (fun h => (h.xspiDone ok).settle)

/-- AUD_NOTE (R381). -/
def execAudNote (m : Master) (val : Nat) (s : State) : Host.Outcome State Fault Refusal :=
  s.run (fun h => h.byHost m true (fun h => h.stnWrite 0x300C val))

/-- AUDIT_WRITE (R382). -/
def execAuditWrite (s : State) : Host.Outcome State Fault Refusal :=
  s.run (fun h => h.auditWrite)

/-- BUILT_IN_SELF_TEST_DONE (R360). -/
def execBuiltInSelfTestDone (d : Nat) (fail : Nat) (s : State) : Host.Outcome State Fault Refusal :=
  s.run (fun h => h.bistDone d fail)

end Sys2Proof.Machine
end

