-- ==== Sys2Proof/Machine/CmdCalib.lean ====
section
/-! DEFINITION. The commands of calibration and sidings: one meaning for each. -/

namespace Sys2Proof.Machine

/-- CAL_VISIT (R306). -/
def execCalVisit (m : Master) (d : Nat) (ch : Nat) (s : State) : Host.Outcome State Fault Refusal :=
  s.run (fun h => h.byHost m (h.dieUp d) (fun h => h.dieWrite d 0x80010 (1 + ch % 2 ^ 6 * 2 ^ 3)))

/-- ROTA_VISIT (R310). -/
def execRotaVisit (d : Nat) (t : Nat) (s : State) : Host.Outcome State Fault Refusal :=
  s.run (fun h => h.rotaVisit d t)

/-- SIDING_TOKEN_TIMEOUT (R307). -/
def execSidingTokenTimeout (d : Nat) (sd : Nat) (t : Nat) (s : State) : Host.Outcome State Fault Refusal :=
  s.run (fun h => h.sidTokenTimeout d sd t)

/-- TAKEOVER_START (R298). -/
def execTakeoverStart (d : Nat) (sd : Nat) (s : State) : Host.Outcome State Fault Refusal :=
  s.run (fun h => h.takeoverStart d sd)

/-- HANDOVER (R300). -/
def execHandover (d : Nat) (sd : Nat) (n : Nat) (own : Sample) (other : Sample) (s : State) : Host.Outcome State Fault Refusal :=
  s.run (fun h => h.handover d sd n own other)

/-- TAKEOVER_TIMEOUT (R299). -/
def execTakeoverTimeout (d : Nat) (sd : Nat) (t : Nat) (s : State) : Host.Outcome State Fault Refusal :=
  s.run (fun h => h.takeoverTimeout d sd t)

/-- CAL_STEP (R304). -/
def execCalStep (d : Nat) (sd : Nat) (outs : List (Int × Int × Int)) (ovl : Bool) (s : State) : Host.Outcome State Fault Refusal :=
  s.run (fun h => h.calStep d sd outs ovl)

/-- SIDING_RETURN (R301). -/
def execSidingReturn (d : Nat) (sd : Nat) (n : Nat) (own : Sample) (other : Sample) (s : State) : Host.Outcome State Fault Refusal :=
  s.run (fun h => h.sidingReturn d sd n own other)

/-- RETURN_TIMEOUT (R301). -/
def execReturnTimeout (d : Nat) (sd : Nat) (t : Nat) (s : State) : Host.Outcome State Fault Refusal :=
  s.run (fun h => h.returnTimeout d sd t)

/-- CAL_STANDIN (R311). -/
def execCalStandin (m : Master) (d : Nat) (ch : Nat) (sd : Nat) (force : Bool) (s : State) : Host.Outcome State Fault Refusal :=
  s.run (fun h => h.byHost m (h.dieUp d) (fun h => h.dieWrite d 0x80010 (3 + ch % 2 ^ 6 * 2 ^ 3 + sd % 2 * 2 ^ 9 + b2n force * 2 ^ 10)))

/-- CAL_RETURN (R311). -/
def execCalReturn (m : Master) (d : Nat) (ch : Nat) (s : State) : Host.Outcome State Fault Refusal :=
  s.run (fun h => h.byHost m (h.dieUp d) (fun h => h.dieWrite d 0x80010 (4 + ch % 2 ^ 6 * 2 ^ 3)))

/-- CAL_EXT_STDV (R312). -/
def execCalExtStdv (m : Master) (d : Nat) (s : State) : Host.Outcome State Fault Refusal :=
  s.run (fun h => h.byHost m (h.dieUp d) (fun h => h.dieWrite d 0x80010 5))

/-- CAL_EXT_RANGE (R313). -/
def execCalExtRange (m : Master) (d : Nat) (point : Nat) (s : State) : Host.Outcome State Fault Refusal :=
  s.run (fun h => h.byHost m (h.dieUp d) (fun h => h.dieWrite d 0x80010 (6 + point % 2 * 2 ^ 11)))

/-- CAL_FACTORY_STORE (R314). -/
def execCalFactoryStore (m : Master) (d : Nat) (s : State) : Host.Outcome State Fault Refusal :=
  s.run (fun h => h.byHost m (h.dieUp d) (fun h => h.dieWrite d 0x80010 7))

/-- CAL_STORE (R316). -/
def execCalStore (m : Master) (d : Nat) (s : State) : Host.Outcome State Fault Refusal :=
  s.run (fun h => h.byHost m (h.dieUp d) (fun h => h.dieWrite d 0x80010 2))

/-- STORE_DUE (R316). -/
def execStoreDue (d : Nat) (t : Nat) (s : State) : Host.Outcome State Fault Refusal :=
  s.run (fun h => h.storeDue d t)

/-- NVM_PAGE_DONE (R315). -/
def execNvmPageDone (d : Nat) (ok : Bool) (s : State) : Host.Outcome State Fault Refusal :=
  s.run (fun h => h.nvmPageDone d ok)

end Sys2Proof.Machine
end

