-- ==== Sys2Proof/Machine/CmdConsist.lean ====
section
/-! DEFINITION. The commands of consists: one meaning for each. -/

namespace Sys2Proof.Machine

/-- COUPLE (R48). -/
def execCouple (m : Master) (u : Nat) (s : State) : Host.Outcome State Fault Refusal :=
  s.run (fun h => h.byHost m (h.reaches u) (fun h => h.unitWrite u 0x14 1))

/-- UNCOUPLE (R49). -/
def execUncouple (m : Master) (u : Nat) (s : State) : Host.Outcome State Fault Refusal :=
  s.run (fun h => h.byHost m (h.reaches u) (fun h => h.unitWrite u 0x14 2))

/-- COUPLE_COMPLETE (R49). -/
def execCoupleComplete (u : Nat) (far : FarAns) (follow : Option Follow) (s : State) : Host.Outcome State Fault Refusal :=
  s.run (fun h => h.coupleComplete u (far.res % 16) far.depth follow)

/-- OUTER_TICK (R54). -/
def execOuterTick (u : Nat) (t : Nat) (s : State) : Host.Outcome State Fault Refusal :=
  s.run (fun h => h.outerTick u t)

/-- FOLLOWER_SILENCE (R56). -/
def execFollowerSilence (u : Nat) (idx : Nat) (s : State) : Host.Outcome State Fault Refusal :=
  s.run (fun h => h.followerSilence u idx)

/-- HEAD_SILENCE (R56). -/
def execHeadSilence (u : Nat) (s : State) : Host.Outcome State Fault Refusal :=
  s.run (fun h => h.headSilence u)

end Sys2Proof.Machine
end

