-- ==== Sys2Proof/Machine/CmdEthSpi.lean ====
section
/-! DEFINITION. The commands of Ethernet and the SPI target port: one meaning for each. -/

namespace Sys2Proof.Machine

/-- ETH_OPEN (R414). -/
def execEthOpen (p : Nat) (sess : Nat) (src : Src) (seq : Nat) (note : Bool) (t : Nat) (s : State) : Host.Outcome State Fault Refusal :=
  s.run (fun h => h.ethOpen p sess src seq t note)

/-- ETH_CLOSE (R414). -/
def execEthClose (p : Nat) (sess : Nat) (src : Src) (seq : Nat) (t : Nat) (s : State) : Host.Outcome State Fault Refusal :=
  s.run (fun h => h.ethClose p sess src seq t)

/-- ETH_READ (R414). -/
def execEthRead (p : Nat) (sess : Nat) (src : Src) (seq : Nat) (addr : Nat) (count : Nat) (t : Nat) (ecc : List (Nat × Bool)) (s : State) : Host.Outcome State Fault Refusal :=
  s.run (fun h => (h.meets ecc).ethRead p sess src seq addr count t)

/-- ETH_WRITE (R414). -/
def execEthWrite (p : Nat) (sess : Nat) (src : Src) (seq : Nat) (addr : Nat) (data : List Nat) (t : Nat) (s : State) : Host.Outcome State Fault Refusal :=
  s.run (fun h => h.ethWrite p sess src seq addr data t)

/-- ETH_SESSION_IDLE (R414). -/
def execEthSessionIdle (p : Nat) (sess : Nat) (t : Nat) (s : State) : Host.Outcome State Fault Refusal :=
  s.run (fun h => h.ethIdle p sess t)

/-- ARP_REQUEST (R412). -/
def execArpRequest (p : Nat) (target : Nat) (ip : Nat) (mac : Nat) (t : Nat) (s : State) : Host.Outcome State Fault Refusal :=
  s.run (fun h => h.arpRequest p target ip mac t)

/-- ICMP_ECHO (R412). -/
def execIcmpEcho (p : Nat) (target : Nat) (s : State) : Host.Outcome State Fault Refusal :=
  s.run (fun h => h.icmpEcho p target)

/-- PTP_MESSAGE (R413). -/
def execPtpMessage (p : Nat) (t : Nat) (ofs : Int) (ns : Nat) (lock : Bool) (s : State) : Host.Outcome State Fault Refusal :=
  s.run (fun h => h.ptpMessage p t ofs ns lock)

/-- SPI_READ (R415). -/
def execSpiRead (start : Option (Nat × Nat)) (ecc : List (Nat × Bool)) (s : State) : Host.Outcome State Fault Refusal :=
  s.run (fun h => (h.meets ecc).spiRead start)

/-- SPI_WRITE (R415). -/
def execSpiWrite (start : Option (Nat × Nat)) (val : Nat) (s : State) : Host.Outcome State Fault Refusal :=
  s.run (fun h => h.spiWrite start val)

/-- SPI_CS_RISE (R415). -/
def execSpiCsRise (s : State) : Host.Outcome State Fault Refusal :=
  s.run (fun h => h.spiEnd)

end Sys2Proof.Machine
end

