-- ==== Sys2Proof/Machine/CmdEvent.lean ====
section
/-! DEFINITION. The commands of events, trigger pins, jumps and stream rings: one meaning for each. -/

namespace Sys2Proof.Machine

/-- EV_RAISE (R242). -/
def execEvRaise (m : Master) (ev : Nat) (nowF : Bool) (s : State) : Host.Outcome State Fault Refusal :=
  s.run (fun h => h.byHost m true (fun h => h.stnWrite 0x1008 (ev % 2 ^ 9 + b2n nowF * 2 ^ 9 + 2 ^ 10)))

/-- EVENT_SCHEDULE (R243). -/
def execEventSchedule (ev : Nat) (due : Nat) (t : Nat) (s : State) : Host.Outcome State Fault Refusal :=
  s.run (fun h => h.eventReaches ev due t)

/-- EVENT_ACT (R241). -/
def execEventAct (ev : Nat) (due : Nat) (s : State) : Host.Outcome State Fault Refusal :=
  s.run (fun h => h.evAct ev due)

/-- TRIG_EDGE_QUALIFY (R247). -/
def execTrigEdgeQualify (k : Nat) (level : Bool) (q : Nat) (s : State) : Host.Outcome State Fault Refusal :=
  s.run (fun h => if k < 8 then h.trigEdge k level q else h)

/-- TRIG_PULSE_END (R247). -/
def execTrigPulseEnd (k : Nat) (t : Nat) (s : State) : Host.Outcome State Fault Refusal :=
  s.run (fun h => h.trigPulseEnd k t)

/-- TRIG_DIR_WRITE (R247). -/
def execTrigDirWrite (m : Master) (k : Nat) (val : Nat) (s : State) : Host.Outcome State Fault Refusal :=
  s.run (fun h => h.byHost m (decide (k < 8)) (fun h => h.stnWrite (0x1100 + 4 * k) val))

/-- WATCH_EVENT_SEEN (R250). -/
def execWatchEventSeen (e : Nat) (k : Nat) (s : State) : Host.Outcome State Fault Refusal :=
  s.run (fun h => h.watchRow e k)

/-- JUMP_REQUEST (R256). -/
def execJumpRequest (m : Master) (e : Nat) (brk : Bool) (s : State) : Host.Outcome State Fault Refusal :=
  s.run (fun h => h.byHost m (h.hasEng e) (fun h => h.engWrite e 0x2C0 (1 + b2n brk * 2)))

/-- JUMP_TARGET_WRITE (R256). -/
def execJumpTargetWrite (m : Master) (e : Nat) (val : Nat) (s : State) : Host.Outcome State Fault Refusal :=
  s.run (fun h => h.byHost m (h.hasEng e) (fun h => h.engWrite e 0x2CC val))

/-- JUMP_TAKE (R259). -/
def execJumpTake (e : Nat) (s : State) : Host.Outcome State Fault Refusal :=
  s.run (fun h => h.jumpTake e)

/-- SR_WP_WRITE (R261). -/
def execSrWpWrite (m : Master) (e : Nat) (val : Nat) (s : State) : Host.Outcome State Fault Refusal :=
  s.run (fun h => h.byHost m (h.hasEng e) (fun h => h.engWrite e 0x310 val))

end Sys2Proof.Machine
end

