-- ==== Sys2Proof/Machine/CmdHost.lean ====
section
/-! DEFINITION. The commands of accesses of masters and the host's side of a unit: one meaning for each. -/

namespace Sys2Proof.Machine

/-- REGISTER_WRITE (R446). -/
def execRegisterWrite (m : Master) (stn : Option Nat) (addr : Nat) (size : Nat) (val : Nat) (s : State) : Host.Outcome State Fault Refusal :=
  s.run (fun h => h.accessWrite m stn addr size val)

/-- ACCESS_ERROR (R9). -/
def execAccessError (m : Master) (addr : Nat) (size : Nat) (s : State) : Host.Outcome State Fault Refusal :=
  s.run (fun h => h.accessError m addr size)

/-- SNAP_LOWEST_READ (R62). -/
def execSnapLowestRead (m : Master) (stn : Option Nat) (addr : Nat) (ecc : List (Nat × Bool)) (s : State) : Host.Outcome State Fault Refusal :=
  s.run (fun h => (h.meets ecc).accessSnap m stn addr true)

/-- SNAP_HIGHER_READ (R63). -/
def execSnapHigherRead (m : Master) (stn : Option Nat) (addr : Nat) (s : State) : Host.Outcome State Fault Refusal :=
  s.run (fun h => h.accessSnap m stn addr false)

/-- SNAP_SLOT_TIMEOUT (R64). -/
def execSnapSlotTimeout (d : Nat) (who : Nat) (t : Nat) (s : State) : Host.Outcome State Fault Refusal :=
  s.run (fun h => (h.slotTimeout d who t).settle)

/-- REF_PUSH (R77). -/
def execRefPush (m : Master) (u : Nat) (val : Nat) (s : State) : Host.Outcome State Fault Refusal :=
  s.run (fun h => h.byHost m (h.reaches u) (fun h => h.unitWrite u 0x44 val))

/-- REF_FLUSH (R79). -/
def execRefFlush (m : Master) (u : Nat) (s : State) : Host.Outcome State Fault Refusal :=
  s.run (fun h => h.byHost m (h.reaches u) (fun h => h.unitWrite u 0x54 1))

/-- C32_READ (R176). -/
def execC32Read (m : Master) (g : Nat) (path : Nat) (s : State) : Host.Outcome State Fault Refusal :=
  s.run (fun h => h.c32Cmd m g path)

end Sys2Proof.Machine
end

