-- ==== Sys2Proof/Machine/CmdIlk.lean ====
section
/-! DEFINITION. The commands of the Interlocking and the operator's side: one meaning for each. -/

namespace Sys2Proof.Machine

/-- ILK_OPENING (R322). -/
def execIlkOpening (t : Nat) (i0 : Bool) (i1 : Bool) (both : Bool) (s : State) : Host.Outcome State Fault Refusal :=
  s.run (fun h => h.ilkOpening t i0 i1 both)

/-- ILK_CLOSING (R322). -/
def execIlkClosing (t : Nat) (s : State) : Host.Outcome State Fault Refusal :=
  s.run (fun h => (h.ilkClosing t).enterRun)

/-- ILK_DISCREPANCY (R322). -/
def execIlkDiscrepancy (t : Nat) (i0 : Bool) (s : State) : Host.Outcome State Fault Refusal :=
  s.run (fun h => h.ilkDiscrepancy t i0)

/-- KEY_PRESS (R324). -/
def execKeyPress (k : Nat) (t : Nat) (s : State) : Host.Outcome State Fault Refusal :=
  s.run (fun h => h.keyPress k t)

/-- KEY_RELEASE (R324). -/
def execKeyRelease (k : Nat) (t : Nat) (s : State) : Host.Outcome State Fault Refusal :=
  s.run (fun h => h.keyRelease k t)

/-- ABORT_PRESS (R324). -/
def execAbortPress (t : Nat) (s : State) : Host.Outcome State Fault Refusal :=
  s.run (fun h => h.abortPress t)

/-- ABORT_RELEASE (R324). -/
def execAbortRelease (t : Nat) (s : State) : Host.Outcome State Fault Refusal :=
  s.run (fun h => h.abortRelease t)

/-- FIX_ABSENT (R325). -/
def execFixAbsent (k : Nat) (t : Nat) (s : State) : Host.Outcome State Fault Refusal :=
  s.run (fun h => h.fixAbsent k t)

/-- FIX_PRESENT (R325). -/
def execFixPresent (k : Nat) (t : Nat) (s : State) : Host.Outcome State Fault Refusal :=
  s.run (fun h => h.fixPresent k t)

/-- FIXMASK_WRITE (R325). -/
def execFixmaskWrite (m : Master) (u : Nat) (val : Nat) (s : State) : Host.Outcome State Fault Refusal :=
  s.run (fun h => h.byHost m (h.reaches u) (fun h => h.unitWrite u 0x640 val))

/-- CONN_CONNECT (R327). -/
def execConnConnect (m : Master) (u : Nat) (s : State) : Host.Outcome State Fault Refusal :=
  s.run (fun h => h.byHost m (h.reaches u) (fun h => h.unitWrite u 0x648 1))

/-- CONN_ISOLATE (R332). -/
def execConnIsolate (m : Master) (u : Nat) (s : State) : Host.Outcome State Fault Refusal :=
  s.run (fun h => h.byHost m (h.reaches u) (fun h => h.unitWrite u 0x648 2))

/-- CHECK_LATCH_REQUEST (R328). -/
def execCheckLatchRequest (u : Nat) (n : Nat) (s : State) : Host.Outcome State Fault Refusal :=
  s.run (fun h => h.preTick u n (fun h => if h.chkLatchDue u n then h.chkLatchReq u n else h))

/-- CHECK_SETTLED (R328). -/
def execCheckSettled (u : Nat) (n : Nat) (s : State) : Host.Outcome State Fault Refusal :=
  s.run (fun h => h.preTick u n (fun h => if h.chkSettledDue u n then h.chkSettled u n else h))

/-- CHECK_RESULT (R329). -/
def execCheckResult (u : Nat) (s : State) : Host.Outcome State Fault Refusal :=
  s.run (fun h => h.postTick u (fun h => if h.chkEnd u then h.chkResult u else h))

/-- UNIT_SAFING (R332). -/
def execUnitSafing (u : Nat) (n : Nat) (s : State) : Host.Outcome State Fault Refusal :=
  s.run (fun h => h.preTick u n (fun h => h.unitSafing u n))

/-- ISOLATION_REQUEST (R333). -/
def execIsolationRequest (u : Nat) (s : State) : Host.Outcome State Fault Refusal :=
  s.run (fun h => h.postTick u (fun h => if h.isolationDue u then h.isolationRequest u else h))

/-- ISOLATION_COMPLETE (R333). -/
def execIsolationComplete (u : Nat) (n : Nat) (s : State) : Host.Outcome State Fault Refusal :=
  s.run (fun h => h.preTick u n (fun h => if h.isolationDone u n then (h.isolated u n).each (h.leaves u) (fun h m => h.sidIsolated m n) else h))

/-- ISO_BACKSTOP (R335). -/
def execIsoBackstop (d : Nat) (t : Nat) (s : State) : Host.Outcome State Fault Refusal :=
  s.run (fun h => h.isoBackstop d t)

/-- CEIL_COMMIT (R341). -/
def execCeilCommit (m : Master) (d : Nat) (gen : Nat) (s : State) : Host.Outcome State Fault Refusal :=
  s.run (fun h => h.byHost m (h.dieUp d) (fun h => h.dieWrite d 0x70008 (gen % 16)))

end Sys2Proof.Machine
end

