-- ==== Sys2Proof/Machine/CmdLine.lean ====
section
/-! DEFINITION. The commands of Tweed and the Line: one meaning for each. -/

namespace Sys2Proof.Machine

/-- PORT_MODE_WRITE (R384). -/
def execPortModeWrite (m : Master) (p : Nat) (mode : Nat) (s : State) : Host.Outcome State Fault Refusal :=
  s.run (fun h => h.byHost m (decide (p < 4)) (fun h => h.portWrite p 0 (mode % 4)))

/-- PORT_UP (R385). -/
def execPortUp (p : Nat) (s : State) : Host.Outcome State Fault Refusal :=
  s.run (fun h => if p < 4 then h.portUp p else h)

/-- PORT_DOWN (R385). -/
def execPortDown (p : Nat) (t : Nat) (lock : Bool) (s : State) : Host.Outcome State Fault Refusal :=
  s.run (fun h => h.portLost p t lock)

/-- LINK_WORD (R390). -/
def execLinkWord (p : Nat) (lane : Nat) (credits : Nat) (ack : Nat) (t : Nat) (s : State) : Host.Outcome State Fault Refusal :=
  s.run (fun h => h.linkWord p (lane % 4) (credits % 64) (ack % 2 ^ 16) t)

/-- LINK_WORD_SEND (R385). -/
def execLinkWordSend (p : Nat) (lane : Nat) (t : Nat) (s : State) : Host.Outcome State Fault Refusal :=
  s.run (fun h => h.linkWordSend p (lane % 4) t)

/-- GO_BACK_RESEND (R391). -/
def execGoBackResend (p : Nat) (lane : Nat) (t : Nat) (s : State) : Host.Outcome State Fault Refusal :=
  s.run (fun h => h.goBack p lane t)

/-- SYNC (R403). -/
def execSync (p : Nat) (f : Frame) (crc : Crc) (r : Nat) (s : State) : Host.Outcome State Fault Refusal :=
  s.run (fun h => h.recv p f crc (r / 256) (isFrame 0 0) (fun h => h.syncRecv p f r))

/-- SYNC_SEND (R403). -/
def execSyncSend (t : Nat) (s : State) : Host.Outcome State Fault Refusal :=
  s.run (fun h => h.syncSend t)

/-- DELAY_EXCHANGE (R403). -/
def execDelayExchange (p : Nat) (t : Nat) (s : State) : Host.Outcome State Fault Refusal :=
  s.run (fun h => h.delayExchange p t)

/-- DELAY_REQ (R403). -/
def execDelayReq (p : Nat) (f : Frame) (crc : Crc) (r : Nat) (s : State) : Host.Outcome State Fault Refusal :=
  s.run (fun h => h.recv p f crc (r / 256) (isFrame 0 1) (fun h => h.delayAnswer p r))

/-- DELAY_RSP (R403). -/
def execDelayRsp (p : Nat) (f : Frame) (crc : Crc) (r : Nat) (s : State) : Host.Outcome State Fault Refusal :=
  s.run (fun h => h.recv p f crc (r / 256) (isFrame 0 2) (fun h => h.delayRsp p f r))

/-- TIME_STEP (R404). -/
def execTimeStep (t : Nat) (s : State) : Host.Outcome State Fault Refusal :=
  s.run (fun h => h.timeStep t)

/-- LINE_LOCKED (R404). -/
def execLineLocked (s : State) : Host.Outcome State Fault Refusal :=
  s.run (fun h => h.lineLocked)

/-- LINE_TIME_LOST (R406). -/
def execLineTimeLost (t : Nat) (s : State) : Host.Outcome State Fault Refusal :=
  s.run (fun h => h.lineLost t)

/-- MASTER_TAKEOVER (R399). -/
def execMasterTakeover (t : Nat) (s : State) : Host.Outcome State Fault Refusal :=
  s.run (fun h => h.takeover t)

/-- EVENT (R243). -/
def execEvent (p : Nat) (f : Frame) (crc : Crc) (t : Nat) (s : State) : Host.Outcome State Fault Refusal :=
  s.run (fun h => h.recv p f crc t (isFrame 1 0) (fun h => h.eventRecv f))

/-- OUTER (R55). -/
def execOuter (p : Nat) (f : Frame) (crc : Crc) (t : Nat) (head : Shown) (s : State) : Host.Outcome State Fault Refusal :=
  s.run (fun h => h.recv p f crc t (isFrame 1 1) (fun h => if h.dark then h else h.outerRecv f.words f.src { head with ir := head.ir % 16, vr := head.vr % 4 }))

/-- REPORT (R56). -/
def execReport (p : Nat) (r : Reported) (crc : Crc) (t : Nat) (s : State) : Host.Outcome State Fault Refusal :=
  s.run (fun h => h.recv p r.frame crc t (isFrame 1 2) (fun h => if h.dark then h else h.reportRecv r.frame.words r.frame.src r))

/-- RD_REQ (R397). -/
def execRdReq (p : Nat) (f : Frame) (crc : Crc) (t : Nat) (ecc : List (Nat × Bool)) (s : State) : Host.Outcome State Fault Refusal :=
  s.run (fun h => (h.meets ecc).recv p f crc t (isAccess 0) (fun h => h.rdReq p f))

/-- RD_RSP (R397). -/
def execRdRsp (p : Nat) (f : Frame) (crc : Crc) (t : Nat) (s : State) : Host.Outcome State Fault Refusal :=
  s.run (fun h => h.recv p f crc t (isAccess 1) (fun h => h.reqRsp f false))

/-- WR_REQ (R397). -/
def execWrReq (p : Nat) (f : Frame) (crc : Crc) (t : Nat) (s : State) : Host.Outcome State Fault Refusal :=
  s.run (fun h => h.recv p f crc t (isAccess 2) (fun h => h.wrReq p f))

/-- WR_RSP (R397). -/
def execWrRsp (p : Nat) (f : Frame) (crc : Crc) (t : Nat) (s : State) : Host.Outcome State Fault Refusal :=
  s.run (fun h => h.recv p f crc t (isAccess 3) (fun h => h.reqRsp f true))

/-- ACCESS_TIMEOUT (R397). -/
def execAccessTimeout (tag : Nat) (t : Nat) (s : State) : Host.Outcome State Fault Refusal :=
  s.run (fun h => h.reqTimeout tag t)

/-- NOTICE (R281). -/
def execNotice (p : Nat) (f : Frame) (crc : Crc) (t : Nat) (s : State) : Host.Outcome State Fault Refusal :=
  s.run (fun h => h.recv p f crc t (isFrame 2 4) (fun h => h.noticeRecv f))

/-- ANNOUNCE (R400). -/
def execAnnounce (p : Nat) (f : Frame) (crc : Crc) (t : Nat) (s : State) : Host.Outcome State Fault Refusal :=
  s.run (fun h => h.recv p f crc t (isFrame 2 5) (fun h => h.announceRecv p f t))

/-- ANNOUNCE_SEND (R400). -/
def execAnnounceSend (t : Nat) (s : State) : Host.Outcome State Fault Refusal :=
  s.run (fun h => h.announceSend t)

/-- ASSIGN (R400). -/
def execAssign (p : Nat) (f : Frame) (crc : Crc) (t : Nat) (s : State) : Host.Outcome State Fault Refusal :=
  s.run (fun h => h.recv p f crc t (isFrame 2 6) (fun h => h.assignRecv f))

/-- HELLO (R401). -/
def execHello (p : Nat) (f : Frame) (crc : Crc) (t : Nat) (s : State) : Host.Outcome State Fault Refusal :=
  s.run (fun h => h.recv p f crc t (isFrame 2 7) (fun h => h.helloRecv f t))

/-- HELLO_SEND (R401). -/
def execHelloSend (t : Nat) (s : State) : Host.Outcome State Fault Refusal :=
  s.run (fun h => h.helloSend t)

/-- HELLO_TIMEOUT (R401). -/
def execHelloTimeout (stn : Nat) (t : Nat) (s : State) : Host.Outcome State Fault Refusal :=
  s.run (fun h => h.helloTimeout stn t)

/-- LOST (R401). -/
def execLost (p : Nat) (f : Frame) (crc : Crc) (t : Nat) (s : State) : Host.Outcome State Fault Refusal :=
  s.run (fun h => h.recv p f crc t (isFrame 2 8) (fun h => h.lostRecv f t))

/-- FRAME_BOUNDARY (R389). -/
def execFrameBoundary (p : Nat) (t : Nat) (phase : Nat) (s : State) : Host.Outcome State Fault Refusal :=
  s.run (fun h => h.frameBoundary p t phase)

end Sys2Proof.Machine
end

