-- ==== Sys2Proof/Machine/CmdLoop.lean ====
section
/-! DEFINITION. The commands of the loop tick, what is judged at it, and loop commands: one meaning for each. -/

namespace Sys2Proof.Machine

/-- LOOP_TICK (R70). -/
def execLoopTick (u : Nat) (n : Nat) (smp : List (Nat × Sample)) (s : State) : Host.Outcome State Fault Refusal :=
  s.run (fun h => h.loopTick u n smp)

/-- GUARD_INSTANT (R26). -/
def execGuardInstant (u : Nat) (late : Bool) (stepLate : Bool) (s : State) : Host.Outcome State Fault Refusal :=
  s.run (fun h => h.guardInstant u late stepLate)

/-- LATE_FAULT (R122). -/
def execLateFault (u : Nat) (s : State) : Host.Outcome State Fault Refusal :=
  s.run (fun h => h.faultRow u (fun h => h.lateFault u))

/-- FE_FAULT (R135). -/
def execFeFault (u : Nat) (s : State) : Host.Outcome State Fault Refusal :=
  s.run (fun h => h.faultRow u (fun h => h.feFault u))

/-- SENSE_FAULT (R136). -/
def execSenseFault (u : Nat) (s : State) : Host.Outcome State Fault Refusal :=
  s.run (fun h => h.faultRow u (fun h => h.senseFault u))

/-- FROZEN_FAULT (R137). -/
def execFrozenFault (u : Nat) (s : State) : Host.Outcome State Fault Refusal :=
  s.run (fun h => h.faultRow u (fun h => h.frozenFault u))

/-- CEIL_FAULT (R340). -/
def execCeilFault (u : Nat) (s : State) : Host.Outcome State Fault Refusal :=
  s.run (fun h => h.faultRow u (fun h => h.ceilFault u))

/-- FAULT_CLEAR (R143). -/
def execFaultClear (m : Master) (u : Nat) (s : State) : Host.Outcome State Fault Refusal :=
  s.run (fun h => h.byHost m (h.reaches u) (fun h => h.unitWrite u 0x614 1))

/-- DRV_OT_TRIP (R92). -/
def execDrvOtTrip (u : Nat) (s : State) : Host.Outcome State Fault Refusal :=
  s.run (fun h => h.drvOtTrip u)

/-- DRV_OT_RELEASE (R92). -/
def execDrvOtRelease (u : Nat) (s : State) : Host.Outcome State Fault Refusal :=
  s.run (fun h => h.drvOtRelease u)

/-- LOOP_CLOSE (R125). -/
def execLoopClose (m : Master) (u : Nat) (mode : Nat) (law : Nat) (s : State) : Host.Outcome State Fault Refusal :=
  s.run (fun h => h.byHost m (h.reaches u) (fun h => h.unitWrite u 0xA4 (1 + mode % 2 * 8 + law % 4 * 16)))

/-- LOOP_OPEN (R123). -/
def execLoopOpen (m : Master) (u : Nat) (mode : Nat) (law : Nat) (s : State) : Host.Outcome State Fault Refusal :=
  s.run (fun h => h.byHost m (h.reaches u) (fun h => h.unitWrite u 0xA4 (2 + mode % 2 * 8 + law % 4 * 16)))

/-- LOOP_SWITCH (R127). -/
def execLoopSwitch (m : Master) (u : Nat) (mode : Nat) (law : Nat) (s : State) : Host.Outcome State Fault Refusal :=
  s.run (fun h => h.byHost m (h.reaches u) (fun h => h.unitWrite u 0xA4 (3 + mode % 2 * 8 + law % 4 * 16)))

/-- LOOP_LOAD (R106). -/
def execLoopLoad (m : Master) (u : Nat) (mode : Nat) (law : Nat) (s : State) : Host.Outcome State Fault Refusal :=
  s.run (fun h => h.byHost m (h.reaches u) (fun h => h.unitWrite u 0xA4 (4 + mode % 2 * 8 + law % 4 * 16)))

end Sys2Proof.Machine
end

