-- ==== Sys2Proof/Machine/CmdMetro.lean ====
section
/-! DEFINITION. The commands of the metronome's source: one meaning for each. -/

namespace Sys2Proof.Machine

/-- METRO_SOURCE_LOST (R24). -/
def execMetroSourceLost (s : State) : Host.Outcome State Fault Refusal :=
  s.run (fun h => h.srcLost)

/-- METRO_SOURCE_SWITCH (R24). -/
def execMetroSourceSwitch (s : State) : Host.Outcome State Fault Refusal :=
  s.run (fun h => h.srcSwitch)

/-- METRO_SOURCE_RETURN (R24). -/
def execMetroSourceReturn (s : State) : Host.Outcome State Fault Refusal :=
  s.run (fun h => h.srcReturn)

/-- REFCLK_CLASSIFY (R23). -/
def execRefclkClassify (cls : Nat) (s : State) : Host.Outcome State Fault Refusal :=
  s.run (fun h => h.refClass cls)

end Sys2Proof.Machine
end

