-- ==== Sys2Proof/Machine/CmdMuslin.lean ====
section
/-! DEFINITION. The commands of measurement and capture: one meaning for each. -/

namespace Sys2Proof.Machine

/-- CAPTURE_DONE (R149). -/
def execCaptureDone (c : Nat) (s : State) : Host.Outcome State Fault Refusal :=
  s.run (fun h => h.capDone c)

/-- CAP_ARM (R149). -/
def execCapArm (m : Master) (c : Nat) (s : State) : Host.Outcome State Fault Refusal :=
  s.run (fun h => h.byHost m (h.hasCap c) (fun h => h.capWrite c 0x24 1))

/-- CAP_STOP (R149). -/
def execCapStop (m : Master) (c : Nat) (s : State) : Host.Outcome State Fault Refusal :=
  s.run (fun h => h.byHost m (h.hasCap c) (fun h => h.capWrite c 0x24 2))

/-- CAP_FORCE (R150). -/
def execCapForce (m : Master) (c : Nat) (s : State) : Host.Outcome State Fault Refusal :=
  s.run (fun h => h.byHost m (h.hasCap c) (fun h => h.capWrite c 0x24 3))

/-- MEAS_OUTPUT (R157). -/
def execMeasOutput (u : Nat) (path : Nat) (x : Nat) (lv : List Int) (ovr : List Bool) (s : State) : Host.Outcome State Fault Refusal :=
  s.run (fun h => h.measOutput u path x lv ovr)

/-- AUX_CONVERSION_DONE (R177). -/
def execAuxConversionDone (d : Nat) (who : Nat) (q : Int) (fwd : Int) (t : Nat) (s : State) : Host.Outcome State Fault Refusal :=
  s.run (fun h => h.auxDone d who q fwd t)

/-- MUSLIN_EXTENSION_MOVE (R151). -/
def execMuslinExtensionMove (c : Nat) (s : State) : Host.Outcome State Fault Refusal :=
  s.run (fun h => (h.capMove c).settle)

end Sys2Proof.Machine
end

