-- ==== Sys2Proof/Machine/CmdPower.lean ====
section
/-! DEFINITION. The commands of power-on reset: one meaning for each. -/

namespace Sys2Proof.Machine

/-- POWER_ON_RESET_ASSERT (R421). -/
def execPowerOnResetAssert (s : State) : Host.Outcome State Fault Refusal :=
  s.run (fun h => { (h.each (List.range 8) Hw.isoAssert).each (List.range 8) Hw.nvCut with cold := true })

/-- POWER_ON_RESET_RELEASE (R421). -/
def execPowerOnResetRelease (bootsel : Bool) (stnmode : Bool) (fl0 : Nat) (fl1 : Nat) (s : State) : Host.Outcome State Fault Refusal :=
  .next (if s.hw.cold then { s with hw := s.hw.powerUp bootsel stnmode fl0 fl1 } else s)

/-- POINTS_INIT (R98). -/
def execPointsInit (d : Nat) (rbs : List Nat) (s : State) : Host.Outcome State Fault Refusal :=
  s.run (fun h => h.pointsInit d rbs)

end Sys2Proof.Machine
end

