-- ==== Sys2Proof/Machine/CmdRange.lean ====
section
/-! DEFINITION. The commands of ranges and points: one meaning for each. -/

namespace Sys2Proof.Machine

/-- POINTS_LATCH (R191). -/
def execPointsLatch (d : Nat) (t : Nat) (s : State) : Host.Outcome State Fault Refusal :=
  s.run (fun h => h.ptsLatch d t)

/-- POINTS_READBACK (R192). -/
def execPointsReadback (d : Nat) (t : Nat) (rb : Nat) (s : State) : Host.Outcome State Fault Refusal :=
  s.run (fun h => h.ptsReadback d t rb)

/-- AUTORANGE_DOWN (R199). -/
def execAutorangeDown (u : Nat) (s : State) : Host.Outcome State Fault Refusal :=
  s.run (fun h => h.postTick u (fun h => if h.downDue u then h.startChange u (h.ient u (h.irng u)).dn (h.unit u).clk.last else h))

/-- ARMING_EXPIRE (R200). -/
def execArmingExpire (u : Nat) (s : State) : Host.Outcome State Fault Refusal :=
  s.run (fun h => h.postTick u (fun h => if h.armDue u then h.refuteArm u (h.unit u).clk.last else h))

/-- CHANGE_DESIGNATE (R201). -/
def execChangeDesignate (u : Nat) (n : Nat) (s : State) : Host.Outcome State Fault Refusal :=
  s.run (fun h => h.preTick u n (fun h => if h.desDue u n then h.designate u n else h))

/-- CHANGE_RETARGET (R203). -/
def execChangeRetarget (u : Nat) (n : Nat) (s : State) : Host.Outcome State Fault Refusal :=
  s.run (fun h => h.preTick u n (fun h => if h.retargetDue u n then h.retargetIs u n else h))

/-- CHANGE_BREAK (R203). -/
def execChangeBreak (u : Nat) (n : Nat) (s : State) : Host.Outcome State Fault Refusal :=
  s.run (fun h => h.preTick u n (fun h => if h.breakDue u n then h.requestBreak u n else h))

/-- CHANGE_RETURN (R203). -/
def execChangeReturn (u : Nat) (n : Nat) (s : State) : Host.Outcome State Fault Refusal :=
  s.run (fun h => h.preTick u n (fun h => if h.returnDue u n then h.returnIs u n else h))

/-- RANGE_SEL_WRITE (R207). -/
def execRangeSelWrite (m : Master) (u : Nat) (val : Nat) (s : State) : Host.Outcome State Fault Refusal :=
  s.run (fun h => h.byHost m (h.reaches u) (fun h => h.unitWrite u 0x400 val))

end Sys2Proof.Machine
end

