-- ==== Sys2Proof/Machine/CmdRecord.lean ====
section
/-! DEFINITION. The commands of records, queues and DDR5: one meaning for each. -/

namespace Sys2Proof.Machine

/-- RECORD_PLACE (R271). -/
def execRecordPlace (d : Nat) (s : State) : Host.Outcome State Fault Refusal :=
  s.run (fun h => if h.dieUp d then h.recordPlace d else h)

/-- SPILL_MOVE (R275). -/
def execSpillMove (q : Nat) (s : State) : Host.Outcome State Fault Refusal :=
  s.run (fun h => (h.spillMove q).settle)

/-- QUEUE_ENABLE (R272). -/
def execQueueEnable (m : Master) (q : Nat) (val : Nat) (s : State) : Host.Outcome State Fault Refusal :=
  s.run (fun h => h.byHost m (h.hasQueue q) (fun h => h.queueWrite m q 0x0 (setBit val 2)))

/-- QUEUE_DISABLE (R272). -/
def execQueueDisable (m : Master) (q : Nat) (val : Nat) (s : State) : Host.Outcome State Fault Refusal :=
  s.run (fun h => h.byHost m (h.hasQueue q) (fun h => h.queueWrite m q 0x0 (clrBit val 2)))

/-- HEAD_COPY (R276). -/
def execHeadCopy (m : Master) (q : Nat) (ecc : List (Nat × Bool)) (s : State) : Host.Outcome State Fault Refusal :=
  s.run (fun h => (h.meets ecc).headRead m q 0)

/-- HEAD_POP (R277). -/
def execHeadPop (m : Master) (q : Nat) (s : State) : Host.Outcome State Fault Refusal :=
  s.run (fun h => h.headRead m q (h.qP q / 4 - 1))

/-- DROP_REST (R278). -/
def execDropRest (m : Master) (q : Nat) (s : State) : Host.Outcome State Fault Refusal :=
  s.run (fun h => h.byHost m (h.hasQueue q) (fun h => h.queueWrite m q 0x20 1))

/-- QUEUE_FLUSH (R279). -/
def execQueueFlush (m : Master) (q : Nat) (s : State) : Host.Outcome State Fault Refusal :=
  s.run (fun h => h.byHost m (h.hasQueue q) (fun h => h.queueWrite m q 0x20 2))

/-- QUEUE_RELEASE (R279). -/
def execQueueRelease (m : Master) (q : Nat) (val : Nat) (s : State) : Host.Outcome State Fault Refusal :=
  s.run (fun h => h.byHost m (h.hasQueue q) (fun h => h.queueWrite m q 0x24 val))

/-- SCRUB_PASS (R287). -/
def execScrubPass (c : Nat) (ecc : List (Nat × Bool)) (s : State) : Host.Outcome State Fault Refusal :=
  s.run (fun h => ((h.meets ecc).scrubPass c).settle)

/-- DDR_TRAIN (R289). -/
def execDdrTrain (m : Master) (c : Nat) (s : State) : Host.Outcome State Fault Refusal :=
  s.run (fun h => h.byHost m (decide (c < 2) && h.dieUp c) (fun h => h.dieWrite c 0x804 1))

/-- DDR_TRAIN_DONE (R288). -/
def execDdrTrainDone (c : Nat) (ok : Bool) (s : State) : Host.Outcome State Fault Refusal :=
  s.run (fun h => h.ddrTrainDone c ok)

end Sys2Proof.Machine
end

