-- ==== Sys2Proof/Machine/CmdShare.lean ====
section
/-! DEFINITION. The commands of predictions, tokens and fencing: one meaning for each. -/

namespace Sys2Proof.Machine

/-- PREDICTION_CONFIRM (R32). -/
def execPredictionConfirm (site : PredSite) (s : State) : Host.Outcome State Fault Refusal :=
  s.run (fun h => h.predict site true)

/-- PREDICTION_REFUTE (R32). -/
def execPredictionRefute (site : PredSite) (s : State) : Host.Outcome State Fault Refusal :=
  s.run (fun h => h.predict site false)

/-- TOKEN_REQUEST (R36). -/
def execTokenRequest (res : Res) (req : Req) (s : State) : Host.Outcome State Fault Refusal :=
  s.run (fun h => if h.dieUp (resDie res) then h.tokReq res req else h)

/-- TOKEN_RELEASE (R37). -/
def execTokenRelease (res : Res) (who : Nat) (s : State) : Host.Outcome State Fault Refusal :=
  s.run (fun h => h.tokenFreed res who)

/-- DIE_FENCE (R68). -/
def execDieFence (d : Nat) (s : State) : Host.Outcome State Fault Refusal :=
  s.run (fun h => h.dieFence d)

end Sys2Proof.Machine
end

