-- ==== Sys2Proof/Machine/CmdThermal.lean ====
section
/-! DEFINITION. The commands of thermal supervision: one meaning for each. -/

namespace Sys2Proof.Machine

/-- THERM_PASS (R345). -/
def execThermPass (d : Nat) (t : Nat) (s : State) : Host.Outcome State Fault Refusal :=
  s.run (fun h => h.thermPass d t)

/-- THERM_EMERGENCY (R345). -/
def execThermEmergency (d : Nat) (t : Nat) (s : State) : Host.Outcome State Fault Refusal :=
  s.run (fun h => h.thermEmergency d t)

/-- TH_CONVERT (R345). -/
def execThConvert (m : Master) (d : Nat) (sensor : Nat) (s : State) : Host.Outcome State Fault Refusal :=
  s.run (fun h => h.byHost m (h.dieUp d) (fun h => h.dieWrite d 0x60010 (sensor % 16 + 16)))

/-- COMP_UPDATE (R354). -/
def execCompUpdate (d : Nat) (s : State) : Host.Outcome State Fault Refusal :=
  s.run (fun h => h.compUpdate d)

/-- OSC_COMP_APPLY (R355). -/
def execOscCompApply (t : Nat) (s : State) : Host.Outcome State Fault Refusal :=
  s.run (fun h => h.oscApply t)

end Sys2Proof.Machine
end

