-- ==== Sys2Proof/Machine/CmdTimetable.lean ====
section
/-! DEFINITION. The commands of timetables: one meaning for each. -/

namespace Sys2Proof.Machine

/-- TT_BIND (R210). -/
def execTtBind (m : Master) (e : Nat) (unit : Nat) (valid : Bool) (s : State) : Host.Outcome State Fault Refusal :=
  s.run (fun h => h.byHost m (h.hasEng e) (fun h => h.engWrite e 0x0 (unit % 2 ^ 10 + b2n valid * 2 ^ 15)))

/-- TT_START (R214). -/
def execTtStart (m : Master) (e : Nat) (s : State) : Host.Outcome State Fault Refusal :=
  s.run (fun h => h.byHost m (h.hasEng e) (fun h => h.engWrite e 0x4 1))

/-- TT_STOP (R215). -/
def execTtStop (m : Master) (e : Nat) (s : State) : Host.Outcome State Fault Refusal :=
  s.run (fun h => h.byHost m (h.hasEng e) (fun h => h.engWrite e 0x4 2))

/-- TT_RESET (R213). -/
def execTtReset (m : Master) (e : Nat) (s : State) : Host.Outcome State Fault Refusal :=
  s.run (fun h => h.byHost m (h.hasEng e) (fun h => h.engWrite e 0x4 3))

/-- TT_STEP (R217). -/
def execTtStep (e : Nat) (s : State) : Host.Outcome State Fault Refusal :=
  s.run (fun h => h.ttStep e)

/-- HALT (R239). -/
def execTtHalt (e : Nat) (s : State) : Host.Outcome State Fault Refusal :=
  s.run (fun h => h.ttIns e .halt false)

/-- SET (R224). -/
def execTtSet (e : Nat) (ovr : Nat) (rsh : Nat) (rate : Nat) (value : Nat) (s : State) : Host.Outcome State Fault Refusal :=
  s.run (fun h => h.ttIns e (.set ovr rsh rate value) false)

/-- SWEEP (R231). -/
def execTtSweep (e : Nat) (a : Nat) (s : State) : Host.Outcome State Fault Refusal :=
  s.run (fun h => h.ttIns e (.sweep a) false)

/-- SWEEP_POINT (R231). -/
def execTtSweepPoint (e : Nat) (s : State) : Host.Outcome State Fault Refusal :=
  s.run (fun h => h.sweepPoint e)

/-- LIST (R232). -/
def execTtList (e : Nat) (count : Nat) (a : Nat) (s : State) : Host.Outcome State Fault Refusal :=
  s.run (fun h => h.ttIns e (.list count a) false)

/-- LIST_ENTRY (R232). -/
def execTtListEntry (e : Nat) (s : State) : Host.Outcome State Fault Refusal :=
  s.run (fun h => h.listNext e)

/-- PLAY (R233). -/
def execTtPlay (e : Nat) (rep : Nat) (a : Nat) (s : State) : Host.Outcome State Fault Refusal :=
  s.run (fun h => h.ttIns e (.play rep a) false)

/-- PLAY_PASS (R233). -/
def execTtPlayPass (e : Nat) (s : State) : Host.Outcome State Fault Refusal :=
  s.run (fun h => h.playPass e)

/-- STREAM (R263). -/
def execTtStream (e : Nat) (n : Nat) (s : State) : Host.Outcome State Fault Refusal :=
  s.run (fun h => h.ttIns e (.stream n) false)

/-- STREAM_RESUME (R264). -/
def execTtStreamResume (e : Nat) (s : State) : Host.Outcome State Fault Refusal :=
  s.run (fun h => h.streamRow e)

/-- DWELL (R225). -/
def execTtDwell (e : Nat) (n : Nat) (s : State) : Host.Outcome State Fault Refusal :=
  s.run (fun h => h.ttIns e (.dwell n) false)

/-- OPEN (R226). -/
def execTtOpen (e : Nat) (bmask : Nat) (s : State) : Host.Outcome State Fault Refusal :=
  s.run (fun h => h.ttIns e (.openB bmask) false)

/-- CLOSE (R226). -/
def execTtClose (e : Nat) (bmask : Nat) (s : State) : Host.Outcome State Fault Refusal :=
  s.run (fun h => h.ttIns e (.closeB bmask) false)

/-- MODE (R227). -/
def execTtMode (e : Nat) (mode : Nat) (law : Nat) (s : State) : Host.Outcome State Fault Refusal :=
  s.run (fun h => h.ttIns e (.mode mode law) false)

/-- RANGE (R228). -/
def execTtRange (e : Nat) (irng : Nat) (vrng : Nat) (aren : Nat) (seti : Nat) (setv : Nat) (setar : Nat) (wait : Nat) (s : State) : Host.Outcome State Fault Refusal :=
  s.run (fun h => h.ttIns e (.range irng vrng aren seti setv setar wait) false)

/-- JUNCTION (R255). -/
def execTtJunction (e : Nat) (kind : Nat) (stat : Nat) (op : Nat) (bin : Nat) (th : Nat) (neg : Nat) (slot : Nat) (flag : Nat) (disp : Nat) (predict : Bool) (s : State) : Host.Outcome State Fault Refusal :=
  s.run (fun h => h.ttIns e (.junction kind stat op bin th neg slot flag disp) predict)

/-- LOOP (R234). -/
def execTtLoop (e : Nat) (count : Nat) (s : State) : Host.Outcome State Fault Refusal :=
  s.run (fun h => h.ttIns e (.loop count) false)

/-- NEXT (R234). -/
def execTtNext (e : Nat) (s : State) : Host.Outcome State Fault Refusal :=
  s.run (fun h => h.ttIns e .next false)

/-- MARK (R266). -/
def execTtMark (e : Nat) (clr : Nat) (s : State) : Host.Outcome State Fault Refusal :=
  s.run (fun h => h.ttIns e (.mark clr) false)

/-- REWIND (R266). -/
def execTtRewind (e : Nat) (count : Nat) (s : State) : Host.Outcome State Fault Refusal :=
  s.run (fun h => h.ttIns e (.rewind count) false)

/-- CALL (R235). -/
def execTtCall (e : Nat) (a : Nat) (s : State) : Host.Outcome State Fault Refusal :=
  s.run (fun h => h.ttIns e (.call a) false)

/-- RET (R235). -/
def execTtRet (e : Nat) (s : State) : Host.Outcome State Fault Refusal :=
  s.run (fun h => h.ttIns e .ret false)

/-- WAITEV (R249). -/
def execTtWaitev (e : Nat) (slot : Nat) (timeout : Nat) (disp : Nat) (s : State) : Host.Outcome State Fault Refusal :=
  s.run (fun h => h.ttIns e (.waitev slot timeout disp) false)

/-- SIGNAL (R252). -/
def execTtSignal (e : Nat) (ev : Nat) (delay : Nat) (s : State) : Host.Outcome State Fault Refusal :=
  s.run (fun h => h.ttIns e (.signal ev delay) false)

/-- THERM (R236). -/
def execTtTherm (e : Nat) (sensor : Nat) (wait : Nat) (s : State) : Host.Outcome State Fault Refusal :=
  s.run (fun h => h.ttIns e (.therm sensor wait) false)

/-- CONNECT (R237). -/
def execTtConnect (e : Nat) (cl : Nat) (s : State) : Host.Outcome State Fault Refusal :=
  s.run (fun h => h.ttIns e (.connect cl) false)

/-- ISOLATE (R238). -/
def execTtIsolate (e : Nat) (s : State) : Host.Outcome State Fault Refusal :=
  s.run (fun h => h.ttIns e .isolate false)

/-- WAIT_CONDITION (R217). -/
def execTtWaitCondition (e : Nat) (s : State) : Host.Outcome State Fault Refusal :=
  s.run (fun h => h.waitRow e (fun h => h.waitCondition e))

/-- WAITEV_TIMEOUT (R249). -/
def execTtWaitevTimeout (e : Nat) (s : State) : Host.Outcome State Fault Refusal :=
  s.run (fun h => h.waitRow e (fun h => h.waitTimeout e))

/-- LINE_FILL_DONE (R212). -/
def execTtLineFillDone (e : Nat) (line : Nat) (data : Bool) (ue : Bool) (s : State) : Host.Outcome State Fault Refusal :=
  s.run (fun h => (h.lineFill e line data ue).settle)

end Sys2Proof.Machine
end

