-- ==== Sys2Proof/Machine/Dispatch.lean ====
section
/-! DEFINITION. The meaning of each command: one direct call per constructor. -/

namespace Sys2Proof.Machine

open Sys2Proof

/-- The effect of a command on everything but the queue of waiting commands. -/
def exec (i : Instr) (s : State) : Host.Outcome State Fault Refusal :=
  match i with
  | .registerWrite m stn addr size val => Sys2Proof.Machine.execRegisterWrite m stn addr size val s
  | .accessError m addr size => Sys2Proof.Machine.execAccessError m addr size s
  | .loopTick u n smp => Sys2Proof.Machine.execLoopTick u n smp s
  | .guardInstant u late stepLate => Sys2Proof.Machine.execGuardInstant u late stepLate s
  | .captureDone c => Sys2Proof.Machine.execCaptureDone c s
  | .lateFault u => Sys2Proof.Machine.execLateFault u s
  | .feFault u => Sys2Proof.Machine.execFeFault u s
  | .senseFault u => Sys2Proof.Machine.execSenseFault u s
  | .frozenFault u => Sys2Proof.Machine.execFrozenFault u s
  | .ceilFault u => Sys2Proof.Machine.execCeilFault u s
  | .faultClear m u => Sys2Proof.Machine.execFaultClear m u s
  | .metroSourceLost => Sys2Proof.Machine.execMetroSourceLost s
  | .metroSourceSwitch => Sys2Proof.Machine.execMetroSourceSwitch s
  | .metroSourceReturn => Sys2Proof.Machine.execMetroSourceReturn s
  | .refclkClassify cls => Sys2Proof.Machine.execRefclkClassify cls s
  | .predictionConfirm site => Sys2Proof.Machine.execPredictionConfirm site s
  | .predictionRefute site => Sys2Proof.Machine.execPredictionRefute site s
  | .tokenRequest res req => Sys2Proof.Machine.execTokenRequest res req s
  | .tokenRelease res who => Sys2Proof.Machine.execTokenRelease res who s
  | .dieFence d => Sys2Proof.Machine.execDieFence d s
  | .couple m u => Sys2Proof.Machine.execCouple m u s
  | .uncouple m u => Sys2Proof.Machine.execUncouple m u s
  | .coupleComplete u far follow => Sys2Proof.Machine.execCoupleComplete u far follow s
  | .outerTick u t => Sys2Proof.Machine.execOuterTick u t s
  | .followerSilence u idx => Sys2Proof.Machine.execFollowerSilence u idx s
  | .headSilence u => Sys2Proof.Machine.execHeadSilence u s
  | .snapLowestRead m stn addr ecc => Sys2Proof.Machine.execSnapLowestRead m stn addr ecc s
  | .snapHigherRead m stn addr => Sys2Proof.Machine.execSnapHigherRead m stn addr s
  | .snapSlotTimeout d who t => Sys2Proof.Machine.execSnapSlotTimeout d who t s
  | .refPush m u val => Sys2Proof.Machine.execRefPush m u val s
  | .refFlush m u => Sys2Proof.Machine.execRefFlush m u s
  | .drvOtTrip u => Sys2Proof.Machine.execDrvOtTrip u s
  | .drvOtRelease u => Sys2Proof.Machine.execDrvOtRelease u s
  | .powerOnResetAssert => Sys2Proof.Machine.execPowerOnResetAssert s
  | .powerOnResetRelease bootsel stnmode fl0 fl1 => Sys2Proof.Machine.execPowerOnResetRelease bootsel stnmode fl0 fl1 s
  | .pointsInit d rbs => Sys2Proof.Machine.execPointsInit d rbs s
  | .loopClose m u mode law => Sys2Proof.Machine.execLoopClose m u mode law s
  | .loopOpen m u mode law => Sys2Proof.Machine.execLoopOpen m u mode law s
  | .loopSwitch m u mode law => Sys2Proof.Machine.execLoopSwitch m u mode law s
  | .loopLoad m u mode law => Sys2Proof.Machine.execLoopLoad m u mode law s
  | .capArm m c => Sys2Proof.Machine.execCapArm m c s
  | .capStop m c => Sys2Proof.Machine.execCapStop m c s
  | .capForce m c => Sys2Proof.Machine.execCapForce m c s
  | .measOutput u path x lv ovr => Sys2Proof.Machine.execMeasOutput u path x lv ovr s
  | .c32Read m g path => Sys2Proof.Machine.execC32Read m g path s
  | .auxConversionDone d who q fwd t => Sys2Proof.Machine.execAuxConversionDone d who q fwd t s
  | .pointsLatch d t => Sys2Proof.Machine.execPointsLatch d t s
  | .pointsReadback d t rb => Sys2Proof.Machine.execPointsReadback d t rb s
  | .autorangeDown u => Sys2Proof.Machine.execAutorangeDown u s
  | .armingExpire u => Sys2Proof.Machine.execArmingExpire u s
  | .changeDesignate u n => Sys2Proof.Machine.execChangeDesignate u n s
  | .changeRetarget u n => Sys2Proof.Machine.execChangeRetarget u n s
  | .changeBreak u n => Sys2Proof.Machine.execChangeBreak u n s
  | .changeReturn u n => Sys2Proof.Machine.execChangeReturn u n s
  | .rangeSelWrite m u val => Sys2Proof.Machine.execRangeSelWrite m u val s
  | .ttBind m e unit valid => Sys2Proof.Machine.execTtBind m e unit valid s
  | .ttStart m e => Sys2Proof.Machine.execTtStart m e s
  | .ttStop m e => Sys2Proof.Machine.execTtStop m e s
  | .ttReset m e => Sys2Proof.Machine.execTtReset m e s
  | .ttStep e => Sys2Proof.Machine.execTtStep e s
  | .ttHalt e => Sys2Proof.Machine.execTtHalt e s
  | .ttSet e ovr rsh rate value => Sys2Proof.Machine.execTtSet e ovr rsh rate value s
  | .ttSweep e a => Sys2Proof.Machine.execTtSweep e a s
  | .ttSweepPoint e => Sys2Proof.Machine.execTtSweepPoint e s
  | .ttList e count a => Sys2Proof.Machine.execTtList e count a s
  | .ttListEntry e => Sys2Proof.Machine.execTtListEntry e s
  | .ttPlay e rep a => Sys2Proof.Machine.execTtPlay e rep a s
  | .ttPlayPass e => Sys2Proof.Machine.execTtPlayPass e s
  | .ttStream e n => Sys2Proof.Machine.execTtStream e n s
  | .ttStreamResume e => Sys2Proof.Machine.execTtStreamResume e s
  | .ttDwell e n => Sys2Proof.Machine.execTtDwell e n s
  | .ttOpen e bmask => Sys2Proof.Machine.execTtOpen e bmask s
  | .ttClose e bmask => Sys2Proof.Machine.execTtClose e bmask s
  | .ttMode e mode law => Sys2Proof.Machine.execTtMode e mode law s
  | .ttRange e irng vrng aren seti setv setar wait => Sys2Proof.Machine.execTtRange e irng vrng aren seti setv setar wait s
  | .ttJunction e kind stat op bin th neg slot flag disp predict => Sys2Proof.Machine.execTtJunction e kind stat op bin th neg slot flag disp predict s
  | .ttLoop e count => Sys2Proof.Machine.execTtLoop e count s
  | .ttNext e => Sys2Proof.Machine.execTtNext e s
  | .ttMark e clr => Sys2Proof.Machine.execTtMark e clr s
  | .ttRewind e count => Sys2Proof.Machine.execTtRewind e count s
  | .ttCall e a => Sys2Proof.Machine.execTtCall e a s
  | .ttRet e => Sys2Proof.Machine.execTtRet e s
  | .ttWaitev e slot timeout disp => Sys2Proof.Machine.execTtWaitev e slot timeout disp s
  | .ttSignal e ev delay => Sys2Proof.Machine.execTtSignal e ev delay s
  | .ttTherm e sensor wait => Sys2Proof.Machine.execTtTherm e sensor wait s
  | .ttConnect e cl => Sys2Proof.Machine.execTtConnect e cl s
  | .ttIsolate e => Sys2Proof.Machine.execTtIsolate e s
  | .ttWaitCondition e => Sys2Proof.Machine.execTtWaitCondition e s
  | .ttWaitevTimeout e => Sys2Proof.Machine.execTtWaitevTimeout e s
  | .ttLineFillDone e line data ue => Sys2Proof.Machine.execTtLineFillDone e line data ue s
  | .evRaise m ev nowF => Sys2Proof.Machine.execEvRaise m ev nowF s
  | .eventSchedule ev due t => Sys2Proof.Machine.execEventSchedule ev due t s
  | .eventAct ev due => Sys2Proof.Machine.execEventAct ev due s
  | .trigEdgeQualify k level q => Sys2Proof.Machine.execTrigEdgeQualify k level q s
  | .trigPulseEnd k t => Sys2Proof.Machine.execTrigPulseEnd k t s
  | .trigDirWrite m k val => Sys2Proof.Machine.execTrigDirWrite m k val s
  | .watchEventSeen e k => Sys2Proof.Machine.execWatchEventSeen e k s
  | .jumpRequest m e brk => Sys2Proof.Machine.execJumpRequest m e brk s
  | .jumpTargetWrite m e val => Sys2Proof.Machine.execJumpTargetWrite m e val s
  | .jumpTake e => Sys2Proof.Machine.execJumpTake e s
  | .srWpWrite m e val => Sys2Proof.Machine.execSrWpWrite m e val s
  | .recordPlace d => Sys2Proof.Machine.execRecordPlace d s
  | .spillMove q => Sys2Proof.Machine.execSpillMove q s
  | .queueEnable m q val => Sys2Proof.Machine.execQueueEnable m q val s
  | .queueDisable m q val => Sys2Proof.Machine.execQueueDisable m q val s
  | .headCopy m q ecc => Sys2Proof.Machine.execHeadCopy m q ecc s
  | .headPop m q => Sys2Proof.Machine.execHeadPop m q s
  | .dropRest m q => Sys2Proof.Machine.execDropRest m q s
  | .queueFlush m q => Sys2Proof.Machine.execQueueFlush m q s
  | .queueRelease m q val => Sys2Proof.Machine.execQueueRelease m q val s
  | .scrubPass c ecc => Sys2Proof.Machine.execScrubPass c ecc s
  | .ddrTrain m c => Sys2Proof.Machine.execDdrTrain m c s
  | .ddrTrainDone c ok => Sys2Proof.Machine.execDdrTrainDone c ok s
  | .calVisit m d ch => Sys2Proof.Machine.execCalVisit m d ch s
  | .rotaVisit d t => Sys2Proof.Machine.execRotaVisit d t s
  | .sidingTokenTimeout d sd t => Sys2Proof.Machine.execSidingTokenTimeout d sd t s
  | .takeoverStart d sd => Sys2Proof.Machine.execTakeoverStart d sd s
  | .handover d sd n own other => Sys2Proof.Machine.execHandover d sd n own other s
  | .takeoverTimeout d sd t => Sys2Proof.Machine.execTakeoverTimeout d sd t s
  | .calStep d sd outs ovl => Sys2Proof.Machine.execCalStep d sd outs ovl s
  | .sidingReturn d sd n own other => Sys2Proof.Machine.execSidingReturn d sd n own other s
  | .returnTimeout d sd t => Sys2Proof.Machine.execReturnTimeout d sd t s
  | .calStandin m d ch sd force => Sys2Proof.Machine.execCalStandin m d ch sd force s
  | .calReturn m d ch => Sys2Proof.Machine.execCalReturn m d ch s
  | .calExtStdv m d => Sys2Proof.Machine.execCalExtStdv m d s
  | .calExtRange m d point => Sys2Proof.Machine.execCalExtRange m d point s
  | .calFactoryStore m d => Sys2Proof.Machine.execCalFactoryStore m d s
  | .calStore m d => Sys2Proof.Machine.execCalStore m d s
  | .storeDue d t => Sys2Proof.Machine.execStoreDue d t s
  | .nvmPageDone d ok => Sys2Proof.Machine.execNvmPageDone d ok s
  | .ilkOpening t i0 i1 both => Sys2Proof.Machine.execIlkOpening t i0 i1 both s
  | .ilkClosing t => Sys2Proof.Machine.execIlkClosing t s
  | .ilkDiscrepancy t i0 => Sys2Proof.Machine.execIlkDiscrepancy t i0 s
  | .keyPress k t => Sys2Proof.Machine.execKeyPress k t s
  | .keyRelease k t => Sys2Proof.Machine.execKeyRelease k t s
  | .abortPress t => Sys2Proof.Machine.execAbortPress t s
  | .abortRelease t => Sys2Proof.Machine.execAbortRelease t s
  | .fixAbsent k t => Sys2Proof.Machine.execFixAbsent k t s
  | .fixPresent k t => Sys2Proof.Machine.execFixPresent k t s
  | .fixmaskWrite m u val => Sys2Proof.Machine.execFixmaskWrite m u val s
  | .connConnect m u => Sys2Proof.Machine.execConnConnect m u s
  | .connIsolate m u => Sys2Proof.Machine.execConnIsolate m u s
  | .checkLatchRequest u n => Sys2Proof.Machine.execCheckLatchRequest u n s
  | .checkSettled u n => Sys2Proof.Machine.execCheckSettled u n s
  | .checkResult u => Sys2Proof.Machine.execCheckResult u s
  | .unitSafing u n => Sys2Proof.Machine.execUnitSafing u n s
  | .isolationRequest u => Sys2Proof.Machine.execIsolationRequest u s
  | .isolationComplete u n => Sys2Proof.Machine.execIsolationComplete u n s
  | .isoBackstop d t => Sys2Proof.Machine.execIsoBackstop d t s
  | .ceilCommit m d gen => Sys2Proof.Machine.execCeilCommit m d gen s
  | .thermPass d t => Sys2Proof.Machine.execThermPass d t s
  | .thermEmergency d t => Sys2Proof.Machine.execThermEmergency d t s
  | .thConvert m d sensor => Sys2Proof.Machine.execThConvert m d sensor s
  | .compUpdate d => Sys2Proof.Machine.execCompUpdate d s
  | .oscCompApply t => Sys2Proof.Machine.execOscCompApply t s
  | .censusTimeout d t => Sys2Proof.Machine.execCensusTimeout d t s
  | .imageReadDone err ecc => Sys2Proof.Machine.execImageReadDone err ecc s
  | .leaveBooting => Sys2Proof.Machine.execLeaveBooting s
  | .imgLoadMemory m => Sys2Proof.Machine.execImgLoadMemory m s
  | .imgLoadFlashA m => Sys2Proof.Machine.execImgLoadFlashA m s
  | .imgLoadFlashB m => Sys2Proof.Machine.execImgLoadFlashB m s
  | .attest m signer => Sys2Proof.Machine.execAttest m signer s
  | .attestDone => Sys2Proof.Machine.execAttestDone s
  | .bindWrite m val => Sys2Proof.Machine.execBindWrite m val s
  | .reliefWrite m val => Sys2Proof.Machine.execReliefWrite m val s
  | .keyProgram m slot => Sys2Proof.Machine.execKeyProgram m slot s
  | .keyRevoke m slot => Sys2Proof.Machine.execKeyRevoke m slot s
  | .xspiRead m head => Sys2Proof.Machine.execXspiRead m head s
  | .xspiProgram m head => Sys2Proof.Machine.execXspiProgram m head s
  | .xspiErase m head => Sys2Proof.Machine.execXspiErase m head s
  | .xspiDone ok => Sys2Proof.Machine.execXspiDone ok s
  | .audNote m val => Sys2Proof.Machine.execAudNote m val s
  | .auditWrite => Sys2Proof.Machine.execAuditWrite s
  | .portModeWrite m p mode => Sys2Proof.Machine.execPortModeWrite m p mode s
  | .portUp p => Sys2Proof.Machine.execPortUp p s
  | .portDown p t lock => Sys2Proof.Machine.execPortDown p t lock s
  | .linkWord p lane credits ack t => Sys2Proof.Machine.execLinkWord p lane credits ack t s
  | .linkWordSend p lane t => Sys2Proof.Machine.execLinkWordSend p lane t s
  | .goBackResend p lane t => Sys2Proof.Machine.execGoBackResend p lane t s
  | .sync p f crc r => Sys2Proof.Machine.execSync p f crc r s
  | .syncSend t => Sys2Proof.Machine.execSyncSend t s
  | .delayExchange p t => Sys2Proof.Machine.execDelayExchange p t s
  | .delayReq p f crc r => Sys2Proof.Machine.execDelayReq p f crc r s
  | .delayRsp p f crc r => Sys2Proof.Machine.execDelayRsp p f crc r s
  | .timeStep t => Sys2Proof.Machine.execTimeStep t s
  | .lineLocked => Sys2Proof.Machine.execLineLocked s
  | .lineTimeLost t => Sys2Proof.Machine.execLineTimeLost t s
  | .masterTakeover t => Sys2Proof.Machine.execMasterTakeover t s
  | .event p f crc t => Sys2Proof.Machine.execEvent p f crc t s
  | .outer p f crc t head => Sys2Proof.Machine.execOuter p f crc t head s
  | .report p r crc t => Sys2Proof.Machine.execReport p r crc t s
  | .rdReq p f crc t ecc => Sys2Proof.Machine.execRdReq p f crc t ecc s
  | .rdRsp p f crc t => Sys2Proof.Machine.execRdRsp p f crc t s
  | .wrReq p f crc t => Sys2Proof.Machine.execWrReq p f crc t s
  | .wrRsp p f crc t => Sys2Proof.Machine.execWrRsp p f crc t s
  | .accessTimeout tag t => Sys2Proof.Machine.execAccessTimeout tag t s
  | .notice p f crc t => Sys2Proof.Machine.execNotice p f crc t s
  | .announce p f crc t => Sys2Proof.Machine.execAnnounce p f crc t s
  | .announceSend t => Sys2Proof.Machine.execAnnounceSend t s
  | .assign p f crc t => Sys2Proof.Machine.execAssign p f crc t s
  | .hello p f crc t => Sys2Proof.Machine.execHello p f crc t s
  | .helloSend t => Sys2Proof.Machine.execHelloSend t s
  | .helloTimeout stn t => Sys2Proof.Machine.execHelloTimeout stn t s
  | .lost p f crc t => Sys2Proof.Machine.execLost p f crc t s
  | .ethOpen p sess src seq note t => Sys2Proof.Machine.execEthOpen p sess src seq note t s
  | .ethClose p sess src seq t => Sys2Proof.Machine.execEthClose p sess src seq t s
  | .ethRead p sess src seq addr count t ecc => Sys2Proof.Machine.execEthRead p sess src seq addr count t ecc s
  | .ethWrite p sess src seq addr data t => Sys2Proof.Machine.execEthWrite p sess src seq addr data t s
  | .ethSessionIdle p sess t => Sys2Proof.Machine.execEthSessionIdle p sess t s
  | .arpRequest p target ip mac t => Sys2Proof.Machine.execArpRequest p target ip mac t s
  | .icmpEcho p target => Sys2Proof.Machine.execIcmpEcho p target s
  | .ptpMessage p t ofs ns lock => Sys2Proof.Machine.execPtpMessage p t ofs ns lock s
  | .spiRead start ecc => Sys2Proof.Machine.execSpiRead start ecc s
  | .spiWrite start val => Sys2Proof.Machine.execSpiWrite start val s
  | .spiCsRise => Sys2Proof.Machine.execSpiCsRise s
  | .builtInSelfTestDone d fail => Sys2Proof.Machine.execBuiltInSelfTestDone d fail s
  | .muslinExtensionMove c => Sys2Proof.Machine.execMuslinExtensionMove c s
  | .frameBoundary p t phase => Sys2Proof.Machine.execFrameBoundary p t phase s

end Sys2Proof.Machine
end

