-- ==== Sys2Proof/Machine/Step.lean ====
section
/-! DEFINITION. One step: the command at the front of the queue takes effect; with no command waiting, a metronome tick passes. -/

namespace Sys2Proof.Machine

/-- The state after a metronome tick in which no command comes (R25, R402; notes/assumptions/5.md): the Line tick count advances,
modulo 2^64. While power-on reset is asserted nothing counts. -/
def State.idle (s : State) : State :=
  if s.hw.cold then s else { s with hw := { s.hw with now := (s.hw.now + 1) % 2 ^ 64 } }

/-- The step of the block. -/
def step (s : State) : Host.Outcome State Fault Refusal :=
  match s.pending with
  | [] => .next s.idle
  | c :: r => exec c { s with pending := r }

/-- The state with the command that a table word spells put in front of its queue; no word of this table spells one. -/
def State.withFetchWord (s : State) (nbits w : Nat) : State :=
  match Sys2Proof.decodeTableWord nbits w with
  | some c => { s with pending := c :: s.pending }
  | none => s

end Sys2Proof.Machine
end

