-- ==== Sys2Proof/Safety.lean ====
section
/-! DEFINITION. The terms in which claims about the block are stated: a station out of power-on reset, a master whose access is served, a
command whose effect is an operation on the hardware, and the invariant that every step keeps. -/

namespace Sys2Proof.Machine

/-- Power-on reset is not asserted (R69, R421). -/
abbrev State.on (s : State) : Prop := s.hw.cold = false

/-- The station is out of reset and serves the master (R39, R358). -/
abbrev State.hears (s : State) (m : Master) : Prop := s.hw.cold = false ∧ s.hw.servesMaster m = true

/-- The command ends with the hardware `h`, its bytes entered in memory; the commands that wait stand. -/
def State.to (s : State) (h : Hw) : Host.Outcome State Fault Refusal := .next (s.commit h)

/-- A master's write ends with the hardware `h`: its transport answers OK (R388), and requests that waited for what the write released go
on. -/
def State.wrote (s : State) (m : Master) (h : Hw) : Host.Outcome State Fault Refusal := s.to ((h.answer m 0 []).settle)

/-- A master's read ends with the hardware `h` and the word `v`. -/
def State.gave (s : State) (m : Master) (v : Nat) (h : Hw) : Host.Outcome State Fault Refusal := s.to ((h.answer m 0 [v]).settle)

/-- What holds between commands in every state: memory is in its canonical form, and no command is half done. -/
abbrev State.sound (s : State) : Prop := memWf s.hw.mem = true ∧ s.hw.wrq = [] ∧ s.hw.ecc = []

/-- No request of a master waits, and start-up is not about to reach a step: a command that ends does what it says and nothing more. -/
abbrev State.quiet (s : State) : Prop :=
  s.hw.jobs = [] ∧ s.hw.memQ = [] ∧ (∀ d, d < 8 → (s.hw.die d).snapWait = []) ∧ s.hw.boot.remote = false ∧ s.hw.get STN_BOOT_STEP 0 ≠ 9

/-- The fields of a unit in which a host's command to the unit shows itself: the reference queue's, the loop command's, the fault clear's,
the connection command's and the flag of a write to a member (R50, R77 to R79, R125, R143, R327). -/
def unitCommandFields : List Fld :=
  [U_REF_STAT_HOST_IGN, U_REF_STAT_FULL, U_REF_DROP_COUNT, U_REF_CMD_FLUSH, U_LOOP_CMD_CMD, U_LOOP_CMD_NEW_MODE, U_LOOP_CMD_NEW_LAW,
   U_LOOP_CMD_BUSY, U_LOOP_CMD_RESULT, U_FAULT_CLR_CLR, U_FAULT_CLR_RESULT, U_CONN_CMD_CMD, U_CONN_CMD_BUSY, U_CONN_CMD_RESULT,
   U_FLAGS_COUPLED_WR]

/-- A host's command to a unit that waits for the unit's tick (R77, R79, R123 to R128, R143, R325, R327, R332). -/
def unitCommand (m : Master) (u : Nat) : Instr → Bool
  | .refPush n w _ => n == m && w == u
  | .refFlush n w => n == m && w == u
  | .faultClear n w => n == m && w == u
  | .loopClose n w _ _ => n == m && w == u
  | .loopOpen n w _ _ => n == m && w == u
  | .loopSwitch n w _ _ => n == m && w == u
  | .loopLoad n w _ _ => n == m && w == u
  | .connConnect n w => n == m && w == u
  | .connIsolate n w => n == m && w == u
  | .fixmaskWrite n w _ => n == m && w == u
  | _ => false

/-- A command of the station's pins, clock and timers that stores nothing. -/
def storesNothing : Instr → Bool
  | .metroSourceLost => true
  | .metroSourceSwitch => true
  | .metroSourceReturn => true
  | .refclkClassify _ => true
  | .drvOtTrip _ => true
  | .drvOtRelease _ => true
  | .captureDone _ => true
  | .eventAct _ _ => true
  | .trigPulseEnd _ _ => true
  | .ilkDiscrepancy _ _ => true
  | .keyRelease _ _ => true
  | .abortRelease _ => true
  | .fixPresent _ _ => true
  | .ethSessionIdle _ _ _ => true
  | .spiCsRise => true
  | .oscCompApply _ => true
  | _ => false

/-- An engine's next instruction is `i`, and the step may take it (R216, R217): the engine prepares a step, the word at its program counter
decodes to `i` with no line missing, and fewer than 64 instructions have run in the step. -/
abbrev Hw.meetsIns (h : Hw) (e : Nat) (i : TIns) : Prop :=
  h.stepping e = true ∧ (h.stepBegin e).fetchIns e = (none, 0, i) ∧ ((h.stepBegin e).eng e).acc.count < 64

/-- The engine with the instruction counted in its step. -/
def Hw.counted (h : Hw) (e : Nat) : Hw := (h.stepBegin e).modAcc e (fun a => { a with count := a.count + 1 })

/-- What follows an instruction: a step that has ended is staged (R217, R219). -/
def Hw.staged (h : Hw) (e : Nat) : Hw := h.stepStage e

end Sys2Proof.Machine
end

