-- ==== Sys2Proof/Certificates/Slice0/Obligations.lean ====
section
/-! DEFINITION. The statements about the block, one Prop each. -/

open Sys2Proof Sys2Proof.Machine

/-! ### The block as a whole -/

/-- A step runs the command in front of the queue with the queue's rest. -/
def Obligations.StepRunsTheFrontCommand : Prop :=
  ∀ (c : Instr) (r : List Instr) (s : State), s.pending = c :: r → step s = exec c { s with pending := r }

/-- With no command waiting one metronome tick passes, modulo 2^64, and nothing else changes (the model's choice, log entry 5); while
power-on reset is asserted nothing counts. -/
def Obligations.IdleStepCountsOneTick : Prop :=
  ∀ s : State, s.pending = [] →
    (s.on → step s = .next { s with hw := { s.hw with now := (s.hw.now + 1) % 2 ^ 64 } }) ∧
    (s.hw.cold = true → step s = .next s)

/-- Every command, in every state, is answered with a next state, and the commands that wait stand. -/
def Obligations.EveryCommandAnswersANextState : Prop :=
  ∀ (c : Instr) (s : State), ∃ t, exec c s = .next t ∧ t.pending = s.pending

/-- Every step keeps memory in its canonical form and leaves no command half done. -/
def Obligations.EveryStepKeepsSound : Prop :=
  ∀ s t : State, s.sound → step s = .next t → t.sound

/-- The state right after reset is sound. -/
def Obligations.ResetIsSound : Prop :=
  State.reset.sound

/-- While power-on reset is asserted no command acts, but for the release of reset (R69, R421). -/
def Obligations.NothingActsUnderReset : Prop :=
  ∀ (c : Instr) (s : State), s.hw.cold = true → (∀ b n f g, c ≠ .powerOnResetRelease b n f g) → exec c s = .next s

/-- Power-on reset asserts from any state out of reset (R421, R69): every die's ISO_N is asserted with it (R97) and a page that a store is
writing in NVM is cut (R316); where no store writes NVM, no other register, no unit, no engine, no byte of memory and nothing of what NVM
holds changes at that instant. The release of reset from COLD ends it, with the count 0, the straps shown, what NVM holds kept (a burn cut
at its instant as the cut left it, R378), every unit and engine in its reset state, every byte of memory under the flash gone and, with
BOOTSEL low, step 2 of start-up shown (R98, R356, R357, R421). -/
def Obligations.ResetAssertsAndReleases : Prop :=
  (∀ s : State, s.on →
    let g := s.hw.each (List.range 8) Hw.isoAssert
    let h := g.each (List.range 8) Hw.nvCut
    exec .powerOnResetAssert s = s.to { h with cold := true } ∧ (∀ d, d < 8 → g.flag ILK_STAT_ISO_REL d = false) ∧
    ((∀ d, d < 8 → (s.hw.arb (.nvm d)).hold.any (fun r => r.who == 2) = false) →
      h = g ∧ h.mem = s.hw.mem ∧ h.units = s.hw.units ∧ h.engs = s.hw.engs ∧ h.nv = s.hw.nv ∧
      (∀ (f : Fld) (i k : Nat), (∀ d, f.key i k ≠ ILK_STAT_ISO_REL.key d 0) → h.get f i k = s.hw.get f i k))) ∧
  (∀ (s : State) (b n : Bool) (f g : Nat), s.hw.cold = true →
    exec (.powerOnResetRelease b n f g) s = .next { s with hw := s.hw.powerUp b n f g } ∧
    (s.hw.powerUp b n f g).cold = false ∧ (s.hw.powerUp b n f g).now = 0 ∧
    (s.hw.powerUp b n f g).nv = s.hw.burnCut.nv ∧ (s.hw.burn = none → s.hw.burnCut.nv = s.hw.nv) ∧
    (b = false → (s.hw.powerUp b n f g).get STN_BOOT_STEP 0 = 2) ∧ (s.hw.powerUp b n f g).units = [] ∧ (s.hw.powerUp b n f g).engs = [] ∧
    (s.hw.powerUp b n f g).mem = s.hw.mem.filter (fun p => decide (2 ^ 40 ≤ p.1)) ∧
    (s.hw.powerUp b n f g).flag STN_BOOT_BOOTSEL 0 = b ∧ (s.hw.powerUp b n f g).flag STN_BOOT_STNMODE 0 = n)

/-- Some values that the register tables give for reset, in the state right after reset: the count is 0 and no command waits; every unit
is ISOLATED with its loop open, decimations 1,228,800 and 3 and no fault; every engine is IDLE, unbound, at address 0; every queue is off;
no event is late, the Line is not locked and the source has not switched. -/
def Obligations.ResetHoldsTheTableValues : Prop :=
  let h := State.reset.hw
  h.cold = false ∧ h.now = 0 ∧ State.reset.pending = [] ∧
  (∀ u, h.st u = stISOLATED ∧ h.flag U_STATE_LOOP u = false ∧ h.get U_MDEC_D u 0 = 1228800 ∧ h.get U_MDEC_N u 0 = 3 ∧
    h.get U_REF_STAT_FULL u = 0 ∧ h.get U_FAULT_FIRST u = 0 ∧ h.get U_FAULT_MAP_MAP u = 0) ∧
  (∀ e, h.get TT_STAT_STATE e = 0 ∧ h.flag TT_BIND_VALID e = false ∧ h.get TT_PC_ADDR e = 0) ∧
  (∀ q, h.get Q_CFG_EN q = 0 ∧ h.get Q_STAT_BADCFG q = 0) ∧
  h.get STN_EV_LATE_COUNT 0 = 0 ∧ h.flag TW_LINE_STAT_LOCKED 0 = false ∧ h.flag STN_METRO_STAT_SWITCHED 0 = false

/-! ### Memory and register words -/

/-- A store of n bytes writes the value's bytes little-endian from its address, and every other byte reads as before (R8). A little-endian
load reads back what a store of the same width at the same address wrote, modulo the width (R8). Between commands a byte of memory reads
as the last command left it: the byte it wrote there, or the byte before. -/
def Obligations.MemoryReadsBackWhatIsStored : Prop :=
  (∀ (h : Hw) (a v n : Nat),
    (∀ i, i < n → (h.wrLE a v n).byte (a + i) = BitVec.ofNat 8 (v / 256 ^ i)) ∧
    (∀ j, j < a ∨ a + n ≤ j → (h.wrLE a v n).byte j = h.byte j) ∧
    (h.wrLE a v n).regs = h.regs ∧ (h.wrLE a v n).mem = h.mem) ∧
  (∀ (h : Hw) (a v n : Nat), (h.wrLE a v n).rdLE a n = v % 256 ^ n) ∧
  (∀ (s : State) (h : Hw) (a : Nat), s.sound →
    (s.commit h).hw.byte a = (wrqFind h.wrq a).getD (s.hw.byte a) ∧ memWf (s.commit h).hw.mem = true)

/-- A field that is set reads as the value cut to the field's width, and a field of another place reads as before (R10). -/
def Obligations.FieldsHoldWhatIsSet : Prop :=
  ∀ (h : Hw) (f g : Fld) (i j v k l : Nat),
    (h.put f i v k).get f i k = v % 2 ^ f.width ∧
    (g.key j l ≠ f.key i k → (h.put f i v k).get g j l = h.get g j l) ∧
    (h.put f i v k).mem = h.mem ∧ (h.put f i v k).units = h.units ∧ (h.put f i v k).dies = h.dies

/-- A write of 1s to a W1C field clears the bits written and no other (R11). A write to a plain field replaces the bits of the field that
lie in the word and keeps the field's other bits (R8, R10). -/
def Obligations.RegisterWritesActBitByBit : Prop :=
  (∀ (x : Hit) (old val : Nat) (k : Nat),
    bit (x.clear old val) k = (bit old k && !(decide (x.from_ ≤ k) && decide (k < x.from_ + x.n) && bit val (x.at_ + (k - x.from_))))) ∧
  (∀ (x : Hit) (old val : Nat) (k : Nat),
    bit (x.merge old val) k =
      if x.from_ ≤ k ∧ k < x.from_ + x.n then bit val (x.at_ + (k - x.from_)) else bit old k)

/-! ### Accesses of masters -/

/-- The register region takes only aligned 32-bit accesses: any other is answered with an access error and has no effect, by ACCESS_ERROR
or as a write. Memory apertures take accesses of any size and alignment (R9). -/
def Obligations.RegisterRegionTakesAlignedWords : Prop :=
  (∀ (s : State) (m : Master) (a n v : Nat), s.hears m → a < 0x1000000 → ¬ (n = 4 ∧ a % 4 = 0) →
    exec (.accessError m a n) s = s.to (s.hw.answer m 1 []) ∧
    exec (.registerWrite m none a n v) s = s.to ((s.hw.answer m 1 []).settle)) ∧
  (∀ (h : Hw) (d k o n : Nat), h.dieUp d = true → 1 ≤ k → k ≤ 6 → o + n ≤ sramSize k → o < 0x100000 →
    h.place (k * 0x100000000 + d * 0x100000 + o) n = .mem) ∧
  (∀ (h : Hw) (c o n : Nat), c < 2 → o < 0x1000000000 → o + n ≤ h.ddrCap c → h.place (0x1000000000 * (c + 1) + o) n = .mem)

/-- A write by a master goes where its address leads (R9, R58 to R60): to the word of a register, to memory, or nowhere in a hole; DDR5 is
reached under the Twill path's token, for which a write waits that does not get it (R18, R35); an access outside every mapped range is an
access error without effect. A write for another station is sent to it (R61), but not by the SPI target port. -/
def Obligations.WritesGoWhereTheAddressLeads : Prop :=
  ∀ (s : State) (m : Master) (stn : Option Nat) (a n v : Nat), s.hears m →
    (∀ b i o, s.hw.isOwn stn = true → s.hw.place a n = .reg b i o → exec (.registerWrite m stn a n v) s = s.wrote m (s.hw.regWrite m b i o v)) ∧
    (s.hw.isOwn stn = true → s.hw.place a n = .mem → ddrChan a = none →
      exec (.registerWrite m stn a n v) s = s.wrote m ((s.hw.srcTouch a n).memStore a n v)) ∧
    (∀ c, s.hw.isOwn stn = true → s.hw.place a n = .mem → ddrChan a = some c →
      let r : Res := .twill (s.hw.twDie m) c
      let g := (s.hw.srcTouch a n).twAsk r (twHost m) 6
      (g.holds r (twHost m) = true → exec (.registerWrite m stn a n v) s = s.wrote m ((g.memStore a n v).tokRel r (twHost m))) ∧
      (g.holds r (twHost m) = false → exec (.registerWrite m stn a n v) s =
        s.to ({ g with memQ := g.memQ ++ [{ m := m, addr := a, n := n, val := some v, ecc := g.ecc }] } : Hw).settle)) ∧
    (s.hw.isOwn stn = true → s.hw.place a n = .hole → exec (.registerWrite m stn a n v) s = s.wrote m s.hw) ∧
    (s.hw.isOwn stn = true → s.hw.place a n = .bad →
      exec (.registerWrite m stn a n v) s = s.to ((s.hw.answer m 1 []).settle) ∧ exec (.accessError m a n) s = s.to (s.hw.answer m 1 [])) ∧
    (∀ k, s.hw.isOwn stn = false → stn = some k → m ≠ .spi → exec (.registerWrite m stn a n v) s =
      s.to (s.hw.reqSend { m := m, tag := 0, write := true, at_ := s.hw.now, stn := k, addr := a % 2 ^ 40, data := bytesOf n v }))

/-- A read of a snapshot object's lowest word copies the object into the slot that the master holds (R62, R63); the copy of a log ring's
head is made under the Twill path's token, for which it waits where it does not get it (R35, R276). A higher word comes from that copy;
the highest one releases the slot (R64). A slot is released 20 µs after its last access or 50 µs after its grant (R64). A read of a C32
data register returns the value and clears the path's NEW, by any master (R176). -/
def Obligations.ReadsHaveTheirEffects : Prop :=
  (∀ (s : State) (m : Master) (a i lo off n : Nat) (b : Blk) (ecc : List (Nat × Bool)) (sl : SlotS), s.hears m →
    s.hw.place a 4 = .reg b i off → snapObj b off = some (lo, n) →
    let g := s.hw.readCheck b i
    let k := (s.hw.meets ecc).readCheck b i
    let d := g.snapDie b i
    let w : SnapWait := { m := m, blk := b, inst := i, off := lo }
    (off = lo → (k.slotOf (k.snapDie b i) (masterNo m)).isSome = true →
      (k.headTok b i lo = none → exec (.snapLowestRead m none a ecc) s =
        s.gave m (k.snapFill (k.snapDie b i) (masterNo m) b i lo n).1 (k.snapFill (k.snapDie b i) (masterNo m) b i lo n).2) ∧
      (∀ r, k.headTok b i lo = some r →
        let q := k.twAsk r (twHost m) 6
        (q.holds r (twHost m) = true → exec (.snapLowestRead m none a ecc) s =
          s.gave m (q.snapFill (k.snapDie b i) (masterNo m) b i lo n).1
            ((q.snapFill (k.snapDie b i) (masterNo m) b i lo n).2.tokRel r (twHost m))) ∧
        (q.holds r (twHost m) = false → exec (.snapLowestRead m none a ecc) s =
          s.to (q.modD (k.snapDie b i) (fun x => { x with snapWait := x.snapWait ++ [w] })).settle))) ∧
    (off ≠ lo → g.slotOf d (masterNo m) = some sl → sl.blk = b → sl.inst = i → sl.off = lo → (off - lo) / 4 ≠ sl.top →
      exec (.snapHigherRead m none a) s = s.gave m (sl.words.getD ((off - lo) / 4) 0)
        (g.modD d (fun x => { x with slots := x.slots.map (fun t => if t.who = masterNo m then { t with last := g.now } else t) }))) ∧
    (off ≠ lo → g.slotOf d (masterNo m) = some sl → sl.blk = b → sl.inst = i → sl.off = lo → sl.head = none → (off - lo) / 4 = sl.top →
      exec (.snapHigherRead m none a) s = s.gave m (sl.words.getD ((off - lo) / 4) 0) (g.slotRelease d (masterNo m))) ∧
    (∀ t c, s.hw.slotOf c (masterNo m) = some sl → s.hw.now ≤ t → (sl.last + 4916 ≤ t ∨ sl.granted + 12288 ≤ t) →
      exec (.snapSlotTimeout c (masterNo m) t) s = s.to (({ s.hw with now := t }).slotRelease c (masterNo m)).settle)) ∧
  (∀ (s : State) (m : Master) (g : Nat), s.hears m → s.hw.dieUp (g / 32) = true →
    exec (.c32Read m g 0) s = s.to ((s.hw.put U_C32_STAT_NEW_VS g 0).answer m 0 [s.hw.get U_C32_DATA_DATA g 0]) ∧
    exec (.c32Read m g 1) s = s.to ((s.hw.put U_C32_STAT_NEW_IS g 0).answer m 0 [s.hw.get U_C32_DATA_DATA g 1]) ∧
    exec (.c32Read m g 2) s = s.to ((s.hw.put U_C32_STAT_NEW_SH g 0).answer m 0 [s.hw.get U_C32_DATA_DATA g 2]))

/-- A higher-word read by a master that holds no slot with the object reads 0 with an access error, and DIE_SNAP_MISS increments (R65).
Writes to registers' words never reach a slot. -/
def Obligations.HigherReadWithoutSlotMisses : Prop :=
  (∀ (s : State) (m : Master) (a i lo off n : Nat) (b : Blk), s.hears m → s.hw.place a 4 = .reg b i off → snapObj b off = some (lo, n) →
    let g := s.hw.readCheck b i
    off ≠ lo → (∀ sl, g.slotOf (g.snapDie b i) (masterNo m) = some sl → ¬ (sl.blk = b ∧ sl.inst = i ∧ sl.off = lo)) →
    exec (.snapHigherRead m none a) s = s.to (((g.inc DIE_SNAP_MISS_COUNT (g.snapDie b i)).answer m 1 [0]).settle)) ∧
  (∀ (h : Hw) (b : Blk) (i off v d : Nat) (p : Fld → Bool), ((h.writeFields b i off v p).die d).slots = (h.die d).slots)

/-- The SPI target port's frame begins with CMD and an address: a read or a write of the word there, with STATUS (R415). A CMD with a
wrong upper nibble makes it ignore the frame and counts in SPI_ERR. With INC the frame goes on at the next word. The rising edge of CS_N
ends it. -/
def Obligations.SpiFramesReadAndWriteWords : Prop :=
  ∀ (s : State) (cmd a v : Nat) (ecc : List (Nat × Bool)), s.hears .spi →
    (∀ r w g, s.hw.spi.on = false → bits cmd 7 4 = 0xA → bit cmd 3 = true →
      ({ s.hw.meets ecc with spi := { on := true, rd := true, inc := bit cmd 2, addr := a % 2 ^ 40, words := 1 } }).masterRead .spi
        (a % 2 ^ 40) 4 = (some (r, w), g) →
      exec (.spiRead (some (cmd, a)) ecc) s = s.to ((g.answer .spi r [w]).settle)) ∧
    (∀ st g, s.hw.spi.on = false → bits cmd 7 4 = 0xA → bit cmd 3 = false →
      ({ s.hw with spi := { on := true, rd := false, inc := bit cmd 2, addr := a % 2 ^ 40, words := 1 } }).masterWrite .spi
        (a % 2 ^ 40) 4 v = (some st, g) →
      exec (.spiWrite (some (cmd, a)) v) s = s.to ((g.answer .spi st []).settle)) ∧
    (s.hw.spi.on = false → bits cmd 7 4 ≠ 0xA → bit cmd 3 = false →
      exec (.spiWrite (some (cmd, a)) v) s = s.to (({ s.hw with spi := { on := true, ignored := true } }).inc SPI_ERR_COUNT 0)) ∧
    (∀ st g, s.hw.spi.on = true → s.hw.spi.ignored = false → s.hw.spi.rd = false → s.hw.spi.inc = true →
      ({ s.hw with spi := { s.hw.spi with addr := (s.hw.spi.addr + 4) % 2 ^ 40, words := s.hw.spi.words + 1 } }).masterWrite .spi
        ((s.hw.spi.addr + 4) % 2 ^ 40) 4 v = (some st, g) →
      exec (.spiWrite none v) s = s.to ((g.answer .spi st []).settle)) ∧
    exec .spiCsRise s = s.to { s.hw with spi := {} }

/-! ### The loop tick, loop commands and references -/

/-- A unit's tick completes at every count that can be its next one (R25, R128): it finishes the tick before it, passes the guard instant
if that has not passed, begins at its count and rate, does its fixed order from the words that wait to the fault checks, and, if no fault
row is due, its tail (R26, R70, R71); at any other count nothing happens. A guard instant completes for a unit that runs at the head of
its chain and has not passed it: what its reference queue holds counts for the tick, and the period is late where the row or a rank-3
request bound to the tick without a grant says so, but never in CHECKING (R28, R38, R319). A channel's or siding's tick that is not late
commits the work's drive and ends the run of late ticks; one that is late drops the work, repeats the drive and counts (R28, R89, R122).
-/
def Obligations.LoopTickDoesTheFixedOrder : Prop :=
  (∀ (s : State) (u n : Nat) (smp : List (Nat × Sample)), s.on →
    (s.hw.tickOk u n = true →
      let g := (s.hw.finishTick u).guardInstant u false false
      exec (.loopTick u n smp) s = s.to ((g.tickHead u n smp).tailIf u) ∧
      (g.tickStart u n).now = n ∧ ((g.tickStart u n).unit u).clk.last = n ∧ ((g.tickStart u n).unit u).clk.ticked = true ∧
      ((g.tickStart u n).unit u).tail = true ∧ (∀ r, g.rateAt u n = some r → (g.tickStart u n).get U_LOOP_CTRL_RATE u = r % 8)) ∧
    (s.hw.tickOk u n = false → exec (.loopTick u n smp) s = s.to s.hw)) ∧
  (∀ (s : State) (u : Nat) (late bad : Bool), s.on → isUnit u = true → s.hw.runs u = true → s.hw.headOf u = u →
    (s.hw.unit u).tail = false → (s.hw.unit u).clk.guarded = false → ∃ g, exec (.guardInstant u late bad) s = s.to g ∧
      (g.unit u).clk.guarded = true ∧ (g.unit u).ref.ready = (g.unit u).ref.q.length ∧
      (g.unit u).clk.late = ((late || (s.hw.boundRanks u).contains 3) && s.hw.get U_STATE_STATE u != 1)) ∧
  (∀ (s : State) (u : Nat) (late bad : Bool), s.on → (s.hw.unit u).tail = false →
    ((s.hw.unit u).clk.guarded = true ∨ isUnit u = false ∨ s.hw.runs u = false) → exec (.guardInstant u late bad) s = s.to s.hw) ∧
  (∀ (h : Hw) (u n : Nat), isPlain u = true → h.bufMode u ≠ 0 →
    (∀ w, (h.unit u).law.work = some w → w.tag = false →
      (h.commitTick u n false).code U_DRV_CODE_CODE u = sx32 (u32 w.drive) ∧ (h.commitTick u n false).get U_LATE_STAT_RUN u = 0) ∧
    ((h.unit u).law.init = none →
      (h.commitTick u n true).code U_DRV_CODE_CODE u = h.code U_DRV_CODE_CODE u ∧ ((h.commitTick u n true).unit u).law.work = none ∧
      (h.commitTick u n true).get U_LATE_COUNT_COUNT u = (h.get U_LATE_COUNT_COUNT u + 1) % 2 ^ U_LATE_COUNT_COUNT.width))

/-- Each supervision of a unit raises its fault in the tick in which its run reaches its threshold, a threshold under the least one
counting as the least (R122, R135, R136, R137, R340); a run of late ticks, of following errors or of slow sense values below it raises
nothing. A drive buffer's comparator of a die that serves trips: DRV_OT and DRV_OT_SEEN are set for the unit and for the channel whose
buffer it is, and a fault waits for that channel's next tick (R92); while it stands tripped a second trip does nothing. Its release clears
DRV_OT of a unit that serves and is served by no other, and leaves DRV_OT_SEEN. -/
def Obligations.FaultsOfAUnitAreRaised : Prop :=
  (∀ (s : State) (u : Nat), s.on → (s.hw.unit (s.hw.headOf u)).tail = true →
    ((s.hw.unit u).wat.rLate = false → max 1 (s.hw.get U_LATE_CFG_LATE_RUN u) ≤ s.hw.get U_LATE_STAT_RUN u →
      exec (.lateFault u) s = s.to (((s.hw.modW u (fun w => { w with rLate := true })).raise u 1).tailIf (s.hw.headOf u))) ∧
    (s.hw.get U_LATE_STAT_RUN u < max 1 (s.hw.get U_LATE_CFG_LATE_RUN u) → exec (.lateFault u) s = s.to (s.hw.tailIf (s.hw.headOf u))) ∧
    ((s.hw.unit u).wat.rFe = false → max 1 (s.hw.get U_FE_CFG_FE_TIME u) ≤ s.hw.get U_SUP_STAT_FE_RUN u →
      exec (.feFault u) s = s.to (((s.hw.modW u (fun w => { w with rFe := true })).raise u 2).tailIf (s.hw.headOf u))) ∧
    (s.hw.get U_SUP_STAT_FE_RUN u < max 1 (s.hw.get U_FE_CFG_FE_TIME u) → exec (.feFault u) s = s.to (s.hw.tailIf (s.hw.headOf u))) ∧
    ((s.hw.unit u).wat.rSlw = false → max 1 (s.hw.get U_SENSE_CFG_SLW_N u) ≤ s.hw.get U_SUP_STAT_SLW_RUN u →
      exec (.senseFault u) s = s.to (((s.hw.modW u (fun w => { w with rSlw := true })).raise u 4).tailIf (s.hw.headOf u))) ∧
    (s.hw.get U_SUP_STAT_SLW_RUN u < max 1 (s.hw.get U_SENSE_CFG_SLW_N u) →
      exec (.senseFault u) s = s.to (s.hw.tailIf (s.hw.headOf u))) ∧
    ((s.hw.unit u).wat.rFrz = false →
      (let r := (s.hw.unit u).wat.fv; max 2 (s.hw.get U_FRZ_CFG_FRZ_N u) ≤ r.shown ∧ (s.hw.get U_FRZ_D_CODE u : Int) < r.hi - r.lo) →
      exec (.frozenFault u) s = s.to (((s.hw.modW u (fun w => { w with rFrz := true })).raise u 3).tailIf (s.hw.headOf u))) ∧
    (isPlain u = true → (s.hw.unit (s.hw.headOf u)).wat.rCeil = false →
      (let n := max 1 (s.hw.get U_ILK_CFG_CEIL_N u); n ≤ (s.hw.unit u).wat.cv ∨ n ≤ (s.hw.unit u).wat.ci ∨ n ≤ (s.hw.unit u).wat.cp) →
      exec (.ceilFault u) s =
        s.to (((s.hw.modW (s.hw.headOf u) (fun w => { w with rCeil := true })).raise u 5).tailIf (s.hw.headOf u)))) ∧
  (∀ (s : State) (u : Nat), s.on → isPlain u = true →
    (let h := ((s.hw.modU u (fun x => { x with ot := true })).otShow u).otShow (s.hw.servedUnit u)
     s.hw.dieUp (ownDie u) = true → (s.hw.unit u).ot = false →
      exec (.drvOtTrip u) s = s.to (h.faultLater (s.hw.servedUnit u) 6 9) ∧
      (∀ k, k = u ∨ k = s.hw.servedUnit u → h.flag U_DRV_STAT_DRV_OT k = true ∧ h.flag U_DRV_STAT_DRV_OT_SEEN k = true)) ∧
    ((s.hw.unit u).ot = true → exec (.drvOtTrip u) s = s.to s.hw) ∧
    (let h := ((s.hw.modU u (fun x => { x with ot := false })).otShow u).otShow (s.hw.servedUnit u)
     exec (.drvOtRelease u) s = s.to h ∧
      (s.hw.servedBy u = none → s.hw.servedUnit u = u → h.flag U_DRV_STAT_DRV_OT u = false) ∧
      (∀ k, s.hw.flag U_DRV_STAT_DRV_OT_SEEN k = true → h.flag U_DRV_STAT_DRV_OT_SEEN k = true)))

/-- A clear written to U_FAULT_CLR waits for the unit's tick with CLR = 1; while one waits RESULT becomes 2, and a member takes none
(R143, R50). A write less than 20 ns before the tick comes after the guard instant, which passes first (R26, R446). A loop command is
shown in U_LOOP_CMD and waits, BUSY, for the unit's tick (R123 to R128). While one waits another gets RESULT 2 and has no other effect
(R128); a member takes none, RESULT 3 and COUPLED_WR (R50). Connection commands wait, BUSY, for the unit's tick (R327, R332): one while
another waits has RESULT 8 and no other effect, and a member takes none, RESULT 7 or the lower number that applies (R447). A write of
U_ILK_CFG waits for the tick too (R325). A write at or after the guard instant finds the guard done (R26). -/
def Obligations.CommandsToAUnitWaitForItsTick : Prop :=
  (∀ (s : State) (m : Master) (u : Nat), s.hears m → s.hw.reaches u = true →
    let h := s.hw.passGuard u
    (h.isMember u = false → h.flag U_FAULT_CLR_CLR u = false → h.runs u = true →
      exec (.faultClear m u) s = s.wrote m
        ((h.put U_FAULT_CLR_CLR u 1).modU u (fun x => { x with pend := x.pend ++ [{ act := .clear }] }))) ∧
    (h.isMember u = false → h.flag U_FAULT_CLR_CLR u = true → exec (.faultClear m u) s = s.wrote m (h.put U_FAULT_CLR_RESULT u 2)) ∧
    (h.isMember u = true → exec (.faultClear m u) s = s.wrote m (h.put U_FLAGS_COUPLED_WR u 1))) ∧
  (∀ (s : State) (m : Master) (u mode law : Nat) (c : Nat) (i : Instr), s.hears m → s.hw.reaches u = true → mode < 2 → law < 4 →
    ((c = 1 ∧ i = .loopClose m u mode law) ∨ (c = 2 ∧ i = .loopOpen m u mode law) ∨ (c = 3 ∧ i = .loopSwitch m u mode law) ∨
      (c = 4 ∧ i = .loopLoad m u mode law)) →
    let h := s.hw.passGuard u
    (h.flag U_LOOP_CMD_BUSY u = false → h.isMember u = false → h.runs u = true → exec i s = s.wrote m
      (((((h.put U_LOOP_CMD_CMD u c).put U_LOOP_CMD_NEW_MODE u mode).put U_LOOP_CMD_NEW_LAW u law).put U_LOOP_CMD_BUSY u 1).modU u
        (fun x => { x with pend := x.pend ++ [{ act := .loop c mode law }] }))) ∧
    (h.flag U_LOOP_CMD_BUSY u = true → exec i s = s.wrote m (h.put U_LOOP_CMD_RESULT u 2)) ∧
    (h.flag U_LOOP_CMD_BUSY u = false → h.isMember u = true → exec i s = s.wrote m
      ((h.put U_LOOP_CMD_RESULT u 3).put U_FLAGS_COUPLED_WR u 1))) ∧
  (∀ (s : State) (m : Master) (u v c : Nat) (i : Instr), s.hears m → s.hw.reaches u = true →
    ((c = 1 ∧ i = .connConnect m u) ∨ (c = 2 ∧ i = .connIsolate m u)) →
    let h := s.hw.passGuard u
    (h.isMember u = true → exec i s = s.wrote m ((h.put U_CONN_CMD_RESULT u (if c = 1 then h.connResult u else 7)).put U_FLAGS_COUPLED_WR u 1) ∧
      exec (.fixmaskWrite m u v) s = s.wrote m (h.put U_FLAGS_COUPLED_WR u 1)) ∧
    (h.isMember u = true → h.connResult u ≠ 0) ∧
    (h.isMember u = false → h.flag U_CONN_CMD_BUSY u = true → exec i s = s.wrote m (h.put U_CONN_CMD_RESULT u 8)) ∧
    (h.isMember u = false → h.flag U_CONN_CMD_BUSY u = false → h.runs u = true → exec i s =
      s.wrote m (((h.put U_CONN_CMD_CMD u c).put U_CONN_CMD_BUSY u 1).modU u (fun x => { x with pend := x.pend ++ [{ act := .conn c }] }))) ∧
    (h.isMember u = false → h.reaches u = true → exec (.fixmaskWrite m u v) s = s.wrote m (h.pendWord u 0x640 v)))

/-- A value written to U_REF_PUSH enters the unit's reference queue behind the others as a signed number (R77); a full queue drops it,
FULL set and U_REF_DROP counted; while a timetable drives the unit or the safe ramp runs it is ignored, HOST_IGN set (R78). A flush
empties what the queue holds at the unit's next tick (R79). A host's push leaves a unit's reference queue as it was or puts the value at
its end, and no queue of a unit becomes longer than 32 entries (R77). -/
def Obligations.ReferencesQueueInOrder : Prop :=
  (∀ (s : State) (m : Master) (u v : Nat), s.hears m → s.hw.reaches u = true →
    let h := s.hw.passGuard u
    h.reaches u = true →
    (h.isMember u = false → h.ttOwns u = false → (h.unit u).safe.ramp = false →
      ((h.unit u).ref.q.length < 32 → exec (.refPush m u v) s = s.wrote m
        (h.modU u (fun x => { x with ref := { x.ref with q := x.ref.q ++ [{ value := sx32 v }] } }))) ∧
      (32 ≤ (h.unit u).ref.q.length → exec (.refPush m u v) s = s.wrote m ((h.put U_REF_STAT_FULL u 1).inc U_REF_DROP_COUNT u))) ∧
    (h.isMember u = false → (h.ttOwns u = true ∨ (h.unit u).safe.ramp = true) →
      exec (.refPush m u v) s = s.wrote m (h.put U_REF_STAT_HOST_IGN u 1)) ∧
    (h.isMember u = true → exec (.refPush m u v) s = s.wrote m (h.put U_FLAGS_COUPLED_WR u 1) ∧
      exec (.refFlush m u) s = s.wrote m (h.put U_FLAGS_COUPLED_WR u 1)) ∧
    (h.isMember u = false → h.flag U_REF_CMD_FLUSH u = false → h.runs u = true → exec (.refFlush m u) s = s.wrote m
      ((h.put U_REF_CMD_FLUSH u 1).modU u (fun x => { x with ref := { x.ref with flush := x.ref.q.length } }))) ∧
    (h.isMember u = false → h.flag U_REF_CMD_FLUSH u = false → h.runs u = false → exec (.refFlush m u) s = s.wrote m
      (h.modU u (fun x => { x with ref := { x.ref with q := [], ready := 0 } })))) ∧
  (∀ (h : Hw) (u v w : Nat), (∀ k, (h.unit k).ref.q.length ≤ 32) → (((h.refPush u v).unit w).ref.q.length ≤ 32 ∧
    (((h.refPush u v).unit w).ref.q = (h.unit w).ref.q ∨ (w = u ∧ ((h.refPush u v).unit w).ref.q = (h.unit w).ref.q ++ [{ value := sx32 v }]))))

/-! ### Measurement, capture, and the metronome's source -/

/-- Capture commands show in MUS_CAP_CMD. STOP ends a run with the state 0; FORCE makes an ARMED engine trigger at its next sample; ARM of
an engine whose unit runs waits for the unit's tick; a run that has its POST samples is DONE (R149, R150); the oldest waiting extension
record moves to the ring when its place is memory, with the Twill path's token at rank 6 (R151): while the engine holds it the record
moves, but for one that the ring guard drops (R267), and the token is released; while its request waits nothing moves. A measured value,
the filter sum of the levels of its window (R154, R156, R158), flagged where the overload detector fired in it (R163), is delivered at its
own time, but one that falls on the unit's own tick waits for that tick (R157); a conversion of an auxiliary converter ends at the end of
its conversion time (R177) and at no other instant, updates its sensor's reading, and its token passes on (R178). -/
def Obligations.CaptureAndMeasurement : Prop :=
  (∀ (s : State) (m : Master) (c : Nat), s.hears m → s.hw.hasCap c = true →
    let h := s.hw.passGuard (s.hw.get MUS_CAP_UNIT_UNIT c)
    exec (.capStop m c) s = s.wrote m
      (((h.put MUS_CAP_CMD_CMD c 2).put MUS_CAP_STAT_STATE c 0).modC c (fun x => { x with arm := false, trig := false, trigN := false, trigE := false })) ∧
    (h.get MUS_CAP_STAT_STATE c = 1 → exec (.capForce m c) s = s.wrote m
      ((h.put MUS_CAP_CMD_CMD c 3).modC c (fun x => { x with trig := true }))) ∧
    (h.get MUS_CAP_STAT_STATE c ≠ 1 → exec (.capForce m c) s = s.wrote m (h.put MUS_CAP_CMD_CMD c 3)) ∧
    (h.runs (h.get MUS_CAP_UNIT_UNIT c) = true → exec (.capArm m c) s = s.wrote m
      ((h.put MUS_CAP_CMD_CMD c 1).modC c (fun x => { x with arm := true }))) ∧
    (h.runs (h.get MUS_CAP_UNIT_UNIT c) = false → exec (.capArm m c) s = s.wrote m ((h.put MUS_CAP_CMD_CMD c 1).armExam c)) ∧
    (s.hw.get MUS_CAP_STAT_STATE c = 2 → s.hw.get MUS_CAP_DEPTH_POST c ≤ (s.hw.cap c).post →
      exec (.captureDone c) s = s.to (s.hw.put MUS_CAP_STAT_STATE c 3)) ∧
    (∀ k ws r, (s.hw.cap c).stage = (k, ws) :: r →
      let a := (s.hw.capRing c).1 + k * s.hw.get MUS_CAP_GEOM_ESIZE c
      s.hw.place a (4 * ws.length) = .mem → ∀ ch, ddrChan a = some ch →
        let tok := Res.twill (c / 8) ch
        let put := fun (g : Hw) => ((g.modC c (fun x => { x with stage := r })).ringGuard a (4 * ws.length) (fun h => h.wrWords a ws)).tokRel
          tok (twCap c)
        let g := s.hw.tokReq tok { who := twCap c, rank := 6 }
        (s.hw.holds tok (twCap c) = true → exec (.muslinExtensionMove c) s = s.to (put s.hw).settle) ∧
        (s.hw.holds tok (twCap c) = false → ((s.hw.arb tok).pend.any (fun q => q.who == twCap c)) = true →
          exec (.muslinExtensionMove c) s = s.to s.hw.settle) ∧
        (s.hw.holds tok (twCap c) = false → ((s.hw.arb tok).pend.any (fun q => q.who == twCap c)) = false →
          exec (.muslinExtensionMove c) s = s.to (if g.holds tok (twCap c) then put g else g).settle))) ∧
  (∀ (s : State) (u path x d w : Nat) (lv : List Int) (q fwd : Int) (fired : List Bool) (t : Nat), s.on →
    (let y := filterSum (filterH (s.hw.mdec u path).n (s.hw.mdec u path).d (s.hw.mdec u path).fir) lv
     let ovr := (fired.take (s.hw.mdec u path).window).any id
     s.hw.runs u = true → path < 3 → x % (4 * (s.hw.mdec u path).d) = 0 → s.hw.now ≤ x → (s.hw.unit (s.hw.headOf u)).clk.last < x →
      s.hw.measTurn u path x = true →
      exec (.measOutput u path x lv fired) s = s.to (
        if x % ({ s.hw with now := x }).period u = 0 then ({ s.hw with now := x }).modM u path (fun z => { z with pendOut := some (x, y, ovr) })
        else ({ s.hw with now := x }).measDeliver u path x y ovr)) ∧
    (let h := { s.hw with now := max s.hw.now t }
     s.hw.holds (.aux d) w = true → t = s.hw.auxEnd d w →
      (w / 16 = 5 → 4 ≤ w % 8 → exec (.auxConversionDone d w q fwd t) s = s.to ((h.tokRel (.aux d) w).visDeliver d (w % 16) q)) ∧
      (w / 16 = 5 → w % 8 < 4 → exec (.auxConversionDone d w q fwd t) s =
        s.to (((h.thReading (d * 12 + w % 16 % 8) q fwd t).tokRel (.aux d) w).visDeliver d (w % 16) q)) ∧
      (1 ≤ w / 16 → w / 16 < 14 → w / 16 ≠ 5 → w % 16 < 12 →
        exec (.auxConversionDone d w q fwd t) s = s.to ((h.thReading (d * 12 + w % 16) q fwd t).thDeliver d w))) ∧
    ((s.hw.holds (.aux d) w = false ∨ t ≠ s.hw.auxEnd d w) → exec (.auxConversionDone d w q fwd t) s = s.to s.hw))

/-- The metronome's source: its loss sets HOLDOVER and REF_LOST and clears LOCK, and changes no count, no unit, no engine, no memory and
not the source shown; with SRC automatic the best source left is taken, locked, and SWITCHED shows a change; the Line chosen as source is
taken again when it returns; the reference input's class decides REF_OK (R23, R24). -/
def Obligations.MetronomeFollowsItsSource : Prop :=
  ∀ (s : State) (c k : Nat), s.on →
    exec .metroSourceLost s = s.to s.hw.srcLost ∧
    (s.hw.srcLost.flag STN_METRO_STAT_HOLDOVER 0 = true ∧ s.hw.srcLost.flag STN_METRO_STAT_REF_LOST 0 = true ∧
      s.hw.srcLost.flag STN_METRO_STAT_LOCK 0 = false ∧ s.hw.srcLost.now = s.hw.now ∧ s.hw.srcLost.units = s.hw.units ∧
      s.hw.srcLost.engs = s.hw.engs ∧ s.hw.srcLost.mem = s.hw.mem ∧
      s.hw.srcLost.get STN_METRO_STAT_ACT_SRC 0 = s.hw.get STN_METRO_STAT_ACT_SRC 0) ∧
    (s.hw.get STN_METRO_CTRL_SRC 0 = 0 → s.hw.autoSrc = some k → ¬ (k = s.hw.get STN_METRO_STAT_ACT_SRC 0 ∧ s.hw.flag STN_METRO_STAT_LOCK 0 = true) →
      exec .metroSourceSwitch s = s.to (s.hw.takeSrc k true) ∧ (s.hw.takeSrc k true).get STN_METRO_STAT_ACT_SRC 0 = k ∧
        (s.hw.takeSrc k true).flag STN_METRO_STAT_LOCK 0 = true ∧
        (k ≠ s.hw.get STN_METRO_STAT_ACT_SRC 0 → (s.hw.takeSrc k true).flag STN_METRO_STAT_SWITCHED 0 = true)) ∧
    (s.hw.get STN_METRO_CTRL_SRC 0 = 1 → s.hw.flag STN_METRO_STAT_HOLDOVER 0 = true →
      exec .metroSourceReturn s = s.to (({ s.hw with metLost := clrBit s.hw.metLost 1 }).takeSrc 1 false)) ∧
    (c ≤ 1 → exec (.refclkClassify c) s =
      s.to ((({ s.hw with metLost := clrBit s.hw.metLost 2 }).put STN_METRO_STAT_REFF 0 c).put STN_METRO_STAT_REF_OK 0 1)) ∧
    (1 < c → s.hw.get STN_METRO_STAT_ACT_SRC 0 ≠ 2 → exec (.refclkClassify c) s = s.to (s.hw.put STN_METRO_STAT_REF_OK 0 0))

/-! ### Predictions, tokens, consists, points and ranges -/

/-- A junction's prediction (R32): confirmed, it is dropped and the JUNCTION counts among those taken; refuted, the engine goes back to
take the right path, and a confirmation has no effect. A feed-forward prediction that holds is confirmed, one that does not is counted and
dropped, and a range arming that its change has used, or that has expired, ends. A request for a shared resource is made at the resource's
arbiter now, with no loss counted; a release frees it there (R36, R37), by the slot's, the calibration bus's or the plain rule; a request
for the points bus is an operation of the chain, and is released by none. -/
def Obligations.PredictionsAndTokens : Prop :=
  (∀ (s : State) (e u k t : Nat) (p : JPred), s.on →
    ((s.hw.eng e).pred = some p → (s.hw.predOutcome e p).1 = p.taken → exec (.predictionConfirm (.junction e)) s = s.to
      (let sure := fun (a : StepAcc) => ({ a with
           tag := false, juncs := a.juncs ++ [(p.addr, p.taken, predSlot p)], empty := a.empty || (s.hw.predOutcome e p).2 } : StepAcc)
       (((s.hw.put TT_JSTAT_PENDJ e 0).modE e (fun x => { x with
         pred := none, acc := sure x.acc,
         parts := x.parts.take p.parts ++ (x.parts.drop p.parts).map (fun b => { b with acc := sure b.acc }) })).stepStage e))) ∧
    ((s.hw.eng e).pred = some p → (s.hw.predOutcome e p).1 ≠ p.taken →
      exec (.predictionRefute (.junction e)) s = s.to (s.hw.predRefute e) ∧
      ((s.hw.predRefute e).eng e).pred = none ∧ exec (.predictionConfirm (.junction e)) s = s.to s.hw) ∧
    ((s.hw.unit u).tail = false → (s.hw.unit u).clk.guarded = false → (s.hw.unit u).law.pred.isSome = true → (s.hw.unit u).law.predOk = false →
      s.hw.ffHolds u = true →
      exec (.predictionConfirm (.ff u)) s = s.to (s.hw.modU u (fun x => { x with law := { x.law with predOk := true } }))) ∧
    ((s.hw.unit u).tail = false → (s.hw.unit u).clk.guarded = false → (s.hw.unit u).law.pred.isSome = true → (s.hw.unit u).law.predOk = false →
      s.hw.ffHolds u = false →
      exec (.predictionRefute (.ff u)) s =
        s.to ((s.hw.inc DIE_SPEC_CNT_COUNT (s.hw.dieOf u) 4).modU u (fun x => { x with law := { x.law with pred := none } }))) ∧
    ((s.hw.unit u).rng.arm = some (k, t) → (s.hw.unit u).rng.active = true → s.hw.get U_RANGE_STAT_SH_RNG u = k → t ≤ (s.hw.unit u).rng.decided →
      exec (.predictionConfirm (.range u)) s = s.to ((s.hw.modR u (fun r => { r with arm := none, armNext := none })).setArm u false)) ∧
    ((s.hw.unit u).rng.arm = some (k, t) → (s.hw.unit u).rng.active = false →
      t + max 1 (s.hw.get U_AR_CFG_TTL u) * s.hw.period u ≤ (s.hw.unit u).clk.last →
      exec (.predictionRefute (.range u)) s = s.to (s.hw.refuteArm u (s.hw.unit u).clk.last))) ∧
  (∀ (s : State) (r : Res) (q : Req) (w : Nat), s.on →
    (s.hw.dieUp (resDie r) = true → (∀ d, r ≠ .points d) →
      (let a := (s.hw.arb r).request (s.hw.avail r) (oneIlk r) s.hw.now { q with losses := 0, at_ := s.hw.now }
       exec (.tokenRequest r q) s = s.to (s.hw.setArb r (if usedAtOnce r then { a with since := none } else a)))) ∧
    (∀ d, r = .points d → s.hw.dieUp d = true → exec (.tokenRequest r q) s =
      s.to (s.hw.ptsReq d { ch := q.who % 32, pat := s.hw.get U_PTS_STAT_PAT (posUnit d q.who), rank := q.rank, why := .image })) ∧
    ((∀ d, r ≠ .points d) → (∀ d, r ≠ .snap d) → (∀ d, r ≠ .cal d) →
      exec (.tokenRelease r w) s = s.to (s.hw.setArb r ((s.hw.arb r).release (s.hw.avail r) (oneIlk r) w)).settle) ∧
    (∀ d, r = .cal d → exec (.tokenRelease r w) s = s.to ((s.hw.tokRel r w).calBusGrant d)) ∧
    (∀ d, r = .snap d → exec (.tokenRelease r w) s = s.to ((s.hw.slotRelease d w).settle)) ∧
    (∀ d, r = .points d → exec (.tokenRelease r w) s = s.to s.hw.settle))

/-- An arbiter never has more holders than the resource has copies, and every request that is made is held or waits until it is granted
and released: none is lost, and none is made twice (R36, R37). Requests of one instant are decided together, from what stood before the
first of them: those that were held then are held still. Which of the requests that wait is granted next (R36, R37): one of the
Interlocking's rank 1 before any other; without one, a request that has lost 16 times; else one of the highest rank, that is of the lowest
number. Some request is granted whenever any waits. -/
def Obligations.ArbitrationGrantsByRankAndLosesNothing : Prop :=
  (∀ (a : ArbS) (n w now : Nat) (one : Bool) (q : Req),
    (let b := a.request n one now q
     let hs := if a.since = some now then a.hold0 else a.hold
     let ps := if a.since = some now then a.pend0 else a.pend
     let ar := if a.since = some now then a.arr ++ [q] else [q]
     b.since = some now ∧ b.hold0 = hs ∧ b.pend0 = ps ∧ b.arr = ar ∧
     (hs.length ≤ n → b.hold.length ≤ n) ∧ b.hold.length + b.pend.length = hs.length + ps.length + ar.length ∧
     (∀ r, r ∈ hs → r ∈ b.hold) ∧
     (∀ r, r ∈ ps ∨ r ∈ ar → ∃ k, { r with losses := r.losses + k } ∈ b.hold ∨ { r with losses := r.losses + k } ∈ b.pend)) ∧
    (let b := a.release n one w
     (a.hold.length ≤ n → b.hold.length ≤ n) ∧ (∀ r, r ∈ a.hold → r.who ≠ w → r ∈ b.hold) ∧
     (∀ r, r ∈ a.pend → r ∈ b.hold ∨ r ∈ b.pend ∨ { r with losses := r.losses + 1 } ∈ b.pend))) ∧
  (∀ (l : List (Nat × Nat × Nat)) (last : Tab Nat Nat), (∀ x, x ∈ l → x.1 ≤ 99) → l ≠ [] →
    ∃ i x, pickReq l last = some i ∧ l[i]? = some x ∧
      ((∃ y, y ∈ l ∧ y.1 = 1) → x.1 = 1) ∧
      ((∀ y, y ∈ l → y.1 ≠ 1) → (∃ y, y ∈ l ∧ 16 ≤ y.2.2) → 16 ≤ x.2.2) ∧
      ((∀ y, y ∈ l → y.1 ≠ 1 ∧ y.2.2 < 16) → ∀ y, y ∈ l → x.1 ≤ y.1))

/-- Start-up (R357, R360, R370): a self-test that passes lets its die answer, one that fails on another die than the boot die fences it
with cause 1, and a die that is silent for 20 ms is fenced with cause 2. A boot die whose self-test fails stays at step 2 for ROM or is
HELD with its cause. A read of the image with an error refuses it with reason 10, one whose source a master has written with reason 8;
with its header accepted the second read begins, and else it is refused with the reason found. BOOTING is left from step 8 alone. Another
die than the boot die that stops answering from step 3 on is fenced with cause 3 (R68), and an audit record notes it in step 8 or later,
or once BOOTING has ended. -/
def Obligations.StartUpAndFencingGoByTheirSteps : Prop :=
  (∀ (s : State) (d t f : Nat) (err : Bool) (ecc : List (Nat × Bool)), s.on →
    (let a := { s.hw with boot := { s.hw.boot with live := s.hw.boot.live ++ [d] } }
     let b := if d < 2 then a.lines else a
     let h := { b with boot := { b.boot with answered := b.boot.answered ++ [d] } }
     s.hw.dieUp d = true → s.hw.boot.live.contains d = false →
      (d ≠ b.bootDie → exec (.builtInSelfTestDone d 0) s = s.to h.showServing.censusEnd) ∧
      (d ≠ b.bootDie → f ≠ 0 → exec (.builtInSelfTestDone d f) s = s.to
        (((b.put STN_CENSUS_BIST_FAIL 0 (setBit (b.get STN_CENSUS_BIST_FAIL 0) d)).fence d 1).censusEnd)) ∧
      (d = b.bootDie → b.get STN_BOOT_STEP 0 ≤ 2 → exec (.builtInSelfTestDone d 0) s = s.to ((h.showServing.setStep 3).censusEnd)) ∧
      (d = b.bootDie → b.get STN_BOOT_STEP 0 ≤ 2 → b.get STN_STATE_STATE 0 = 1 →
        exec (.builtInSelfTestDone d 1) s = s.to { b.setStep 2 with boot := { b.boot with noRom := true } } ∧
        (2 ≤ f → exec (.builtInSelfTestDone d f) s = s.to ((b.setStep 3).hold (f + 1))))) ∧
    ((s.hw.dieUp d = false ∨ s.hw.boot.live.contains d = true) → exec (.builtInSelfTestDone d f) s = s.to s.hw) ∧
    (s.hw.dieUp d = true → d ≠ s.hw.bootDie → s.hw.boot.answered.contains d = false → s.hw.now ≤ t → 20 * t1ms ≤ t → s.hw.get STN_BOOT_STEP 0 = 3 →
      exec (.censusTimeout d t) s = s.to (((({ s.hw with now := t }).put STN_CENSUS_NOANSWER 0
        (setBit (s.hw.get STN_CENSUS_NOANSWER 0) d)).fence d 2).censusEnd)) ∧
    (let h := s.hw.meets ecc
     h.get STN_STATE_STATE 0 = 1 → h.boot.read = 1 → h.boot.src ≠ 3 →
      exec (.imageReadDone true ecc) s = s.to (h.imgRefuse 10 0) ∧
      (h.boot.touched = true → exec (.imageReadDone false ecc) s = s.to (h.imgRefuse 8 0)) ∧
      (h.boot.touched = false → h.read1.1 ≠ 0 → exec (.imageReadDone false ecc) s = s.to (h.imgRefuse h.read1.1 h.read1.2)) ∧
      (h.boot.touched = false → h.read1.1 = 0 → exec (.imageReadDone false ecc) s = s.to
        (({ h with boot := { h.boot with read := 2, prov := h.provisioned } }).setStep 6))) ∧
    ((s.hw.meets ecc).boot.read = 0 → exec (.imageReadDone err ecc) s = s.to (s.hw.meets ecc)) ∧
    (s.hw.get STN_BOOT_STEP 0 ≠ 8 → exec .leaveBooting s = s.to s.hw) ∧
    exec .leaveBooting s = s.to s.hw.leaveBooting) ∧
  (∀ (s : State) (d : Nat), s.on →
    let g := s.hw.fence d 3
    (d ≠ s.hw.bootDie → s.hw.dieUp d = true → 3 ≤ s.hw.get STN_BOOT_STEP 0 → g.get STN_STATE_STATE 0 = 1 → g.get STN_BOOT_STEP 0 < 8 →
      exec (.dieFence d) s = s.to g) ∧
    (d ≠ s.hw.bootDie → s.hw.dieUp d = true → 3 ≤ s.hw.get STN_BOOT_STEP 0 → (g.get STN_STATE_STATE 0 ≠ 1 ∨ 8 ≤ g.get STN_BOOT_STEP 0) →
      exec (.dieFence d) s = s.to (({ g with boot := { g.boot with fences := g.boot.fences.filter (fun p => p.1 != d) } }).audit 0x09 d 3)) ∧
    (d = s.hw.bootDie → exec (.dieFence d) s = s.to s.hw))

/-- COUPLE of a consist window is checked and its result shown; without a follower on another station it couples at once with RESULT 0,
and with one it waits for the Line, BUSY (R48, R49). UNCOUPLE answers 1 unless the consist is ISOLATED; an ISOLATED one is uncoupled at
once, RESULT 0, and has no members left (at once also with remote members, and also for a consist that is not coupled or is itself a
member: the model's choice, log entries 79 and 85). What the far stations answer ends the wait: with the lowest RESULT of what they name,
of 4 where the nesting would be deeper than four, and of what the checks find then; and else with the coupling. A write while BUSY has no
effect. A coupled consist with followers on other stations sends each its share at its outer ticks, once, and nothing while the station is
DARK, and a follower its report (R54, R56); off an outer tick nothing is sent. A follower that has been silent for LOST_N outer periods is
departed from, and a head that has sent no value for as many is lost (R56). -/
def Obligations.ConsistsCoupleAndWatch : Prop :=
  (∀ (s : State) (m : Master) (c : Nat), s.hears m → isConsist c = true →
    let h := s.hw.passGuard c
    (h.flag U_COUPLE_BUSY c = false → (h.put U_COUPLE_OP c 1).coupleResult c ≠ 0 →
      exec (.couple m c) s = s.wrote m ((h.put U_COUPLE_OP c 1).put U_COUPLE_RESULT c ((h.put U_COUPLE_OP c 1).coupleResult c))) ∧
    (h.flag U_COUPLE_BUSY c = false → (h.put U_COUPLE_OP c 1).coupleResult c = 0 →
      ((h.put U_COUPLE_OP c 1).entries c).any (fun x => x.2.2.2.1) = true →
      exec (.couple m c) s = s.wrote m (((h.put U_COUPLE_OP c 1).put U_COUPLE_BUSY c 1).modU c
        (fun x => { x with cons := { x.cons with wait := true } }))) ∧
    (h.flag U_COUPLE_BUSY c = false → (h.put U_COUPLE_OP c 1).coupleResult c = 0 →
      ((h.put U_COUPLE_OP c 1).entries c).any (fun x => x.2.2.2.1) = false →
      exec (.couple m c) s = s.wrote m ((h.put U_COUPLE_OP c 1).coupleDone c 0) ∧
        ((h.put U_COUPLE_OP c 1).coupleDone c 0).get U_COUPLE_RESULT c = 0) ∧
    (h.flag U_COUPLE_BUSY c = false → (h.put U_COUPLE_OP c 2).st c ≠ stISOLATED →
      exec (.uncouple m c) s = s.wrote m ((h.put U_COUPLE_OP c 2).put U_COUPLE_RESULT c 1)) ∧
    (h.flag U_COUPLE_BUSY c = false → h.st c = stISOLATED →
      exec (.uncouple m c) s = s.wrote m ((h.put U_COUPLE_OP c 2).uncoupleDone c) ∧
        ((h.put U_COUPLE_OP c 2).uncoupleDone c).get U_COUPLE_RESULT c = 0 ∧
        ((h.put U_COUPLE_OP c 2).uncoupleDone c).isCoupled c = false ∧ (((h.put U_COUPLE_OP c 2).uncoupleDone c).unit c).cons.mem = []) ∧
    (h.flag U_COUPLE_BUSY c = true → exec (.couple m c) s = s.wrote m h ∧ exec (.uncouple m c) s = s.wrote m h) ∧
    (let g := s.hw.modU c (fun x => { x with cons := { x.cons with wait := false } })
     (s.hw.unit c).cons.wait = true → ∀ res far, res < 16 →
      let found := [g.coupleResult c, res, if 4 < g.depthOver c far then 4 else 0]
      ((∀ x, x ∈ found → x = 0) → exec (.coupleComplete c { res := res, depth := far } none) s = s.to (g.coupleDone c far)) ∧
      (∀ r, r ∈ found → r ≠ 0 → (∀ x, x ∈ found → x = 0 ∨ r ≤ x) → exec (.coupleComplete c { res := res, depth := far } none) s =
        s.to ((g.put U_COUPLE_BUSY c 0).put U_COUPLE_RESULT c r)))) ∧
  (∀ (s : State) (u k t : Nat), s.on →
    let due := s.hw.isFollower u && decide ((s.hw.clkOf u).last ≤ t) && decide (t < (s.hw.clkOf u).last + s.hw.period u) &&
      t % max 1 (s.hw.unit u).cons.per == 0
    let rep := fun (g : Hw) => if due then g.outerReport u else g
    (let rs := (s.hw.members u).filter (fun m => m.2.2.2.1)
     let h := s.hw.modU u (fun x => { x with cons := { x.cons with outAt := some t } })
     let run := fun (c : ConsS) k => if c.heard.contains k then 0 else tget c.silent k 0 + 1
     let g := h.modU u (fun x => { x with cons := { x.cons with heard := [], silent := rs.map (fun m => (m.1, run x.cons m.1)) } })
     let due := t + s.hw.get TW_LINE_LAT_TICKS 0
     (s.hw.clkOf u).ticked = true → (s.hw.clkOf u).last = t → (s.hw.unit u).cons.outAt ≠ some t → isConsist u = true → s.hw.isCoupled u = true →
      t % (max 1 (s.hw.get U_CONSIST_CFG_OUT_DIV u) * s.hw.period u) = 0 →
      (s.hw.dark = true → exec (.outerTick u t) s = s.to (rep g)) ∧
      (s.hw.dark = false → exec (.outerTick u t) s = s.to (rep (g.each rs (fun g m => g.lineSend { lane := 1, ty := 1, dest := m.2.2.1, words :=
        [outerW0 u m.1, g.get U_DRV_CODE_CODE u, codeW (g.shareTgt u), due % 2 ^ 32, due / 2 ^ 32 % 2 ^ 32, 0, 0, 0] }))))) ∧
    ((s.hw.clkOf u).ticked = true → (s.hw.unit u).cons.outAt ≠ some t → due = true →
      (isConsist u = false ∨ s.hw.isCoupled u = false ∨ t % (max 1 (s.hw.get U_CONSIST_CFG_OUT_DIV u) * s.hw.period u) ≠ 0) →
      exec (.outerTick u t) s = s.to ((s.hw.modU u (fun x => { x with cons := { x.cons with outAt := some t } })).outerReport u)) ∧
    ((s.hw.unit u).cons.outAt = some t → exec (.outerTick u t) s = s.to s.hw) ∧
    (due = false → (t % (max 1 (s.hw.get U_CONSIST_CFG_OUT_DIV u) * s.hw.period u) ≠ 0 ∨ s.hw.isCoupled u = false) →
      exec (.outerTick u t) s = s.to s.hw) ∧
    (s.hw.isCoupled u = true → max 1 (s.hw.get U_CONSIST_CFG_LOST_N u) ≤ tget (s.hw.unit u).cons.silent k 0 →
      exec (.followerSilence u k) s = s.to (s.hw.depart u k)) ∧
    (tget (s.hw.unit u).cons.silent k 0 < max 1 (s.hw.get U_CONSIST_CFG_LOST_N u) → exec (.followerSilence u k) s = s.to s.hw) ∧
    (s.hw.isFollower u = true → (s.hw.unit u).cons.lost = false → (s.hw.unit u).cons.lostN ≤ (s.hw.unit u).cons.noUpd →
      exec (.headSilence u) s = s.to ((s.hw.modU u (fun y => { y with cons := { y.cons with lost := true } })).remoteLost u 8)) ∧
    ((s.hw.unit u).cons.noUpd < (s.hw.unit u).cons.lostN → exec (.headSilence u) s = s.to s.hw))

/-- The power-up sequence on an idle points bus takes 33 operations of 50 PBCLK periods (R98, R193). A points chain's latch, 24 PBCLK
periods after its operation's grant, makes the pattern of its operation the channel's relay image; the read-back, at 50 periods, is shown,
and where it is not that pattern the mismatch is dealt with before the chain takes its next operation (R98, R191, R192). At no other
instant is anything latched or read back. A write of U_RANGE_SEL waits for the unit's tick (R207); autorange changes down and armings
expire after the unit's tick (R199, R200); a change is designated, retargets the current shunt, breaks the old path and returns before the
unit's ticks at which each is due (R201 to R203). -/
def Obligations.PointsAndRangesChangeInPhases : Prop :=
  (∀ (s : State) (d t rb : Nat) (rbs : List Nat) (op : PtsOp), s.on →
    (s.hw.dieUp d = true → s.hw.now ≤ t1ms → s.hw.get STN_BOOT_STEP 0 ≤ 5 → (s.hw.die d).pts.cur = none →
      let i := max s.hw.now t100us
      let g := s.hw.modD d (fun x => { x with pts := { x.pts with initAt := some i } })
      exec (.pointsInit d rbs) s = s.to (({ g with now := i + 1650 * s.hw.pbTicks d }).ptsInit d rbs)) ∧
    ((s.hw.die d).pts.cur = some op → (s.hw.die d).pts.latched = false → t = s.hw.ptsLam d →
      exec (.pointsLatch d t) s = s.to (((({ s.hw with now := max s.hw.now t }).put U_PTS_STAT_PAT (posUnit d op.ch) op.pat).setPts d
        { (s.hw.die d).pts with latched := true, lam := t }).ptsLatched d t op)) ∧
    ((s.hw.die d).pts.cur = some op → (s.hw.die d).pts.latched = true → t = s.hw.ptsEnd d → rb % 65536 ≠ op.pat →
      exec (.pointsReadback d t rb) s =
        s.to (((({ s.hw with now := max s.hw.now t }).put U_PTS_STAT_RB (posUnit d op.ch) rb).ptsMismatch d t op).ptsNext d)) ∧
    ((s.hw.die d).pts.cur = some op → (s.hw.die d).pts.latched = true → t = s.hw.ptsEnd d → rb % 65536 = op.pat → op.why = .image →
      exec (.pointsReadback d t rb) s = s.to (((({ s.hw with now := max s.hw.now t }).put U_PTS_STAT_RB (posUnit d op.ch) rb).modU (posUnit d op.ch)
        (fun x => { x with safeLatched := true })).ptsNext d)) ∧
    (((s.hw.die d).pts.cur = none ∨ t ≠ s.hw.ptsLam d) → exec (.pointsLatch d t) s = s.to s.hw) ∧
    (((s.hw.die d).pts.cur = none ∨ t ≠ s.hw.ptsEnd d) → exec (.pointsReadback d t rb) s = s.to s.hw)) ∧
  (∀ (s : State) (m : Master) (u v n : Nat), s.on →
    (let h := s.hw.passGuard u
     s.hw.servesMaster m = true → s.hw.reaches u = true → h.reaches u = true → h.isMember u = false → bit v 9 = false → h.runs u = true →
      exec (.rangeSelWrite m u v) s = s.wrote m (h.modU u (fun x => { x with
        pend := x.pend ++ [{ act := .range (bits v 3 0) (bits v 5 4) (7 + 8 * bits v 8 8) }] }))) ∧
    (isUnit u = true → s.hw.runs u = true → s.hw.headOf u = u → (s.hw.unit u).clk.ticked = true → (s.hw.unit u).tail = false →
      (s.hw.downDue u = true → exec (.autorangeDown u) s =
        s.to (((s.hw.startChange u (s.hw.ient u (s.hw.irng u)).dn (s.hw.unit u).clk.last).plan u).tkoReactAll u)) ∧
      (s.hw.armDue u = true → exec (.armingExpire u) s = s.to (((s.hw.refuteArm u (s.hw.unit u).clk.last).plan u).tkoReactAll u)) ∧
      (s.hw.downDue u = false → exec (.autorangeDown u) s = s.to ((s.hw.plan u).tkoReactAll u)) ∧
      (s.hw.armDue u = false → exec (.armingExpire u) s = s.to ((s.hw.plan u).tkoReactAll u))) ∧
    (s.hw.tickOk u n = true → (s.hw.unit u).tail = false →
      (s.hw.desDue u n = true → exec (.changeDesignate u n) s = s.to ((s.hw.designate u n).tkoReactAll u)) ∧
      (s.hw.retargetDue u n = true → exec (.changeRetarget u n) s = s.to ((s.hw.retargetIs u n).tkoReactAll u)) ∧
      (s.hw.breakDue u n = true → exec (.changeBreak u n) s = s.to ((s.hw.requestBreak u n).tkoReactAll u)) ∧
      (s.hw.returnDue u n = true → exec (.changeReturn u n) s = s.to ((s.hw.returnIs u n).tkoReactAll u)) ∧
      (s.hw.desDue u n = false → exec (.changeDesignate u n) s = s.to (s.hw.tkoReactAll u))))

/-! ### Timetables -/

/-- Decoding the word of an instruction gives that instruction back, with every operand at every value its field admits (R223). -/
def Obligations.DecodingAnEncodedInstructionGivesItBack : Prop :=
  ∀ i : TIns, insFits i = true → decodeIns (encIns i) = (0, i)

/-- A word whose opcode is not in the table is error 1; one with a reserved bit at 1 is error 2; every other word is the word of exactly
the instruction it decodes to (R216, R223). A word of zeros is HALT. -/
def Obligations.InstructionWordsDecodeByTheTable : Prop :=
  (∀ w, w < 2 ^ 64 → 0x16 < bits w 63 58 → (decodeIns w).1 = 1) ∧
  (∀ w, w < 2 ^ 64 → bits w 63 58 ≤ 0x16 → (∃ k, k < 58 ∧ bit w k = true ∧ bit (insMask (bits w 63 58)) k = false) → (decodeIns w).1 = 2) ∧
  (∀ w, w < 2 ^ 64 → bits w 63 58 ≤ 0x16 → (∀ k, k < 58 → bit w k = true → bit (insMask (bits w 63 58)) k = true) →
    (decodeIns w).1 = 0 ∧ insFits (decodeIns w).2 = true ∧ encIns (decodeIns w).2 = w) ∧
  decodeIns 0 = (0, .halt)

/-- Engine commands (R210, R213 to R215). BIND without VALID unbinds an engine in IDLE; in RUNNING every BIND sets BIND_ERR and has no
other effect. START, STOP and RESET wait, BUSY, for the bound unit's tick; one while another waits has RESULT 6 and no other effect. A
jump request without a valid target has RESULT 1, and one to a running engine with a valid target and none pending waits (R256 to R258);
one that is taken at a jump point goes to the target, a step cut short by it counted (R259). A stream's write pointer is written as it is
while no stream plays, and moves forward only while one does (R261); outside a wait, a watched event that is seen acts by its slot's
policy (R250). -/
def Obligations.EngineCommandsAndJumps : Prop :=
  (∀ (s : State) (m : Master) (e u c : Nat) (i : Instr), s.hears m → s.hw.hasEng e = true →
    let h := s.hw.engPass e
    (u < 1024 → h.get TT_STAT_STATE e = 0 → exec (.ttBind m e u false) s = s.wrote m ((h.put TT_BIND_UNIT e u).put TT_BIND_VALID e 0)) ∧
    (u < 1024 → h.get TT_STAT_STATE e = 1 →
      exec (.ttBind m e u true) s = s.wrote m (h.put TT_STAT_BIND_ERR e 1) ∧
      exec (.ttBind m e u false) s = s.wrote m (h.put TT_STAT_BIND_ERR e 1)) ∧
    (((c = 1 ∧ i = .ttStart m e) ∨ (c = 2 ∧ i = .ttStop m e) ∨ (c = 3 ∧ i = .ttReset m e)) →
      (h.flag TT_CMD_BUSY e = true → exec i s = s.wrote m (h.put TT_CMD_RESULT e 6)) ∧
      (h.flag TT_CMD_BUSY e = false → h.flag TT_BIND_VALID e = true → h.runs (h.get TT_BIND_UNIT e) = true →
        exec i s = s.wrote m (((h.put TT_CMD_CMD e c).put TT_CMD_BUSY e 1).modE e (fun x => { x with cmd := some (c, false) }))))) ∧
  (∀ (s : State) (m : Master) (e v k : Nat), s.hears m → s.hw.hasEng e = true →
    let k0 := s.hw.engPass e
    ((k0.put TT_JUMP_BREAK e 0).flag TT_JUMP_TGT_VALID e = false → exec (.jumpRequest m e false) s =
      s.wrote m ((k0.put TT_JUMP_BREAK e 0).put TT_JUMP_RESULT e 1)) ∧
    (let h := k0.put TT_JUMP_BREAK e 1
     h.flag TT_JUMP_TGT_VALID e = true → h.flag TT_JUMP_PEND e = false → h.get TT_STAT_STATE e = 1 → exec (.jumpRequest m e true) s =
      s.wrote m (((h.put TT_JUMP_PEND e 1).put TT_JUMP_REQ e 1).modE e (fun x => { x with jump := some false }))) ∧
    (exec (.jumpTargetWrite m e v) s = s.wrote m (k0.jumpTgt e true v)) ∧
    ((∀ t, (k0.eng e).act ≠ .stream t) → exec (.srWpWrite m e v) s = s.wrote m (k0.put TT_SR_WP_VALUE e (v % 2 ^ 32))) ∧
    (∀ t, (k0.eng e).act = .stream t → let d := sx32 (v % 2 ^ 32 / 8 * 8 + (2 ^ 32 - k0.get TT_SR_WP_VALUE e / 8 * 8))
      (0 ≤ d → exec (.srWpWrite m e v) s = s.wrote m (k0.put TT_SR_WP_VALUE e (v % 2 ^ 32))) ∧
      (d < 0 → exec (.srWpWrite m e v) s = s.wrote m k0)) ∧
    ((s.hw.eng e).jump.isSome = true → (s.hw.eng e).jumping = false → s.hw.get TT_STAT_STATE e = 1 → s.hw.jumpPoint e = true →
      (s.hw.unit (s.hw.get TT_BIND_UNIT e)).clk.guarded = false →
      let h := match (s.hw.eng e).cut with
        | some c => ((s.hw.inc TT_EV_OVERLAP_COUNT e).engRewind e).setStacks e c.1.loops c.1.calls
        | none => s.hw
      exec (.jumpTake e) s = s.to ((h.redirect e (h.get TT_JUMP_TGT_ADDR e) (h.get TT_JUMP_TGT_LD e) (h.get TT_JUMP_TGT_CD e)
        (s.hw.jumpCloses e) false true).modE e (fun x => { x with restart := none, cut := none }))) ∧
    ((s.hw.eng e).seenNow.contains k = true → s.hw.waitedOn e k = false → exec (.watchEventSeen e k) s =
      s.to ((s.hw.watchSeen e k).modE e (fun x => { x with seenNow := x.seenNow.filter (· != k) }))))

/-- Effect instructions gather in their step (R217, R218, R224 to R228, R236, R252): the last SET wins, bin masks are ORed, the last value
of each field of RANGE and MODE wins, requests keep their order. Each goes on at the next word. -/
def Obligations.EffectInstructionsGather : Prop :=
  ∀ (s : State) (e : Nat), s.on →
    let g := s.hw.passGuard (s.hw.get TT_BIND_UNIT e)
    let h := g.counted e
    let go := fun f => ((h.modAcc e f).setPc e (h.pc e + 8)).staged e
    (∀ ovr rsh rate v, g.meetsIns e (.set ovr rsh rate v) → (ovr = 1 ∨ (ovr = 0 ∧ rsh = 0 ∧ rate = 0)) →
      exec (.ttSet e ovr rsh rate v) s = s.to (go (fun a => { a with entry := some { value := sx32 v, src := 1, ovr := if ovr = 1 then some (min (rate * 2 ^ rsh) 0xFFFFFFFF) else none } }))) ∧
    (∀ ovr rsh rate v, g.meetsIns e (.set ovr rsh rate v) → ovr = 0 → (rsh ≠ 0 ∨ rate ≠ 0) →
      exec (.ttSet e ovr rsh rate v) s = s.to ((h.insErr e 4).staged e)) ∧
    (∀ b, g.meetsIns e (.openB b) → exec (.ttOpen e b) s = s.to (go (fun a => { a with opn := a.opn ||| b }))) ∧
    (∀ b, g.meetsIns e (.closeB b) → exec (.ttClose e b) s = s.to (go (fun a => { a with close := a.close ||| b }))) ∧
    (∀ mo law, g.meetsIns e (.mode mo law) → exec (.ttMode e mo law) s = s.to (go (fun a => { a with mode := some (mo, law), modePc := h.pc e }))) ∧
    (∀ ir vr ar si sv sa, g.meetsIns e (.range ir vr ar si sv sa 0) →
      exec (.ttRange e ir vr ar si sv sa 0) s = s.to (go (fun a => { a with rI := if si = 1 then some ir else a.rI, rV := if sv = 1 then some vr else a.rV, rA := if sa = 1 then some ar else a.rA }))) ∧
    (∀ k, g.meetsIns e (.therm k 0) → k < 12 → exec (.ttTherm e k 0) s = s.to (go (fun a => { a with therm := a.therm ++ [k] }))) ∧
    (∀ ev d, g.meetsIns e (.signal ev d) → ev < 64 → 32 ≤ d →
      exec (.ttSignal e ev d) s = s.to (go (fun a => { a with signals := a.signals ++ [(ev, d)] }))) ∧
    (∀ ev d, g.meetsIns e (.signal ev d) → ev < 64 → d < 32 → exec (.ttSignal e ev d) s = s.to ((h.insErr e 4).staged e))

/-- Control instructions take no time (R217, R234, R235, R239, R266): LOOP opens a level up to 8, NEXT repeats it or leaves it, CALL and
RET use a stack of 4, MARK and REWIND move the stream's read pointer, HALT ends the step. A stack that overflows or is empty is the
engine's error 5, 6, 7 or 8. -/
def Obligations.ControlInstructionsMoveTheProgramCounter : Prop :=
  ∀ (s : State) (e : Nat), s.on →
    let g := s.hw.passGuard (s.hw.get TT_BIND_UNIT e)
    let h := g.counted e
    let at_ := fun (g : Hw) a => (g.setPc e a).staged e
    (∀ c, g.meetsIns e (.loop c) → ((h.eng e).loops.length < 8 → exec (.ttLoop e c) s = s.to (at_ (h.setStacks e
        ((h.eng e).loops ++ [{ remain := c, forever := c == 0, start := h.pc e + 8 }]) (h.eng e).calls)
        ((h.setStacks e ((h.eng e).loops ++ [{ remain := c, forever := c == 0, start := h.pc e + 8 }]) (h.eng e).calls).pc e + 8))) ∧
      (8 ≤ (h.eng e).loops.length → exec (.ttLoop e c) s = s.to ((h.insErr e 5).staged e))) ∧
    (g.meetsIns e .next → ((h.eng e).loops = [] → exec (.ttNext e) s = s.to ((h.insErr e 6).staged e)) ∧
      (∀ below l, (h.eng e).loops = below ++ [l] → l.gap = false → l.forever = false → 1 < l.remain → exec (.ttNext e) s =
        s.to (at_ (h.setStacks e (below ++ [{ l with remain := l.remain - 1 }]) (h.eng e).calls) l.start)) ∧
      (∀ below l, (h.eng e).loops = below ++ [l] → l.gap = false → l.forever = true → exec (.ttNext e) s =
        s.to (at_ (h.setStacks e (below ++ [l]) (h.eng e).calls) l.start)) ∧
      (∀ below l, (h.eng e).loops = below ++ [l] → l.gap = false → l.forever = false → l.remain ≤ 1 → exec (.ttNext e) s =
        s.to (at_ (h.setStacks e below (h.eng e).calls) ((h.setStacks e below (h.eng e).calls).pc e + 8)))) ∧
    (∀ a, g.meetsIns e (.call a) → (a % 8 = 0 → h.ttRange e a 8 = true → (h.eng e).calls.length < 4 → exec (.ttCall e a) s =
        s.to (at_ (h.setStacks e (h.eng e).loops ((h.eng e).calls ++ [(h.pc e + 8, (h.eng e).loops.length)])) a)) ∧
      (a % 8 ≠ 0 → exec (.ttCall e a) s = s.to ((h.insErr e 3).staged e)) ∧
      (a % 8 = 0 → h.ttRange e a 8 = true → 4 ≤ (h.eng e).calls.length → exec (.ttCall e a) s = s.to ((h.insErr e 7).staged e))) ∧
    (g.meetsIns e .ret → ((h.eng e).calls = [] → exec (.ttRet e) s = s.to ((h.insErr e 8).staged e)) ∧
      (∀ below a d, (h.eng e).calls = below ++ [(a, d)] → exec (.ttRet e) s = s.to (at_ (h.setStacks e ((h.eng e).loops.take d) below) a))) ∧
    (g.meetsIns e (.mark 1) → exec (.ttMark e 1) s = s.to ((h.put TT_SR_STAT_MARKED e 0).insNext e |>.staged e)) ∧
    (g.meetsIns e (.mark 0) → exec (.ttMark e 0) s =
      s.to (((h.put TT_SR_STAT_MARKED e 1).put TT_SR_MARK_VALUE e (h.get TT_SR_RP_VALUE e)).insNext e |>.staged e)) ∧
    (∀ c, g.meetsIns e (.rewind c) → (h.flag TT_SR_STAT_MARKED e = false → exec (.ttRewind e c) s = s.to ((h.insErr e 4).staged e)) ∧
      (h.flag TT_SR_STAT_MARKED e = true → (h.eng e).rewinding = true → (h.eng e).rewForever = true → exec (.ttRewind e c) s =
        s.to ((h.put TT_SR_RP_VALUE e (h.get TT_SR_MARK_VALUE e)).insNext e |>.staged e))) ∧
    (g.meetsIns e .halt → exec (.ttHalt e) s = s.to ((h.modAcc e (fun a => { a with fin := .halt })).staged e))

/-- Timing and waiting instructions end their step (R217, R225, R228 to R233, R236 to R238, R249, R263): a dwell or a play begins at the
step tick, and so does a wait, whose condition is judged then; behind a RANGE with WAIT, a CONNECT or an ISOLATE, whose condition may hold
at the step tick itself, the step is kept as it stands and goes on for that case. DWELL 0, and a WAITEV whose trigger is latched already,
take no time. -/
def Obligations.TimingAndWaitingInstructionsEndTheStep : Prop :=
  ∀ (s : State) (e : Nat), s.on →
    let g := s.hw.passGuard (s.hw.get TT_BIND_UNIT e)
    let h := g.counted e
    let ends := fun (f : StepAcc → StepAcc) (x : StepEnd) => ((h.modAcc e f).insEnd e x).staged e
    let waits := fun (f : StepAcc → StepAcc) (c : WaitC) => ((h.modAcc e f).insWait e c).staged e
    (∀ n, g.meetsIns e (.dwell n) → (n ≠ 0 → exec (.ttDwell e n) s = s.to ((h.insEnd e (.dwell n)).staged e)) ∧
      (n = 0 → exec (.ttDwell e n) s = s.to ((h.insNext e).staged e))) ∧
    (∀ a sw, g.meetsIns e (.sweep a) → a % 64 = 0 → h.ttRange e a 64 = true → h.lineMiss e a 64 true = none → h.readSweep e a = some sw →
      exec (.ttSweep e a) s = s.to (ends (fun x => { x with entry := some { value := sw.value 0, ovr := sw.ovr, src := 1 }, opn := if sw.settle = 0 then x.opn ||| sw.bmask else x.opn }) (.act (.sweep sw.advance)))) ∧
    (∀ c a v dw m op cl hold, g.meetsIns e (.list c a) → a % 8 = 0 → h.ttRange e a (8 * c) = true → c ≠ 0 → h.lineMiss e a 8 true = none →
      h.listEntry e a = (v, dw, m, op, cl, hold, false) → exec (.ttList e c a) s = s.to (ends (fun x => { x with entry := if hold then x.entry else some { value := v, src := 1 }, opn := if op then x.opn ||| m else x.opn })
        (.act (.list { left := c - 1, addr := a, pc := h.pc e, close := if cl then m else 0, opened := if op then m else 0 })))) ∧
    (∀ r a, g.meetsIns e (.play r a) → a % 32 = 0 → h.ttRange e a 32 = true → h.lineMiss e a 32 true = none →
      (h.readSeg e r a).count ≠ 0 → (h.readSeg e r a).fmt ≠ 3 →
      h.ttRange e a (32 + segBytes (h.readSeg e r a).fmt (h.readSeg e r a).count) = true →
      h.lineMiss e ((h.readSeg e r a).sampleAt 0).1 ((h.readSeg e r a).sampleAt 0).2 true = none →
      exec (.ttPlay e r a) s = s.to (ends (fun x => { x with entry := some (h.segEntry e (h.readSeg e r a)).1 })
        (.act (.play (h.segEntry e (h.readSeg e r a)).2)))) ∧
    (∀ n, g.meetsIns e (.stream n) → h.ringOk e = true → 12 ≤ h.get TT_SR_SIZE_LOG2 e → h.get TT_SR_SIZE_LOG2 e ≤ 28 →
      exec (.ttStream e n) s = s.to (ends (fun a => { a with entry := none })
        (.act (.stream { left := if n = 0 then none else some n, stretch := h.flag TT_SR_CFG_RESUME e, pc := h.pc e })))) ∧
    (∀ ir vr ar si sv sa, g.meetsIns e (.range ir vr ar si sv sa 1) → exec (.ttRange e ir vr ar si sv sa 1) s =
      s.to (waits (fun a => { a with rI := if si = 1 then some ir else a.rI, rV := if sv = 1 then some vr else a.rV, rA := if sa = 1 then some ar else a.rA })
        (.range (if si = 1 then some ir else none) (if sv = 1 then some vr else none)))) ∧
    (∀ k, g.meetsIns e (.therm k 1) → k < 12 →
      exec (.ttTherm e k 1) s = s.to (ends (fun a => { a with therm := a.therm ++ [k] }) (.act (.wait .therm)))) ∧
    (∀ c, g.meetsIns e (.connect c) → exec (.ttConnect e c) s =
      s.to (waits (fun a => { a with conn := some (c == 1) }) (.connect (c == 1) false))) ∧
    (g.meetsIns e .isolate → exec (.ttIsolate e) s = s.to (waits (fun a => { a with iso := true }) .isolate)) ∧
    (∀ k t d, g.meetsIns e (.waitev k t d) →
      (h.flag TT_EVW_PEND e k = false → exec (.ttWaitev e k t d) s = s.to ((h.insEnd e (.act (.wait (.event k t (dispTarget (h.pc e) d) 0)))).staged e)) ∧
      (h.flag TT_EVW_PEND e k = true → exec (.ttWaitev e k t d) s = s.to ((((h.modAcc e (fun a =>
        { a with evs := a.evs ++ [(k, h.pc e + 8, (h.eng e).loops.length, (h.eng e).calls.length)] })).insNext e)).staged e)))

/-- A JUNCTION on values that are committed takes the path that its condition says, and a prediction takes the path that the predictor
says, PENDJ set (R253 to R255); while a prediction is pending another JUNCTION waits, and on the right path after a refuted one a JUNCTION
waits for its value instead of a prediction (R34). Operands that its KIND does not use are 0. -/
def Obligations.JunctionsTakeTheirPath : Prop :=
  ∀ (s : State) (e kind stat op bin th neg slot flag disp : Nat) (p : Bool), s.on →
    let g := s.hw.passGuard (s.hw.get TT_BIND_UNIT e)
    g.meetsIns e (.junction kind stat op bin th neg slot flag disp) →
    let h := g.counted e
    let i : Bool → Instr := fun p => .ttJunction e kind stat op bin th neg slot flag disp p
    let r := h.evalJunction e kind stat op bin th neg slot flag
    let k := decide (2 ≤ h.predEntry e (h.pc e))
    (((g.stepBegin e).eng e).pred = none → junctionOk kind stat op bin th slot flag = true →
      exec (i false) s = s.to (((h.modAcc e (fun x => { x with juncs := x.juncs ++ [(h.pc e, r.1, if kind = 0 then some slot else none)], empty := x.empty || r.2 })).takePath e r.1
        (dispTarget (h.pc e) disp) (h.pc e + 8)).staged e)) ∧
    (((g.stepBegin e).eng e).pred = none → junctionOk kind stat op bin th slot flag = true → ((g.stepBegin e).eng e).noPred = false →
      ¬ (kind = 2 ∧ flag = 7) → exec (i true) s = s.to ((((h.put TT_JSTAT_PENDJ e 1).modE e (fun y => { y with pred := some { addr := h.pc e, taken := k, target := dispTarget (h.pc e) disp, cond := .junction kind stat op bin th neg slot flag disp, acc := (h.eng e).acc, loops := (h.eng e).loops, calls := (h.eng e).calls, snap := h.engBack e, parts := (h.eng e).parts.length }, acc := { y.acc with tag := true } })).takePath e k
        (dispTarget (h.pc e) disp) (h.pc e + 8)).staged e)) ∧
    (((g.stepBegin e).eng e).pred = none → ((g.stepBegin e).eng e).noPred = false → junctionOk kind stat op bin th slot flag = false →
      exec (i p) s = s.to ((h.insErr e 4).staged e)) ∧
    (((g.stepBegin e).eng e).pred ≠ none → exec (i p) s = s.to ((g.stepBegin e).staged e)) ∧
    (((g.stepBegin e).eng e).noPred = true → ¬ (kind = 2 ∧ flag = 7) → exec (i true) s = s.to ((g.stepBegin e).staged e))

/-- Between step ticks: a sweep's next point, a list's next entry and a segment's next pass are staged for their tick; a stream resumes; a
wait whose condition holds, or whose time is over, ends (R217, R231 to R233, R249, R264); a line is read from DDR5 with the Twill path's
token at rank 4 (R18, R35, R212), which is requested where it is not held and released once the line has come. A TT_STEP runs a step to
its end. A line that arrives is the first of the at most eight that the engine's window holds, with the bytes that memory holds, and ends
a stall that waited for it; the line at the mark stays while a mark is set (R212, R266). One with an uncorrectable error, or of a channel
that has lost its capacity since, enters no window and ends a stall that waited for it in error 10, or 3, at the instruction that needed
it (R216, R289). -/
def Obligations.EnginesGoOnBetweenSteps : Prop :=
  (∀ (s : State) (e : Nat), s.on →
    (exec (.ttStep e) s = s.to (((s.hw.passGuard (s.hw.get TT_BIND_UNIT e)).stepRun e 66).staged e)) ∧
    (∀ sw, (s.hw.eng e).act = .sweep sw → s.hw.get TT_STAT_STATE e = 1 → (s.hw.eng e).togo = 1 → (s.hw.eng e).ready = none → sw.j < sw.total →
      exec (.ttSweepPoint e) s = s.to (s.hw.stageWork e { close := sw.bmask, opn := if sw.settle = 0 then sw.bmask else 0, entry := some { value := sw.value sw.j, ovr := sw.ovr, src := 1 }, fin := .act (.sweep sw.advance) })) ∧
    (∀ l v dw m op cl hold, (s.hw.eng e).act = .list l → s.hw.get TT_STAT_STATE e = 1 → (s.hw.eng e).togo = 1 → (s.hw.eng e).ready = none → 0 < l.left →
      s.hw.lineMiss e (l.addr + 8) 8 true = none → s.hw.listEntry e (l.addr + 8) = (v, dw, m, op, cl, hold, false) →
      exec (.ttListEntry e) s = s.to (s.hw.stageWork e { close := l.close, opn := if op then m else 0, entry := if hold then none else some { value := v, src := 1 }, fin := .act (.list { left := l.left - 1, addr := l.addr + 8, pc := l.pc, close := if cl then m else 0, opened := if op then m else 0 }) })) ∧
    (∀ p, (s.hw.eng e).act = .play p → s.hw.get TT_STAT_STATE e = 1 → (s.hw.eng e).togo = 1 → (s.hw.eng e).ready = none → p.on = false →
      p.left ≠ some 0 → s.hw.lineMiss e (p.sampleAt 0).1 (p.sampleAt 0).2 true = none →
      exec (.ttPlayPass e) s = s.to (s.hw.stageWork e { entry := some (s.hw.segEntry e { p with on := true }).1, fin := .act (.play (s.hw.segEntry e { p with on := true }).2) })) ∧
    (∀ t, s.hw.hasEng e = true → (s.hw.eng e).act = .stream t → s.hw.get TT_STAT_STATE e = 3 → t.stalled = true → t.found = true →
      ((s.hw.unit (s.hw.headOf (s.hw.get TT_BIND_UNIT e))).clk.guarded = false → exec (.ttStreamResume e) s =
        s.to ((s.hw.modE e (fun x => { x with act := .stream { t with stalled := false, found := false } })).engState e 1)) ∧
      ((s.hw.unit (s.hw.headOf (s.hw.get TT_BIND_UNIT e))).clk.guarded = true → exec (.ttStreamResume e) s = s.to s.hw)) ∧
    (let u := s.hw.get TT_BIND_UNIT e
     s.hw.hasEng e = true → s.hw.flag TT_BIND_VALID e = true → isUnit u = true → s.hw.runs u = true → s.hw.headOf u = u →
      (s.hw.unit u).clk.ticked = true → (s.hw.unit u).tail = false → s.hw.get TT_STAT_STATE e = 2 →
      ((s.hw.eng e).act = .wait .isolate → (s.hw.eng e).waitOk = true → exec (.ttWaitCondition e) s =
        s.to (((s.hw.waitEnd e).plan u).tkoReactAll u)) ∧
      (∀ k t a c, (s.hw.eng e).act = .wait (.event k t a c) → 0 < t → t ≤ c → (s.hw.eng e).seenNow.contains k = false →
        exec (.ttWaitevTimeout e) s = s.to ((((s.hw.setPc e a).waitEnd e).plan u).tkoReactAll u))) ∧
    (∀ ln ch data ue, ddrChan (ln * 256) = some ch →
      let tok := Res.twill (e / 8) ch
      let g := s.hw.tokReq tok { who := twEng e, rank := 4 }
      (s.hw.holds tok (twEng e) = true → exec (.ttLineFillDone e ln data ue) s = s.to ((s.hw.lineIn e ln data ue).tokRel tok (twEng e)).settle) ∧
      (s.hw.holds tok (twEng e) = false → ((s.hw.arb tok).pend.any (fun q => q.who == twEng e)) = true →
        exec (.ttLineFillDone e ln data ue) s = s.to s.hw.settle) ∧
      (s.hw.holds tok (twEng e) = false → ((s.hw.arb tok).pend.any (fun q => q.who == twEng e)) = false →
        exec (.ttLineFillDone e ln data ue) s =
          s.to (if g.holds tok (twEng e) then (g.lineIn e ln data ue).tokRel tok (twEng e) else g).settle))) ∧
  (∀ (h : Hw) (e ln : Nat),
    (let g := h.lineIn e ln true false
     h.ttRange e (ln * 256) 1 = true →
     (g.eng e).data.head? = some (ln, (List.range 256).map (fun k => (h.byte (ln * 256 + k)).toNat)) ∧ (g.eng e).data.length ≤ 8 ∧
     (∀ x, x ∈ (g.eng e).data → x.1 = ln ∨ x ∈ (h.eng e).data) ∧
     (∀ m, h.markLine e = some m → (h.eng e).data.any (fun x => x.1 == m) = true → (g.eng e).data.any (fun x => x.1 == m) = true) ∧
     ((h.eng e).need = some (ln, true) → g.get TT_STAT_STATE e = 1 ∧ (g.eng e).need = none) ∧
     ((h.eng e).need ≠ some (ln, true) → g.get TT_STAT_STATE e = h.get TT_STAT_STATE e) ∧ g.mem = h.mem ∧ g.units = h.units) ∧
    (∀ ue, (ue = true ∨ h.ttRange e (ln * 256) 1 = false) →
     let g := ((h.modE e (fun x => { x with need := none })).engState e 1).setPc e (h.eng e).needPc
     let code := if h.ttRange e (ln * 256) 1 then 10 else 3
     ((h.eng e).need = some (ln, true) →
      (∀ a, (h.eng e).ready = some a →
        h.lineIn e ln true ue = g.modE e (fun x => { x with ready := some { a with fin := .err code, entry := none } })) ∧
      ((h.eng e).ready = none → h.lineIn e ln true ue = (g.modAcc e (fun a => { a with fin := .err code })).stepStage e)) ∧
     ((h.eng e).need ≠ some (ln, true) → h.lineIn e ln true ue = h)))

/-! ### Events and trigger pins -/

/-- A local event that comes with at least 16 ticks of lead waits for its due tick, joining one already pending; one that comes late is
dropped, counted and named; one that finds 256 pending is dropped and counted (R241, R243). No more than 256 are ever pending. A raise by
a host (R242) for now shows its event and RESULT 4 for a number above 319, and raises a local event, RESULT 0, due 32 ticks later. -/
def Obligations.EventsAreScheduledWithTheirLead : Prop :=
  (∀ (s : State) (ev due t : Nat), s.on → s.hw.now ≤ t → ev < 64 →
    let h := { s.hw with now := t }
    ((ev, due) ∈ s.hw.evs → exec (.eventSchedule ev due t) s = s.to h) ∧
    ((ev, due) ∉ s.hw.evs → due < t + 16 →
      exec (.eventSchedule ev due t) s = s.to ((h.inc STN_EV_LATE_COUNT 0).put STN_EV_STAT_LATE_EV 0 ev)) ∧
    ((ev, due) ∉ s.hw.evs → t + 16 ≤ due → 256 ≤ s.hw.evs.length → exec (.eventSchedule ev due t) s = s.to (h.inc STN_EV_OVF_COUNT 0)) ∧
    ((ev, due) ∉ s.hw.evs → t + 16 ≤ due → s.hw.evs.length < 256 →
      exec (.eventSchedule ev due t) s = s.to { h with evs := s.hw.evs ++ [(ev, due)] }) ∧
    (s.hw.evs.length ≤ 256 → (h.evSchedule ev due).evs.length ≤ 256)) ∧
  (∀ (s : State) (m : Master) (ev : Nat), s.hears m → ev < 512 →
    let h := (s.hw.put STN_EV_RAISE_EV 0 ev).putB STN_EV_RAISE_NOW 0 true
    (319 < ev → exec (.evRaise m ev true) s = s.wrote m (h.put STN_EV_RAISE_RESULT 0 4)) ∧
    (ev < 64 → exec (.evRaise m ev true) s = s.wrote m ((h.put STN_EV_RAISE_RESULT 0 0).evSchedule ev (s.hw.now + 32))))

/-- When event k acts, bit k of STN_EV_SEEN is set (R245), and every other bit stands; it is no longer pending. -/
def Obligations.AnEventThatActsIsSeen : Prop :=
  ∀ (s : State) (k due j : Nat), s.on → k < 320 → (k, due) ∈ s.hw.evs → s.hw.now ≤ due → (k < 64 ∨ (s.hw.mute = false ∧ s.hw.levOn (k - 64) = true)) →
    exec (.eventAct k due) s = s.to (s.hw.evAct k due) ∧
    bit ((s.hw.evAct k due).get STN_EV_SEEN_SEEN 0 (k / 32)) (k % 32) = true ∧
    (j < 320 → j ≠ k → bit ((s.hw.evAct k due).get STN_EV_SEEN_SEEN 0 (j / 32)) (j % 32) =
      bit (s.hw.get STN_EV_SEEN_SEEN 0 (j / 32)) (j % 32)) ∧
    (s.hw.evAct k due).now = due ∧ (s.hw.evAct k due).evs = s.hw.evs.erase (k, due)

/-- Trigger pins (R247): a qualified rising edge, where EDGE selects those, shows in STN_TRIG_STAT and raises EV due 32 ticks later; the
first level after a change of DIR is no edge; an output, a pin of a head die that does not serve (R12), a level that stands already and
one within FILT + 1 ticks of the last raise nothing. An output's pulse ends at its time. A write that changes DIR cuts the pulse and drops
the level known. -/
def Obligations.TriggerPinsRaiseAndDrive : Prop :=
  ∀ (s : State) (m : Master) (k q v : Nat) (lvl : Bool), s.on → k < 8 →
    (let h := ({ s.hw with now := q, trigLvl := tset s.hw.trigLvl k lvl, trigAt := tset s.hw.trigAt k q, trigNew := s.hw.trigNew.filter (· != k) }).setTrig k lvl
     s.hw.dieUp (k / 4) = true → s.hw.flag STN_TRIG_CFG_DIR 0 k = false → s.hw.now ≤ q →
      (∀ a, tfind s.hw.trigAt k = some a → a + s.hw.get STN_TRIG_CFG_FILT 0 k + 1 ≤ q) → tfind s.hw.trigLvl k ≠ some lvl →
      s.hw.trigNew.contains k = true → exec (.trigEdgeQualify k lvl q) s = s.to h) ∧
    (let h := ({ s.hw with now := q, trigLvl := tset s.hw.trigLvl k true, trigAt := tset s.hw.trigAt k q, trigNew := s.hw.trigNew.filter (· != k) }).setTrig k true
     s.hw.dieUp (k / 4) = true → s.hw.flag STN_TRIG_CFG_DIR 0 k = false → s.hw.now ≤ q →
      (∀ a, tfind s.hw.trigAt k = some a → a + s.hw.get STN_TRIG_CFG_FILT 0 k + 1 ≤ q) → tfind s.hw.trigLvl k ≠ some true →
      s.hw.trigNew.contains k = false → s.hw.get STN_TRIG_CFG_EDGE 0 k = 1 →
      exec (.trigEdgeQualify k true q) s = s.to ((h.put STN_TRIG_STAT_EDGES 0 (setBit (h.get STN_TRIG_STAT_EDGES 0) k)).evRaise
        (h.get STN_TRIG_CFG_EV 0 k) (q + 32))) ∧
    ((s.hw.flag STN_TRIG_CFG_DIR 0 k = true ∨ s.hw.dieUp (k / 4) = false ∨ tfind s.hw.trigLvl k = some lvl ∨
      (∃ a, tfind s.hw.trigAt k = some a ∧ q < a + s.hw.get STN_TRIG_CFG_FILT 0 k + 1)) → exec (.trigEdgeQualify k lvl q) s = s.to s.hw) ∧
    (s.hw.dieUp (k / 4) = true → tfind s.hw.trigEnd k = some q → s.hw.now ≤ q → s.hw.flag STN_TRIG_CFG_DIR 0 k = true →
      exec (.trigPulseEnd k q) s = s.to (({ s.hw with now := q, trigEnd := tdel s.hw.trigEnd k }).setTrig k false)) ∧
    (s.hw.servesMaster m = true → exec (.trigDirWrite m k v) s = s.wrote m (s.hw.trigCfg k v)) ∧
    (s.hw.get STN_TRIG_CFG_DIR 0 k ≠ bits v 0 0 → tfind (s.hw.trigCfg k v).trigEnd k = none ∧ tfind (s.hw.trigCfg k v).trigLvl k = none ∧
      (s.hw.trigCfg k v).trigNew.contains k = true)

/-! ### Records, queues and DDR5 -/

/-- Queue registers' commands. A write of Q_CFG that enables a queue which is off sets its fields and, unless the settings are refused
(BADCFG), starts it empty with a new generation; one that turns a queue off leaves it empty; one that would change the format of a queue
that is on is ignored, CFG_IGN set (R272, R273). FLUSH makes RP equal to WP, with RESULT 2 on a queue that is off; a release moves RP to
RP + d where d is a multiple of the packet size that WP covers, and on a queue that is off is ignored with REL_IGN (R279). Records leave
in order: the first record of a die goes to its queue, or is counted as discarded where that queue is off (R271, R274); packets for DDR5
move one at a time from the staging buffer (R275), with the Twill path's token at rank 6, which is requested where the queue does not hold
it and released after the move (R18, R35). -/
def Obligations.QueuesStartFlushReleaseAndFill : Prop :=
  (∀ (s : State) (m : Master) (q v : Nat), s.hears m → s.hw.hasQueue q = true →
    (s.hw.qOn q = false → bit v 2 = true → let h := (s.hw.qCfgFields q v).put Q_CFG_EN q 0
      (h.qRefused q = true → exec (.queueEnable m q v) s = s.wrote m (h.put Q_STAT_BADCFG q 1)) ∧
      (h.qRefused q = false → exec (.queueEnable m q v) s = s.wrote m
        (((((h.put Q_CFG_EN q 1).put Q_STAT_EN_ACT q 1).qSet q 0 0).modQ q (fun x => { x with stage := [], ring := (((h.put Q_CFG_EN q 1).put Q_STAT_EN_ACT q 1).qSet q 0 0).flag Q_CFG_SPILL q })).qGen q))) ∧
    (s.hw.qOn q = true → bit v 2 = false → bits v 1 0 = s.hw.get Q_CFG_FMT q → bits v 3 3 = s.hw.get Q_CFG_SPILL q →
      bits v 12 8 = s.hw.get Q_CFG_LOG2 q → bits v 25 16 = s.hw.get Q_CFG_BASE q → exec (.queueDisable m q v) s = s.wrote m
      (((((s.hw.put Q_CFG_EN q 0).put Q_STAT_EN_ACT q 0).qSet q 0 0).modQ q (fun x => { x with stage := [], ring := false })).qGen q)) ∧
    (s.hw.qOn q = true → bit v 2 = false → bits v 1 0 ≠ s.hw.get Q_CFG_FMT q →
      exec (.queueDisable m q v) s = s.wrote m (s.hw.put Q_STAT_CFG_IGN q 1)) ∧
    (s.hw.qOn q = true → exec (.queueFlush m q) s =
      s.wrote m (((s.hw.qCheck q).qSet q ((s.hw.qCheck q).que q).wp ((s.hw.qCheck q).que q).wp).put Q_CMD_RESULT q 0)) ∧
    (s.hw.qOn q = false → exec (.queueFlush m q) s = s.wrote m (s.hw.put Q_CMD_RESULT q 2) ∧
      exec (.queueRelease m q v) s = s.wrote m (s.hw.put Q_STAT_REL_IGN q 1)) ∧
    (∀ d, s.hw.qOn q = true → s.hw.qCheck q = s.hw → (s.hw.que q).rp + d ≤ (s.hw.que q).wp → (s.hw.que q).wp < 2 ^ 64 → d < 2 ^ 31 →
      d % s.hw.qP q = 0 → exec (.queueRelease m q (((s.hw.que q).rp + d) % 2 ^ 32)) s =
        s.wrote m (s.hw.qSet q (s.hw.que q).wp ((s.hw.que q).rp + d)))) ∧
  (∀ (s : State) (d q : Nat) (r : Rec) (w : List Nat) (rest : List (List Nat)), s.on →
    (s.hw.dieUp d = true → firstRec (s.hw.die d).recs = some r →
      let h := s.hw.modD d (fun x => { x with recs := x.recs.erase r })
      (h.qOn (d * 64 + r.q) = true →
        exec (.recordPlace d) s = s.to (h.qPlace (d * 64 + r.q) (packet (h.get Q_CFG_FMT (d * 64 + r.q)) r.words))) ∧
      (h.qOn (d * 64 + r.q) = false → exec (.recordPlace d) s = s.to (h.inc DIE_REC_DISC_COUNT d))) ∧
    (firstRec (s.hw.die d).recs = none → exec (.recordPlace d) s = s.to s.hw) ∧
    ((s.hw.que q).stage = w :: rest → (s.hw.que q).ring = true → s.hw.qOn q = true →
      ∀ ch, ddrChan (s.hw.get Q_LR_BASE_ADDR q) = some ch →
      let tok := Res.twill (q / 64) ch
      let put := fun (g : Hw) => ((g.modQ q (fun x => { x with stage := rest })).qStoreAt q w).tokRel tok (twQueue q)
      let g := s.hw.tokReq tok { who := twQueue q, rank := 6 }
      (s.hw.holds tok (twQueue q) = true → exec (.spillMove q) s = s.to (put s.hw).settle) ∧
      (s.hw.holds tok (twQueue q) = false → ((s.hw.arb tok).pend.any (fun x => x.who == twQueue q)) = true →
        exec (.spillMove q) s = s.to s.hw.settle) ∧
      (s.hw.holds tok (twQueue q) = false → ((s.hw.arb tok).pend.any (fun x => x.who == twQueue q)) = false →
        exec (.spillMove q) s = s.to (if g.holds tok (twQueue q) then put g else g).settle)) ∧
    ((s.hw.que q).stage = [] → exec (.spillMove q) s = s.to s.hw.settle))

/-- A read of the lowest word of Q_HEAD copies the oldest packet, and one of its last word releases it, through the master's snapshot slot
(R276, R277). DROP_REST by a master that holds no copy of this queue has RESULT 1; by its holder it pops the packet and releases the slot
(R278). A copy's packet is popped only while the queue is on, of the same generation, and has the packet at RP; RP then advances by one
packet (R277). Otherwise nothing moves. -/
def Obligations.HeadsArePoppedOncePerPacket : Prop :=
  (∀ (s : State) (m : Master) (q : Nat) (ecc : List (Nat × Bool)), s.hears m → s.hw.hasQueue q = true →
    (let a := 0x100000 + q / 64 * 0x100000 + 0x50000 + q % 64 * 0x100 + 0x80
     exec (.headCopy m q ecc) s = s.to (((s.hw.meets ecc).snapCmd m a true).settle) ∧
     exec (.headPop m q) s = s.to ((s.hw.snapCmd m (a + 4 * (s.hw.qP q / 4 - 1)) (decide (s.hw.qP q / 4 - 1 = 0))).settle)) ∧
    (s.hw.slotOf (q / 64) (masterNo m) = none → exec (.dropRest m q) s = s.wrote m (s.hw.put Q_CMD_RESULT q 1)) ∧
    (∀ sl g rp, s.hw.slotOf (q / 64) (masterNo m) = some sl → sl.blk = .queue → sl.inst = q → sl.off = 0x80 → sl.head = some (g, rp) →
      exec (.dropRest m q) s = s.wrote m (((s.hw.qPop q g rp).put Q_CMD_RESULT q 0).slotRelease (q / 64) (masterNo m)))) ∧
  (∀ (h : Hw) (q g rp : Nat), (h.que q).ok = true →
    (h.qOn q = true → 0 < h.qLevel q → h.get Q_STAT_GEN q = g → (h.que q).rp = rp →
      h.qPop q g rp = h.qSet q (h.que q).wp (rp + h.qP q) ∧ ((h.qPop q g rp).que q).rp = (rp + h.qP q) % 2 ^ 64) ∧
    ((h.qOn q = false ∨ h.qLevel q = 0 ∨ h.get Q_STAT_GEN q ≠ g ∨ (h.que q).rp ≠ rp) → h.qPop q g rp = h))

/-- DDR5 training (R288, R289): TRAIN sets BUSY, clears TRAINED, takes the capacity away and keeps the settings that stand; its end shows
RESULT 0 with the capacity that they name, 1 where it fails, 2 where they name no possible capacity. A scrub pass, with the Twill path's
token at rank 6 (R18, R35), counts the correctable words it meets and logs the others (R287). -/
def Obligations.Ddr5TrainsAndScrubs : Prop :=
  ∀ (s : State) (m : Master) (c : Nat) (ok : Bool) (ecc : List (Nat × Bool)), s.hears m → c < 2 →
    (s.hw.dieUp c = true → s.hw.flag DDR_STAT_BUSY c = false → exec (.ddrTrain m c) s = s.wrote m
      ((((((s.hw.put DDR_CMD_TRAIN c 1).put DDR_STAT_BUSY c 1).put DDR_STAT_TRAINED c 0).put DDR_CAP_MIB c 0).modD c
        (fun x => { x with ddrCfg := some ((((s.hw.put DDR_CMD_TRAIN c 1).put DDR_STAT_BUSY c 1).put DDR_STAT_TRAINED c 0).ddrCfgWord c) })).ringsLost
          c)) ∧
    (s.hw.flag DDR_STAT_BUSY c = false → exec (.ddrTrainDone c ok) s = s.to s.hw) ∧
    (s.hw.flag DDR_STAT_BUSY c = true → let h := (s.hw.put DDR_CMD_TRAIN c 0).put DDR_STAT_BUSY c 0
      let cfg := (s.hw.die c).ddrCfg.getD (h.ddrCfgWord c)
      let mib := ddrMib (bits cfg 3 3) (bits cfg 4 4) (bits cfg 6 5)
      (4 < bits cfg 2 0 → exec (.ddrTrainDone c ok) s = s.to (h.put DDR_STAT_RESULT c 2)) ∧
      (bits cfg 2 0 ≤ 4 → mib ≤ 65536 → exec (.ddrTrainDone c false) s = s.to (h.put DDR_STAT_RESULT c 1)) ∧
      (bits cfg 2 0 ≤ 4 → mib ≤ 65536 → exec (.ddrTrainDone c true) s =
        s.to (((h.put DDR_STAT_RESULT c 0).put DDR_STAT_TRAINED c 1).put DDR_CAP_MIB c mib))) ∧
    (let tok := Res.twill c c
     let pass := fun (g : Hw) => (g.each (ecc.filter (fun e => ddrChan e.1 == some c))
       (fun h e => if e.2 then h.eccUe e.1 else h.eccCe e.1)).tokRel tok twScrub
     let h := s.hw.meets ecc
     let g := h.tokReq tok { who := twScrub, rank := 6 }
     0 < s.hw.get DDR_SCRUB_PERIOD c → 0 < s.hw.ddrCap c →
      (h.holds tok twScrub = true → exec (.scrubPass c ecc) s = s.to (pass h).settle) ∧
      (h.holds tok twScrub = false → ((h.arb tok).pend.any (fun x => x.who == twScrub)) = true → exec (.scrubPass c ecc) s = s.to h.settle) ∧
      (h.holds tok twScrub = false → ((h.arb tok).pend.any (fun x => x.who == twScrub)) = false →
        exec (.scrubPass c ecc) s = s.to (if g.holds tok twScrub then pass g else g).settle)) ∧
    (s.hw.get DDR_SCRUB_PERIOD c = 0 → exec (.scrubPass c ecc) s = s.to (s.hw.meets ecc).settle)

/-! ### Calibration and sidings -/

/-- Calibration commands written to CAL_CMD (R306, R311 to R314, R316) show themselves with their operands. A visit has RESULT 1 for a
channel above 33, 2 for a siding in use, 4 while a command runs, and else starts, BUSY; a stand-in has RESULT 1 for a channel above 31, a
return 1 where no siding stands in for the channel, an external standard 2 where no siding is free, a factory store 3 with no stores left;
a store starts, BUSY, or has RESULT 4 while a command runs. Each is answered. -/
def Obligations.CalibrationCommandsShowTheirResult : Prop :=
  ∀ (s : State) (m : Master) (d ch sd pt : Nat) (force : Bool), s.hears m → s.hw.dieUp d = true → ch < 64 → sd < 2 → pt < 2 →
    (let h := s.hw.calCmdOp d 1 ch; let k := s.hw.sidFor d (unitAt d ch) 0
     (33 < ch → exec (.calVisit m d ch) s = s.wrote m (h.put CAL_CMD_RESULT d 1)) ∧
     (ch ≤ 33 → (h.visit (d * 2 + k)).phase ≠ 0 → exec (.calVisit m d ch) s = s.wrote m (h.put CAL_CMD_RESULT d 2)) ∧
     (ch ≤ 33 → (h.visit (d * 2 + k)).phase = 0 → h.flag CAL_CMD_BUSY d = true → exec (.calVisit m d ch) s = s.wrote m (h.put CAL_CMD_RESULT d 4)) ∧
     (ch ≤ 33 → (h.visit (d * 2 + k)).phase = 0 → h.flag CAL_CMD_BUSY d = false →
       exec (.calVisit m d ch) s = s.wrote m (((h.put CAL_CMD_RESULT d 0).put CAL_CMD_BUSY d 1).visStart d k (unitAt d ch) true))) ∧
    exec (.calStandin m d ch sd force) s = s.wrote m (s.hw.calStandin d ch sd force) ∧
    (31 < ch → (s.hw.calStandin d ch sd force).get CAL_CMD_RESULT d = 1) ∧
    exec (.calReturn m d ch) s = s.wrote m (s.hw.calReturn d ch) ∧
    (([16 + d * 2, 17 + d * 2].find? (fun k => ((s.hw.calCmdOp d 4 ch).visit k).u == unitAt d ch && ((s.hw.calCmdOp d 4 ch).visit k).phase == 7))
      = none → s.hw.calReturn d ch = (s.hw.calCmdOp d 4 ch).put CAL_CMD_RESULT d 1) ∧
    exec (.calExtStdv m d) s = s.wrote m (s.hw.calExtStdv d) ∧
    (s.hw.sidFree d 0 = false → s.hw.sidFree d 1 = false → (s.hw.calExtStdv d).get CAL_CMD_RESULT d = 2) ∧
    exec (.calExtRange m d pt) s = s.wrote m (s.hw.extRange d pt) ∧
    exec (.calFactoryStore m d) s = s.wrote m (s.hw.calFactoryStore d) ∧
    (s.hw.get CAL_NVM_STAT_F_LEFT d = 0 → (s.hw.calFactoryStore d).get CAL_CMD_RESULT d = 3) ∧
    (s.hw.flag CAL_NVM_STAT_STORING d = false → s.hw.flag CAL_CMD_BUSY d = false → exec (.calStore m d) s =
      s.wrote m ((((s.hw.put CAL_CMD_OP d 2).put CAL_CMD_RESULT d 0).put CAL_CMD_BUSY d 1).storeBegin d (s.hw.storeSlot d) true)) ∧
    (s.hw.flag CAL_CMD_BUSY d = true → exec (.calStore m d) s = s.wrote m (s.hw.put CAL_CMD_RESULT d 4))

/-- A visit of the rota or of a command goes through its phases (R298 to R301, R304, R307, R310): its start, the siding's token, the
shadow, the handover, its calibration steps, the return; where a token or agreement does not come in time it fails with its reason. A
store of calibration falls due so many hours after the last (R316), and the NVM's holder programs its pages one after another (R315). -/
def Obligations.VisitsAndStoresGoThroughTheirPhases : Prop :=
  (∀ (s : State) (d sd k t n : Nat) (own other : Sample), s.on →
    (let l := s.hw.rotaList d
     s.hw.dieUp d = true → s.hw.flag CAL_ROTA_CFG_EN d = true → (s.hw.die d).rotaAt = none → (s.hw.die d).rotaCh = none → s.hw.now ≤ t →
      l ≠ [] → let j := s.hw.sidFor d (unitAt d (l.headD 0)) (1 - (s.hw.die d).rotaSid % 2)
      (s.hw.visit (d * 2 + j)).phase = 0 → exec (.rotaVisit d t) s = s.to ((({ s.hw with now := t }).modD d
        (fun x => { x with rotaCh := some (l.headD 0), rotaAt := some t, rotaSid := j })).visStart d j (unitAt d (l.headD 0)) false)) ∧
    ((s.hw.visit (d * 2 + sd % 2)).phase = 2 → s.hw.holds (visTok (d * 2 + sd % 2)) (visWho (d * 2 + sd % 2)) = false →
      (s.hw.visit (d * 2 + sd % 2)).at_ + t1s ≤ t → s.hw.now ≤ t →
      exec (.sidingTokenTimeout d sd t) s = s.to (({ s.hw with now := t }).visFail (d * 2 + sd % 2) 1 6)) ∧
    (s.hw.visIn d sd 2 = some k → isSiding (s.hw.visit k).u = false → s.hw.holds (visTok k) (visWho k) = true →
      s.hw.st (s.hw.visit k).u = stOPEN ∨ s.hw.st (s.hw.visit k).u = stCLOSED → s.hw.servedBy (s.hw.visit k).u = none →
      (s.hw.unit (s.hw.visit k).u).shadow = none → s.hw.rngBusy (s.hw.visit k).u = false →
      exec (.takeoverStart d sd) s = s.to ((((s.hw.modVis k (fun v => { v with
        phase := 3, taken := true, at_ := s.hw.now, periods := 0, diffs := [], tolBad := false })).put CAL_SID_PHASE d 1 (visSid k)).put
        CAL_SID_CH d (chanOf (s.hw.visit k).u) (visSid k)).modU (s.hw.visit k).u (fun x => { x with shadow := some k }))) ∧
    (s.hw.visIn d sd 2 = some k → isSiding (s.hw.visit k).u = false → s.hw.holds (visTok k) (visWho k) = true →
      ((s.hw.st (s.hw.visit k).u ≠ stOPEN ∧ s.hw.st (s.hw.visit k).u ≠ stCLOSED) ∨ s.hw.servedBy (s.hw.visit k).u ≠ none ∨
        (s.hw.unit (s.hw.visit k).u).shadow ≠ none) → exec (.takeoverStart d sd) s = s.to (s.hw.visFail k 1 5)) ∧
    (s.hw.visIn d sd 3 = some k → let u := (s.hw.visit k).u; let g := s.hw.finishTick (s.hw.headOf u)
      s.hw.tickOk (s.hw.headOf u) n = true → g.rngBusy u = false →
      (((g.visit k).force = true ∧ g.st u = stOPEN) ∨
        ((g.visit k).force = false ∧ (g.st u = stOPEN ∨ g.st u = stCLOSED) ∧ g.tkoOk k n own other = true)) →
      exec (.handover d sd n own other) s = s.to ((g.handOver k n).tkoReactAll (s.hw.headOf u))) ∧
    (s.hw.visIn d sd 3 = some k → (s.hw.visit k).at_ + s.hw.get CAL_TKO_WAIT d * t1s ≤ t → s.hw.now ≤ t →
      exec (.takeoverTimeout d sd t) s = s.to (({ s.hw with now := t }).visFail k 1 (if (s.hw.visit k).tolBad then 9 else 11))) ∧
    (s.hw.visIn d sd 6 = some k → let u := (s.hw.visit k).u; let g := s.hw.finishTick (s.hw.headOf u)
      s.hw.tickOk (s.hw.headOf u) n = true → g.st (g.visit k).u = stSIDED → g.tkoOk k n own other = true →
      exec (.sidingReturn d sd n own other) s = s.to ((g.sidReturn k n).tkoReactAll (s.hw.headOf u))) ∧
    (s.hw.visIn d sd 6 = some k → (s.hw.visit k).tolBad = true → (s.hw.visit k).kind ≠ 0 →
      (s.hw.visit k).at_ + s.hw.get CAL_TKO_WAIT d * t1s ≤ t → s.hw.now ≤ t → exec (.returnTimeout d sd t) s =
        s.to ((({ s.hw with now := t }).modVis k (fun v => { v with words := [], ok := false })).startReturn k)) ∧
    (∀ outs i r, let k := d * 2 + sd % 2; let v := s.hw.visit k; let h := { s.hw with now := max s.hw.now (v.stepAt.getD s.hw.now + 4915200) }
      v.steps = (8, i) :: r → r ≠ [] → v.phase = 5 → s.hw.holds (.cal d) (visSid k) = true → outs.length = 16 →
      exec (.calStep d sd outs false) s = s.to (((((h.tokRel (.cal d) (visSid k)).modVis k (fun v => { v with steps := r, stepAt := none, got := tset v.got (8, i) (meanOf (outs.map (fun x => x.1)), meanOf (outs.map (fun x => x.2.1)), meanOf (outs.map (fun x => x.2.2))) })).calBus
        k).calBusGrant d)))) ∧
  (∀ (s : State) (d t : Nat) (ok : Bool) (q : Req) (r : List Req), s.on →
    (s.hw.dieUp d = true → s.hw.get CAL_STORE_CFG_HOURS d ≠ 0 → s.hw.now ≤ t →
      (s.hw.die d).storedAt + s.hw.get CAL_STORE_CFG_HOURS d * tHour ≤ t → s.hw.flag CAL_NVM_STAT_STORING d = false →
      exec (.storeDue d t) s = s.to (({ s.hw with now := t }).storeBegin d (({ s.hw with now := t }).storeSlot d) false)) ∧
    (s.hw.get CAL_STORE_CFG_HOURS d = 0 → exec (.storeDue d t) s = s.to s.hw) ∧
    ((s.hw.arb (.nvm d)).hold = q :: r → q.who = 1 → exec (.nvmPageDone d ok) s = s.to (s.hw.ceilPage d)) ∧
    ((s.hw.arb (.nvm d)).hold = q :: r → q.who = 2 → exec (.nvmPageDone d ok) s = s.to (s.hw.storePage d ok)) ∧
    ((s.hw.arb (.nvm d)).hold = q :: r → q.who = 3 → d = s.hw.logDie → exec (.nvmPageDone d ok) s = s.to s.hw.auditWrite) ∧
    ((s.hw.arb (.nvm d)).hold = [] → exec (.nvmPageDone d ok) s = s.to s.hw))

/-! ### The Interlocking and the operator's side -/

/-- The inputs of the panel (R322 to R325): a level counts once it has held for its time: 10 µs for an opening, 50 ms for a closing, 100
ms for a disagreement, the debounce time, 5 to 50 ms, for a key, ABORT or a fixture; sooner it does nothing. An opening asserts ILK_OPEN,
counts, starts T_SAFE on every die whose Interlocking is live and gives every unit the cause 1; a press of ABORT the cause 2; a fixture
that goes away the cause 3 for the units whose FIXMASK names it. After a disagreement the Interlocking stays open until both contacts have
been seen open. -/
def Obligations.PanelInputsAct : Prop :=
  ∀ (s : State) (t k j : Nat) (i0 i1 both : Bool), s.on → s.hw.now ≤ t → k < 5 → j < 8 → s.hw.sensed = true →
    (let g := ({ s.hw with discLock := false }.lidRead t false false).put STN_PANEL_ILK_OK 0 0
     let f := (g.ilkLine true).incSat STN_ILK_CNT_OPENS 0
     s.hw.lid.open0 + t10us ≤ t → s.hw.lid.open1 + t10us ≤ t →
      (g.headLine (fun x => x.ilkA) = false → exec (.ilkOpening t false false true) s = s.to ((f.each f.liveDies
        (fun h d => h.modD d (fun x => { x with ilkBack := some (t + h.tSafe d) }))).causeAll 1 t (fun _ => true))) ∧
      (g.headLine (fun x => x.ilkA) = true → exec (.ilkOpening t false false true) s = s.to g)) ∧
    (t < s.hw.lid.open0 + t10us → t < s.hw.lid.open1 + t10us → exec (.ilkOpening t i0 i1 both) s = s.to s.hw) ∧
    (exec (.ilkOpening t true true both) s = s.to s.hw) ∧
    (let g := s.hw.lidRead t true true
     s.hw.lid.shut0 + 50 * t1ms ≤ t → s.hw.lid.shut1 + 50 * t1ms ≤ t →
      (s.hw.discLock = false → exec (.ilkClosing t) s = s.to ((g.put STN_PANEL_ILK_OK 0 1).ilkLine false).enterRun) ∧
      (s.hw.discLock = true → exec (.ilkClosing t) s = s.to g.enterRun)) ∧
    ((t < s.hw.lid.shut0 + 50 * t1ms ∨ t < s.hw.lid.shut1 + 50 * t1ms) → exec (.ilkClosing t) s = s.to s.hw.enterRun) ∧
    (s.hw.lid.apart + 100 * t1ms ≤ t → exec (.ilkDiscrepancy t i0) s =
      s.to (({ s.hw with discLock := true }.lidRead t i0 (!i0)).put STN_PANEL_DISC 0 1)) ∧
    (t < s.hw.lid.apart + 100 * t1ms → exec (.ilkDiscrepancy t i0) s = s.to s.hw) ∧
    (5 * t1ms ≤ s.hw.debounce ∧ s.hw.debounce ≤ 50 * t1ms ∧ (5 ≤ s.hw.get STN_KEY_CFG_DEB 0 → s.hw.get STN_KEY_CFG_DEB 0 ≤ 50 →
      s.hw.debounce = s.hw.get STN_KEY_CFG_DEB 0 * t1ms)) ∧
    (tget s.hw.keyAt (keyPin k) 0 + s.hw.debounce ≤ t → let g := s.hw.pinMark (keyPin k) t
      (s.hw.keyDown k = false → exec (.keyPress k t) s = s.to ((g.keyShow k true).keyEvent (keyPin k) t)) ∧
      (s.hw.keyDown k = true → exec (.keyRelease k t) s = s.to (g.keyShow k false))) ∧
    (t < tget s.hw.keyAt (keyPin k) 0 + s.hw.debounce → exec (.keyPress k t) s = s.to s.hw ∧ exec (.keyRelease k t) s = s.to s.hw) ∧
    (tget s.hw.keyAt 1 0 + s.hw.debounce ≤ t → let g := s.hw.pinMark 1 t
      (s.hw.flag STN_PANEL_ABORT 0 = false → let f := ((g.put STN_PANEL_ABORT 0 1).incSat STN_ILK_CNT_ABORTS 0).abortLine true
        exec (.abortPress t) s = s.to (((f.each f.liveDies (fun h d => h.modD d (fun x => { x with abortBack := some (t + h.tSafe d) }))).causeAll
          2 t (fun _ => true)).keyEvent 1 t)) ∧
      (s.hw.flag STN_PANEL_ABORT 0 = true → exec (.abortRelease t) s = s.to ((g.put STN_PANEL_ABORT 0 0).abortLine false))) ∧
    (t < tget s.hw.keyAt 1 0 + s.hw.debounce → exec (.abortPress t) s = s.to s.hw ∧ exec (.abortRelease t) s = s.to s.hw) ∧
    (tget s.hw.keyAt (8 + j) 0 + s.hw.debounce ≤ t → let g := s.hw.pinMark (8 + j) t; let fix := s.hw.get STN_PANEL_FIX 0
      (bit fix j = true → let f := g.put STN_PANEL_FIX 0 (clrBit fix j)
        exec (.fixAbsent j t) s = s.to (f.causeAll 3 t (fun u => (f.tree u).any (fun x => bit (f.get U_ILK_CFG_FIXMASK x) j)))) ∧
      (bit fix j = false → exec (.fixPresent j t) s = s.to (g.put STN_PANEL_FIX 0 (setBit fix j)))) ∧
    (t < tget s.hw.keyAt (8 + j) 0 + s.hw.debounce → exec (.fixAbsent j t) s = s.to s.hw ∧ exec (.fixPresent j t) s = s.to s.hw)

/-- At T_SAFE after ILK_OPEN was asserted the backstop asserts a die's ISO_N while the line is still asserted, and BACKSTOP shows if it
had been released (R335). At any other time it does nothing. T_SAFE counts in steps of 100 µs, from 1 to 100: a TSAFE of 0 acts as 1, and
values above 100 act as 100 (R336). A step is 24,576 ticks. -/
def Obligations.BackstopIsolatesAtTSafe : Prop :=
  (∀ (s : State) (d t : Nat), s.on → s.hw.now ≤ t →
    ((s.hw.die d).ilkBack = some t → s.hw.flag ILK_STAT_ILK_OPEN d = true → s.hw.flag ILK_STAT_ISO_REL d = true →
      let h := (((({ s.hw with now := t }).put ILK_STAT_ISO_REL d 0).modD d (fun x => { x with isoDue := none })).put ILK_STAT_BACKSTOP d 1)
      exec (.isoBackstop d t) s = s.to h ∧ h.flag ILK_STAT_ISO_REL d = false ∧ h.flag ILK_STAT_BACKSTOP d = true) ∧
    ((s.hw.die d).ilkBack ≠ some t → (s.hw.die d).abortBack ≠ some t → exec (.isoBackstop d t) s = s.to s.hw)) ∧
  (∀ (h : Hw) (d : Nat), 24576 ≤ h.tSafe d ∧ h.tSafe d ≤ 100 * 24576 ∧
    (h.get ILK_CFG_TSAFE d = 0 → h.tSafe d = 24576) ∧ (100 < h.get ILK_CFG_TSAFE d → h.tSafe d = 100 * 24576) ∧
    (1 ≤ h.get ILK_CFG_TSAFE d → h.get ILK_CFG_TSAFE d ≤ 100 → h.tSafe d = h.get ILK_CFG_TSAFE d * 24576))

/-- Connecting and isolating go through their ticks (R328, R329, R332, R333): before a tick the connect pattern is requested, the settled
check begins, a cause of at least 30 ticks before becomes due, for the tick to take the unit to SAFING by; a finished isolation makes it
ISOLATED; after a tick the check's result and the isolation request follow. Where nothing is due the command passes. -/
def Obligations.ConnectingAndIsolatingGoByTicks : Prop :=
  ∀ (s : State) (u n : Nat), s.on → (s.hw.unit u).tail = false →
    (s.hw.tickOk u n = true →
      (s.hw.chkLatchDue u n = true → exec (.checkLatchRequest u n) s = s.to ((s.hw.chkLatchReq u n).tkoReactAll u)) ∧
      (s.hw.chkSettledDue u n = true → exec (.checkSettled u n) s = s.to ((s.hw.each (s.hw.tree u) (fun h m => h.modU m (fun x =>
        { x with chk := { x.chk with phase := 4, start := n, k := 0, sp := 0, sm := 0, cm := false, ovr := false } }))).tkoReactAll u)) ∧
      (∀ c t, (s.hw.unit u).safe.cause = some (c, t) → t + 30 ≤ n → exec (.unitSafing u n) s = s.to ((s.hw.modS u (fun x =>
        { x with cause := none, causeDl := 0, due := some (c, x.causeDl) })).tkoReactAll u)) ∧
      (∀ c t, (s.hw.unit u).safe.cause = some (c, t) → n < t + 30 → exec (.unitSafing u n) s = s.to (s.hw.tkoReactAll u)) ∧
      (∀ c dl, (s.hw.unit u).safe.due = some (c, dl) → s.hw.safingDue u n = (s.hw.modS u (fun x => { x with due := none })).isolateReq u n dl c false) ∧
      ((s.hw.unit u).safe.cause = none → exec (.unitSafing u n) s = s.to (s.hw.tkoReactAll u)) ∧
      (s.hw.isolationDone u n = true → exec (.isolationComplete u n) s =
        s.to (((s.hw.isolated u n).each (s.hw.leaves u) (fun h m => h.sidIsolated m n)).tkoReactAll u)) ∧
      (s.hw.isolationDone u n = false → exec (.isolationComplete u n) s = s.to (s.hw.tkoReactAll u))) ∧
    (isUnit u = true → s.hw.runs u = true → s.hw.headOf u = u → (s.hw.unit u).clk.ticked = true →
      (s.hw.chkEnd u = true → exec (.checkResult u) s = s.to (((s.hw.chkResult u).plan u).tkoReactAll u)) ∧
      (s.hw.chkEnd u = false → exec (.checkResult u) s = s.to ((s.hw.plan u).tkoReactAll u)) ∧
      (s.hw.isolationDue u = true → exec (.isolationRequest u) s = s.to (((s.hw.isolationRequest u).plan u).tkoReactAll u)) ∧
      (s.hw.isolationDue u = false → exec (.isolationRequest u) s = s.to ((s.hw.plan u).tkoReactAll u)))

/-! ### Thermal supervision -/

/-- Thermal supervision (R345, R354, R355): a pass asks for the conversion of every sensor in use that is in no emergency, an emergency
pass for the others first; TH_CMD.GO starts one conversion, RESULT 1 for a sensor that is not used and 2 while one runs; a compensation
update, a period of COMPP x 100 ms after the last, asks for its four sensors; the oscillator's correction is taken on a multiple of 4,096
ticks. -/
def Obligations.ThermalSupervisionAsksForConversions : Prop :=
  ∀ (s : State) (m : Master) (d t k : Nat), s.hears m → s.hw.dieUp d = true → s.hw.now ≤ t →
    let h := { s.hw with now := t }
    ((s.hw.die d).passAt = none → s.hw.passOn d = false → 3 ≤ s.hw.get STN_BOOT_STEP 0 → exec (.thermPass d t) s =
      s.to ((h.modD d (fun x => { x with passAt := some t, thQ := x.thQ ++ ((h.thOn d).filter (fun n =>
        !bit (h.get TH_SUP_STAT_EMERG d) n)).map (fun n => (1, n)) })).thIssue 12 d)) ∧
    (let a := s.hw.arb (.aux d)
     let l := (s.hw.thOn d).filter (fun n => bit (s.hw.get TH_SUP_STAT_EMERG d) n &&
       !((s.hw.die d).thQ.any (fun p => p.2 == n) || (a.hold ++ a.pend).any (fun q => q.who == 32 + n || q.who == 16 + n)))
     (s.hw.die d).emergAt = none → l ≠ [] → exec (.thermEmergency d t) s =
      s.to ((h.modD d (fun x => { x with emergAt := some t, thQ := l.map (fun n => (2, n)) ++ x.thQ })).thIssue 12 d)) ∧
    (k < 12 → s.hw.flag TH_CMD_GO d = false → (s.hw.put TH_CMD_SENSOR d k).get TH_SCFG_TYPE (d * 12 + k) ≠ 0 →
      exec (.thConvert m d k) s = s.wrote m ((((s.hw.put TH_CMD_SENSOR d k).put TH_CMD_GO d 1).put TH_CMD_RESULT d 0).tokReq (.aux d)
        { who := 3 * 16 + k, rank := 6 })) ∧
    (k < 16 → s.hw.flag TH_CMD_GO d = true → (11 < k ∨ s.hw.get TH_SCFG_TYPE (d * 12 + k) = 0) →
      exec (.thConvert m d k) s = s.wrote m (s.hw.put TH_CMD_RESULT d 1)) ∧
    (k < 12 → s.hw.flag TH_CMD_GO d = true → s.hw.get TH_SCFG_TYPE (d * 12 + k) ≠ 0 →
      exec (.thConvert m d k) s = s.wrote m (s.hw.put TH_CMD_RESULT d 2)) ∧
    (s.hw.get TH_SUP_CFG_COMPP d ≠ 0 → (s.hw.die d).compW = [] →
      let c := match (s.hw.die d).compAt with | some a => max s.hw.now (a + s.hw.get TH_SUP_CFG_COMPP d * 100 * t1ms) | none => s.hw.now
      exec (.compUpdate d) s = s.to (({ s.hw.modD d (fun x => { x with compAt := some c }) with now := c }).each [0, 1, 2, 3] (fun h n =>
      (h.modD d (fun x => { x with compW := x.compW ++ [n] })).tokReq (.aux d) { who := 4 * 16 + n, rank := 5 }))) ∧
    (∀ v, (s.hw.die s.hw.bootDie).osc = some v → t % 4096 = 0 → s.hw.get STN_METRO_STAT_ACT_SRC 0 = 3 → exec (.oscCompApply t) s =
      s.to ((h.putC TH_COMP_OSC_PPB s.hw.bootDie v).modD s.hw.bootDie (fun x => { x with osc := none })))

/-! ### Start-up, images, identity, counted settings and the audit log -/

/-- Images are loaded by a host in HELD alone (R373): RESULT 1 elsewhere, and 2 for a load from flash where HELD's cause forbids it. An
attestation is answered by the die that signs: RESULT 1 where no die does, 2 while one runs; one that starts is BUSY, and its end shows
the report with its signature, DONE (R375, R376). -/
def Obligations.ImagesLoadAndAttest : Prop :=
  ∀ (s : State) (m : Master) (g : Nat), s.hears m → g < 4 →
    (s.hw.get STN_STATE_STATE 0 ≠ 2 → exec (.imgLoadMemory m) s = s.wrote m (s.hw.put STN_IMG_LOAD_RESULT 0 1) ∧
      exec (.imgLoadFlashA m) s = s.wrote m (s.hw.put STN_IMG_LOAD_RESULT 0 1) ∧
      exec (.imgLoadFlashB m) s = s.wrote m (s.hw.put STN_IMG_LOAD_RESULT 0 1)) ∧
    (s.hw.get STN_STATE_STATE 0 = 2 → 2 ≤ s.hw.get STN_BOOT_HELD_CAUSE 0 → exec (.imgLoadFlashA m) s = s.wrote m (s.hw.put STN_IMG_LOAD_RESULT 0 2)) ∧
    (exec (.imgLoadMemory m) s = s.wrote m (s.hw.imgLoad 1) ∧ exec (.imgLoadFlashA m) s = s.wrote m (s.hw.imgLoad 2) ∧
      exec (.imgLoadFlashB m) s = s.wrote m (s.hw.imgLoad 3)) ∧
    (g = 3 → exec (.attest m g) s = s.wrote m (s.hw.put STN_ATT_CMD_RESULT 0 1)) ∧
    (g = 1 → s.hw.dieUp 0 = true → s.hw.flag STN_ATT_CMD_BUSY 0 = true → exec (.attest m g) s = s.wrote m (s.hw.put STN_ATT_CMD_RESULT 0 2)) ∧
    (g = 1 → s.hw.dieUp 0 = true → s.hw.flag STN_ATT_CMD_BUSY 0 = false →
      let h := ((((s.hw.put STN_ATT_CMD_SIGNER 0 1).put STN_ATT_CMD_BUSY 0 1).put STN_ATT_CMD_DONE 0 0).put STN_ATT_CMD_RESULT 0 0).put STN_ATT_CMD_GO 0 1
      exec (.attest m g) s = s.wrote m { h with boot := { h.boot with att := some (0, h.attWords 0) } }) ∧
    (∀ d w, s.hw.boot.att = some (d, w) →
      let words := w ++ (List.range 24).map (fun i => leAt (Config.ecdsaSign d (sha384 (w.flatMap (bytesOf 4)))) (4 * i) 4)
      let h := ((((s.hw.each words.zipIdx (fun h p => h.put STN_ATT_REP_WORD 0 p.1 p.2)).put STN_ATT_CMD_BUSY 0 0).put STN_ATT_CMD_DONE 0 1).put
        STN_ATT_CMD_GO 0 0)
      exec .attestDone s = s.to { h with boot := { h.boot with att := none } }) ∧
    (s.hw.boot.att = none → exec .attestDone s = s.to s.hw)

/-- Counted settings (R11, R341, R359, R379, R380) take effect at once unless what they need is held, and then wait. A binding, a change
of relief or a commit of ceilings consumes one of its counts when it changes the setting, and nothing when it does not; at 0 left it is
frozen. A commit of ceilings makes every unit's staged ceilings the active ones and starts the NVM copy; while a unit is live it is
refused. PROGRAM makes a BLANK key slot ACTIVE with the digest staged, REVOKE a slot REVOKED that is not the last one of use; both are
audited. Each head die holds its own slots; one that does not serve keeps its own, and DIFF shows where the two differ. -/
def Obligations.CountedSettingsConsumeTheirCounts : Prop :=
  ∀ (s : State) (m : Master) (d k v g : Nat), s.hears m → k < 4 → g < 16 →
    (s.hw.cntBlocked (.bind v) = false → exec (.bindWrite m v) s = s.wrote m (s.hw.bindDo v)) ∧
    (s.hw.cntBlocked (.bind v) = true → exec (.bindWrite m v) s = s.wrote m { s.hw with heldCnt := s.hw.heldCnt ++ [.bind v] }) ∧
    (s.hw.get STN_BIND_LEFT 0 = 0 → s.hw.bindDo v = s.hw) ∧
    (let b := bit v 12
     let n := if b then v % 2 ^ 12 else 0
     let left := s.hw.get STN_BIND_LEFT 0 - 1
     let h := (((s.hw.burnMark.put STN_BIND_LEFT 0 left).putB STN_BIND_BOUND 0 b).put STN_BIND_NUM 0 n).cntChange 0 0 left n
     s.hw.otpHeld = false → s.hw.get STN_BIND_LEFT 0 ≠ 0 → (s.hw.flag STN_BIND_BOUND 0 ≠ b ∨ s.hw.get STN_BIND_NUM 0 ≠ n) →
      exec (.bindWrite m v) s = s.wrote m (if b then h.boundNum
        else (((h.put TW_LINE_STAT_NUM 0 0).put TW_LINE_STAT_NUM_VALID 0 0).put TW_LINE_STAT_ANNOUNCED 0 0).candidacy)) ∧
    (s.hw.cntBlocked (.relief (v % 2)) = false → exec (.reliefWrite m v) s = s.wrote m (s.hw.reliefDo (v % 2))) ∧
    (s.hw.get STN_RELIEF_LEFT 0 = 0 → s.hw.reliefDo v = s.hw) ∧
    (s.hw.flag TH_SUP_STAT_SHUT 1 = false → s.hw.dieUp 1 = true → s.hw.get STN_RELIEF_EN 0 ≠ v % 2 → s.hw.get STN_RELIEF_LEFT 0 ≠ 0 →
      exec (.reliefWrite m v) s = s.wrote m (((s.hw.burnMark.put STN_RELIEF_LEFT 0 (s.hw.get STN_RELIEF_LEFT 0 - 1)).put STN_RELIEF_EN 0 (v % 2)).cntChange
        3 1 (s.hw.get STN_RELIEF_LEFT 0 - 1) (v % 2))) ∧
    (exec (.keyProgram m k) s = s.wrote m (s.hw.keyCmd 1 k) ∧ exec (.keyRevoke m k) s = s.wrote m (s.hw.keyCmd 2 k)) ∧
    (let start := fun op => (((((s.hw.put STN_KEY_CMD_OP 0 op).put STN_KEY_CMD_SLOT 0 k).put STN_KEY_CMD_BUSY 0 1).put STN_KEY_CMD_BUSY 0 0).put
       STN_KEY_CMD_RESULT 0 0)
     let both := s.hw.dieUp 0 && s.hw.dieUp 1
     let dg := s.hw.get STN_KEY_STAGE_DIGEST 0
     s.hw.flag STN_KEY_CMD_BUSY 0 = false → s.hw.otpHeld = false →
      (s.hw.keyState k = 0 → dg ≠ 0 → exec (.keyProgram m k) s = s.wrote m (((start 1).setKey k 1 dg).audit
        0x07 s.hw.logDie (k + 4 * b2n (!both)) (bytesOf 48 dg))) ∧
      (∀ j, j < 4 → j ≠ k → s.hw.keyState j ≠ 2 → s.hw.keyState k ≠ 2 →
        exec (.keyRevoke m k) s = s.wrote m (((start 2).setKey k 2 (s.hw.get STN_KEY_SLOTD_DIGEST 0 k)).audit 0x08 s.hw.logDie (k + 4 * b2n (!both))))) ∧
    (∀ (h : Hw) (x dg : Nat), let g := h.setKey k x dg
      (∀ e, e < 2 → h.dieUp e = true → tget g.nv.keys (e * 4 + k) (0, 0) = (x, dg)) ∧
      (∀ e, e < 2 → h.dieUp e = false → tget g.nv.keys (e * 4 + k) (0, 0) = tget h.nv.keys (e * 4 + k) (0, 0)) ∧
      (∀ j, j ≠ k → j ≠ 4 + k → tget g.nv.keys j (0, 0) = tget h.nv.keys j (0, 0)) ∧
      g.flag STN_KEYSLOT_DIFF 0 = (List.range 4).any (fun j => tget g.nv.keys (0 * 4 + j) (0, 0) != tget g.nv.keys (1 * 4 + j) (0, 0))) ∧
    (s.hw.dieUp d = true → (s.hw.writeFields .die d 0x70008 g (fun _ => true)).cntBlocked (.ceil d g) = false → exec (.ceilCommit m d g) s =
      s.wrote m ((s.hw.writeFields .die d 0x70008 g (fun _ => true)).ceilDo d g)) ∧
    (let h := s.hw.writeFields .die d 0x70008 g (fun _ => true)
     let left := h.get ILK_CEIL_GEN_LEFT d - 1
     let a := ((h.put ILK_CEIL_GEN_LEFT d left).put ILK_CEIL_GEN_GEN d g).cntChange 1 d left g
     let b := (a.each (unitsOf d) (fun h u => h.setCeil u (h.stagedWords u))).recalcDie d
     s.hw.dieUp d = true → h.flag TH_SUP_STAT_SHUT d = false → h.get ILK_CEIL_GEN_GEN d ≠ g → h.get ILK_CEIL_GEN_LEFT d ≠ 0 →
      (unitsOf d).any (fun u => h.live u) = false → exec (.ceilCommit m d g) s =
        s.wrote m (((b.setCopy d (b.olderCeil d) { tget b.nv.ceils (d * 2 + b.olderCeil d) {} with commit := 0, begun := true }).modD d
          (fun x => { x with ceilW := some (b.olderCeil d, 0) })).tokReq (.nvm d) { who := 1, rank := 1 })) ∧
    (s.hw.get ILK_CEIL_GEN_GEN d = g → s.hw.ceilDo d g = s.hw) ∧
    (s.hw.get ILK_CEIL_GEN_GEN d ≠ g → s.hw.get ILK_CEIL_GEN_LEFT d ≠ 0 → (unitsOf d).any (fun u => s.hw.live u) = true →
      s.hw.ceilDo d g = s.hw.put ILK_CEIL_GEN_REFUSED d 1)

/-- Flash commands (R364, R382): RESULT 1 while one runs and 2 for an absent head; memory in DDR5 is reached through its arbiter (R35);
the end of a read copies the bytes to memory, RESULT 0, or shows RESULT 4 where it fails. A flash copy writes exactly its bytes: where the
ring guard stops none of its bursts of 256 bytes, each byte of the target is the byte that the source held and every register stands; a
burst that the ring guard stops is not written (R267); every other byte stands. -/
def Obligations.FlashCommandsCopyAndErase : Prop :=
  (∀ (s : State) (m : Master) (hd op : Nat) (i : Instr), s.hears m → hd < 2 →
    ((op = 1 ∧ i = .xspiRead m hd) ∨ (op = 2 ∧ i = .xspiProgram m hd) ∨ (op = 3 ∧ i = .xspiErase m hd)) →
    (s.hw.flag STN_XSPI_CMD_BUSY 0 = true → exec i s = s.wrote m (s.hw.put STN_XSPI_CMD_RESULT 0 1)) ∧
    (s.hw.flag STN_XSPI_CMD_BUSY 0 = false → s.hw.dieUp hd = false → exec i s = s.wrote m (s.hw.put STN_XSPI_CMD_RESULT 0 2)) ∧
    exec i s = s.wrote m (s.hw.xspiCmd op hd) ∧
    (∀ x ok, s.hw.boot.xspi = some x →
      (x.op ≠ 3 → exec (.xspiDone ok) s = s.to ((s.hw.burst x.head x.maddr twBox 6 (fun h => h.xspiEnd x ok)).settle)) ∧
      (x.op = 3 → exec (.xspiDone ok) s = s.to (s.hw.xspiEnd x ok).settle)) ∧
    (∀ (g : Hw) x, let h := { g with boot := { g.boot with xspi := none } }.put STN_XSPI_CMD_BUSY 0 0
      (x.op = 1 → g.xspiEnd x true = (h.put STN_XSPI_CMD_RESULT 0 0).copyBytes (flashBase x.head + x.faddr) x.maddr x.len) ∧
      (x.op = 1 → g.xspiEnd x false = h.put STN_XSPI_CMD_RESULT 0 4)) ∧
    (s.hw.boot.xspi = none → exec (.xspiDone true) s = s.to s.hw)) ∧
  (∀ (h : Hw) (src dst n : Nat),
    (∀ a, a < dst ∨ dst + n ≤ a → (h.copyBytes src dst n).byte a = h.byte a) ∧
    ((∀ e k, e < 64 → k * 256 < n → h.ringHit e (dst + 256 * k) (min 256 (n - 256 * k)) = false) →
      (∀ i, i < n → (h.copyBytes src dst n).byte (dst + i) = h.byte (src + i)) ∧ (h.copyBytes src dst n).regs = h.regs) ∧
    (∀ e k i, e < 64 → (ddrChan (dst + 256 * k)).isSome = true → h.ringHit e (dst + 256 * k) (min 256 (n - 256 * k)) = true →
      256 * k ≤ i → i < 256 * k + 256 → i < n → (h.copyBytes src dst n).byte (dst + i) = h.byte (dst + i)))

/-- The audit log takes up to 32 records that wait for the NVM, in order, and counts those it loses (R381, R382). A note is a record of
kind 0x0C; a write of the log by the NVM's holder writes the oldest record and passes the NVM on. -/
def Obligations.AuditKeepsItsRecordsInOrder : Prop :=
  ∀ (s : State) (m : Master) (v : Nat) (e : AudPend) (r : List AudPend), s.hears m →
    exec (.audNote m v) s = s.wrote m (s.hw.audit 0x0C s.hw.logDie (bits v 19 0)) ∧
    (s.hw.holds (.nvm s.hw.logDie) 3 = false → exec .auditWrite s = s.to s.hw.audAsk) ∧
    (s.hw.holds (.nvm s.hw.logDie) 3 = true → s.hw.audLost = 0 → s.hw.audQ = e :: r → e.kind ≠ 5 →
      let h := { s.hw.setAud (s.hw.aud.write e) with audQ := r }
      exec .auditWrite s = s.to ((h.tokRel (.nvm s.hw.logDie) 3).audAsk.audShow)) ∧
    (∀ k d a x, (s.hw.audit k d a x).audQ.length ≤ max 32 s.hw.audQ.length ∧
      (32 ≤ s.hw.audQ.length → (s.hw.audit k d a x).audQ = s.hw.audQ ∧ (s.hw.audit k d a x).audLost = s.hw.audLost + 1) ∧
      (s.hw.audQ.length < 32 → ∃ y, (s.hw.audit k d a x).audQ = s.hw.audQ ++ [y] ∧ y.kind = k ∧ y.die = d ∧ y.arg = a % 2 ^ 20 ∧ y.time = s.hw.now))

/-! ### Tweed, the Line and Ethernet -/

/-- Ports (R384, R385): a change of MODE takes the port DOWN at once, a write of the same MODE does nothing; an Ethernet port comes UP
with BLOCK_LOCK, a Tweed port not before 64 link words; a port whose lock is lost goes DOWN; a link word counts while the port trains and
gives credits back when it is UP; one that is sent carries the credits owed, at most 63, and the last frame accepted; frames
unacknowledged for 2 µs are sent again, counted in TW_PORT_RETRY (R391). The next frame of a port begins at a frame boundary (R389): a
CTRL frame's second copy first, then the SYNC lane, then CTRL within its share; with none waiting the port idles. -/
def Obligations.PortsTrainSendAndResend : Prop :=
  (∀ (s : State) (m : Master) (p md lane cr ack t : Nat), s.on → p < 4 → md < 4 → s.hw.now ≤ t →
    (s.hw.servesMaster m = true → s.hw.get TW_PORT_CFG_MODE p ≠ md →
      exec (.portModeWrite m p md) s = s.wrote m ((s.hw.portDown p).put TW_PORT_CFG_MODE p md)) ∧
    (s.hw.servesMaster m = true → s.hw.get TW_PORT_CFG_MODE p = md → exec (.portModeWrite m p md) s = s.wrote m s.hw) ∧
    (s.hw.portMode p = 2 → s.hw.get TW_PORT_STAT_LINK p ≠ 2 → exec (.portUp p) s = s.to ((s.hw.setLink p 2).put ETH_STAT_BLOCK_LOCK p 1)) ∧
    (s.hw.portMode p = 1 → (s.hw.port p).words < 64 → exec (.portUp p) s = s.to s.hw) ∧
    (s.hw.get TW_PORT_STAT_LINK p ≠ 0 → exec (.portDown p t true) s = s.to (({ s.hw with now := t }).portDown p)) ∧
    (s.hw.get TW_PORT_STAT_LINK p = 0 → exec (.portDown p t true) s = s.to s.hw) ∧
    (s.hw.portMode p = 1 → s.hw.get TW_PORT_STAT_LINK p = 1 → exec (.linkWord p lane cr ack t) s =
      s.to ((({ s.hw with now := t }).modP p (fun x => { x with wordAt := t })).modP p (fun x => { x with words := x.words + 1 }))) ∧
    (s.hw.portMode p = 1 → s.hw.get TW_PORT_STAT_LINK p = 2 → cr < 64 → exec (.linkWord p 1 cr ack t) s =
      s.to ((({ s.hw with now := t }).modP p (fun x => { x with wordAt := t })).modP p
        (fun x => { x with cred := tset x.cred 1 (tget x.cred 1 0 + cr) }))) ∧
    (s.hw.portMode p = 1 → lane < 4 → exec (.linkWordSend p lane t) s = s.to (({ s.hw with now := t }).modP p (fun x =>
      let c := min 63 (tget x.ret lane 0)
      { x with ret := tset x.ret lane (tget x.ret lane 0 - c), sentWord := some (lane, c, tget x.rxSeq lane 0), sentWordAt := t }))) ∧
    (let l := (s.hw.port p).unack.filter (fun (f : Frame) => f.lane == lane);
     s.hw.tweedUp p = true → 2 ≤ lane → l ≠ [] → tget (s.hw.port p).ackAt lane 0 + ticksOfUs 2 ≤ t → exec (.goBackResend p lane t) s =
      s.to ((({ s.hw with now := t }).modP p (fun x => { x with again := x.again.filter (fun (f : Frame) => f.lane != lane) ++ l, ackAt := tset x.ackAt lane t })).inc TW_PORT_RETRY_COUNT p))) ∧
  (∀ (s : State) (p t ph i l : Nat) (f : Frame), s.on → s.hw.tweedUp p = true → s.hw.now ≤ t →
    let h := { s.hw with now := t }
    ((s.hw.port p).dup = some f → exec (.frameBoundary p t ph) s =
      s.to (h.modP p (fun x => { x.useCtrl t (Frame.size f) with dup := none, sent := some f, cut := false }))) ∧
    ((s.hw.port p).dup = none → (s.hw.port p).ready 0 = some (l, some i) → exec (.frameBoundary p t ph) s = s.to (h.sendNew p i t ph)) ∧
    ((s.hw.port p).dup = none → (s.hw.port p).ready 0 = none → (s.hw.port p).ctrlOk t = true → (s.hw.port p).ready 1 = some (l, some i) →
      exec (.frameBoundary p t ph) s = s.to (h.sendNew p i t ph)) ∧
    ((s.hw.port p).dup = none → (s.hw.port p).ready 0 = none → (s.hw.port p).ready 1 = none → (s.hw.port p).ready 2 = none →
      (s.hw.port p).ready 3 = none → exec (.frameBoundary p t ph) s = s.to h))

/-- A good frame that is next in its lane's order is routed, and where it is for the station it acts as its kind says (R387, R391, R394):
time frames, events, outer values and reports, requests and responses, notices, announcements, assignments, greetings and losses. A frame
with a bad header counts as an error, one out of order has no effect, one of a kind that no rule lists counts as an error. A CTRL frame of
which both copies are bad counts as lost, its credit goes back, and its sequence number tells the two copies of one frame (R392). -/
def Obligations.FramesActByTheirKind : Prop :=
  ∀ (s : State) (p t : Nat) (f : Frame) (hd : Shown) (r : Reported) (ecc : List (Nat × Bool)), s.on → s.hw.tweedUp p = true → s.hw.now ≤ t →
    let at_ := fun (g : Hw) (k : Nat) => ({ g with now := k }).modP p (fun x => { x with rxSeq := tset x.rxSeq f.lane f.seq, badCtrl := if f.lane = 1 then none else x.badCtrl })
    ((s.hw.port p).takes f = true →
      (f.lane = 0 → f.ty = 0 → exec (.sync p f .good (t * 256)) s = s.to ((at_ s.hw t).routeFrame p f (fun h => h.syncRecv p f (t * 256)))) ∧
      (f.lane = 0 → f.ty = 1 → exec (.delayReq p f .good (t * 256)) s = s.to ((at_ s.hw t).routeFrame p f (fun h => h.delayAnswer p (t * 256)))) ∧
      (f.lane = 0 → f.ty = 2 → exec (.delayRsp p f .good (t * 256)) s = s.to ((at_ s.hw t).routeFrame p f (fun h => h.delayRsp p f (t * 256)))) ∧
      (f.lane = 1 → f.ty = 0 → exec (.event p f .good t) s = s.to ((at_ s.hw t).routeFrame p f (fun h => h.eventRecv f))) ∧
      (f.lane = 1 → f.ty = 1 → exec (.outer p f .good t hd) s =
        s.to ((at_ s.hw t).routeFrame p f (fun h => if h.dark then h else h.outerRecv f.words f.src { hd with ir := hd.ir % 16, vr := hd.vr % 4 }))) ∧
      (f.lane = 1 → f.ty = 2 → r.frame = f → exec (.report p r .good t) s =
        s.to ((at_ s.hw t).routeFrame p f (fun h => if h.dark then h else h.reportRecv f.words f.src r))) ∧
      ((f.lane = 2 ∨ f.lane = 3) →
        (f.ty = 0 → exec (.rdReq p f .good t ecc) s = s.to ((at_ (s.hw.meets ecc) t).routeFrame p f (fun h => h.rdReq p f))) ∧
        (f.ty = 1 → exec (.rdRsp p f .good t) s = s.to ((at_ s.hw t).routeFrame p f (fun h => h.reqRsp f false))) ∧
        (f.ty = 2 → exec (.wrReq p f .good t) s = s.to ((at_ s.hw t).routeFrame p f (fun h => h.wrReq p f))) ∧
        (f.ty = 3 → exec (.wrRsp p f .good t) s = s.to ((at_ s.hw t).routeFrame p f (fun h => h.reqRsp f true)))) ∧
      (f.lane = 2 → f.ty = 4 → exec (.notice p f .good t) s = s.to ((at_ s.hw t).routeFrame p f (fun h => h.noticeRecv f))) ∧
      (f.lane = 2 → f.ty = 5 → exec (.announce p f .good t) s = s.to ((at_ s.hw t).routeFrame p f (fun h => h.announceRecv p f t))) ∧
      (f.lane = 2 → f.ty = 6 → exec (.assign p f .good t) s = s.to ((at_ s.hw t).routeFrame p f (fun h => h.assignRecv f))) ∧
      (f.lane = 2 → f.ty = 7 → exec (.hello p f .good t) s = s.to ((at_ s.hw t).routeFrame p f (fun h => h.helloRecv f t))) ∧
      (f.lane = 2 → f.ty = 8 → exec (.lost p f .good t) s = s.to ((at_ s.hw t).routeFrame p f (fun h => h.lostRecv f t))) ∧
      (f.lane = 2 → 8 < f.ty → exec (.notice p f .good t) s = s.to (((at_ s.hw t).inc TW_PORT_ERR_COUNT p).creditRet p 2))) ∧
    ((s.hw.port p).takes f = false → f.lane = 2 → f.ty = 4 → exec (.notice p f .good t) s = s.to { s.hw with now := t }) ∧
    (f.lane = 1 → f.ty = 0 → exec (.event p f .badHeader t) s = s.to ((({ s.hw with now := t }).inc TW_PORT_ERR_COUNT p).ctrlBad p f.seq) ∧
      exec (.event p f .badFrame t) s = s.to ((({ s.hw with now := t }).cutFrame p f).ctrlBad p f.seq)) ∧
    (∀ (h : Hw) (sq : Nat), tget (h.port p).rxSeq 1 0 ≠ sq →
      ((h.port p).badCtrl = some sq → h.ctrlBad p sq = ((h.modP p (fun x => { x with badCtrl := none })).inc TW_PORT_CTRL_LOST_COUNT p).creditRet p 1) ∧
      ((h.port p).badCtrl ≠ some sq → h.ctrlBad p sq = h.modP p (fun x => { x with badCtrl := some sq }))) ∧
    (f.lane = 2 → f.ty = 4 → exec (.notice p f .badHeader t) s = s.to (({ s.hw with now := t }).inc TW_PORT_ERR_COUNT p)) ∧
    (f.lane = 2 → f.ty = 4 → exec (.notice p f .badFrame t) s = s.to (({ s.hw with now := t }).cutFrame p f))

/-- A frame for this station alone is not forwarded: it acts here and its credit goes back. One for another station that finds no way on,
or has no hops left, goes no further, and a request that finds no way is answered NO_ROUTE (R394, R397). Before step 3 of start-up, and
other than local frames while the Line is off, nothing is delivered (the model's reading, log entry 66). -/
def Obligations.FramesAreDeliveredOrDropped : Prop :=
  ∀ (h : Hw) (p : Nat) (f : Frame) (act : Hw → Hw),
    (h.get STN_BOOT_STEP 0 < 3 → h.routeFrame p f act = h.creditRet p f.lane) ∧
    (f.loc = false → h.flag TW_LINE_CFG_EN 0 = false → h.routeFrame p f act = h.creditRet p f.lane) ∧
    (3 ≤ h.get STN_BOOT_STEP 0 → f.loc = true → f.group = false → f.bcast = false → h.routeFrame p f act = act (h.creditRet p f.lane)) ∧
    (3 ≤ h.get STN_BOOT_STEP 0 → h.flag TW_LINE_CFG_EN 0 = true → f.loc = false → f.group = false → f.bcast = false →
      h.flag TW_LINE_STAT_NUM_VALID 0 = true → (f.dest = h.ownNum → h.routeFrame p f act = act (h.creditRet p f.lane)) ∧
      (f.dest ≠ h.ownNum → f.hops = 0 → h.routeFrame p f act = h.creditRet p f.lane) ∧
      (f.dest ≠ h.ownNum → f.hops ≠ 0 → h.outPorts f (some p) = [] → h.routeFrame p f act =
        if Frame.isReq f then (h.creditRet p f.lane).respond p f [2] else h.creditRet p f.lane))

/-- Line time (R399, R403, R404, R406): a master sends SYNC on every port that is UP at each multiple of 4,096 ticks, once; a delay
exchange starts where none runs; a station that steps its count sets it to the master's; after 16 good SYNCs it is locked; one that was
locked and hears no SYNC is no longer locked, LOCK_LOST set, and loses its source if that was the Line; a candidate for master that hears
no lower station takes over, and a station that is no candidate does not. Joining the Line (R400, R401): a station that is not yet
announced announces itself, and one that is greets the master every 1 ms; a master that has not been greeted for 3 ms broadcasts the
station's loss. A request that is not answered within 2 ms ends with TIMEOUT (R397). -/
def Obligations.LineIsTimedAndJoined : Prop :=
  (∀ (s : State) (p t : Nat), s.on → s.hw.now ≤ t →
    (t % 4096 = 0 → s.hw.flag TW_LINE_CFG_EN 0 = true → s.hw.flag TW_LINE_STAT_IS_MASTER 0 = true → s.hw.line.sentAt ≠ some t →
      let h := { s.hw with now := t, line := { s.hw.line with sentAt := some t } }
      exec (.syncSend t) s = s.to (h.each h.upPorts (fun g p => g.localSend p { lane := 0, ty := 0, words :=
        [t % 2 ^ 32, t / 2 ^ 32 % 2 ^ 32, h.ownNum * 256 + 0 % 32 * 2 ^ 20, max 1 (h.get TW_LINE_CFG_LINE_LAT 0) % 256] }))) ∧
    (t % 4096 ≠ 0 → exec (.syncSend t) s = s.to s.hw) ∧
    (s.hw.tweedUp p = true → (s.hw.port p).reqAt = none → exec (.delayExchange p t) s = s.to ((({ s.hw with now := t }).modP p
      (fun x => { x with reqAt := some t, reqT1 := none })).localSend p { lane := 0, ty := 1 })) ∧
    (t % 4096 = 0 → s.hw.maySync t = true → exec (.timeStep t) s = s.to (({ s.hw with now := t, line := { s.hw.line with stepped := true } }).stepCount
      (((t : Int) * 256 + s.hw.line.ofs) / 256).toNat)) ∧
    (s.hw.serves = true → s.hw.flag TW_LINE_CFG_EN 0 = true → s.hw.flag TW_LINE_STAT_IS_MASTER 0 = false → s.hw.flag TW_LINE_STAT_LOCKED 0 = false →
      16 ≤ s.hw.line.okRun → (s.hw.upstream s.hw.now).isSome = true → exec .lineLocked s =
      s.to ((((({ s.hw with line := { s.hw.line with everLocked := true } }).put TW_LINE_STAT_LOCKED 0 1).showLat).metroLine).joinLine)) ∧
    (s.hw.line.okRun < 16 → exec .lineLocked s = s.to s.hw) ∧
    (s.hw.flag TW_LINE_STAT_LOCKED 0 = true → s.hw.flag TW_LINE_STAT_IS_MASTER 0 = false → s.hw.line.syncAt = none →
      let h := ((((({ s.hw with now := t, line := { s.hw.line with okRun := 0, stepped := false } }).put TW_LINE_STAT_LOCKED 0 0).put
        TW_LINE_STAT_LOCK_LOST 0 1).attnSrc 2).showUpstream t).showLat
      exec (.lineTimeLost t) s = s.to (if h.get STN_METRO_STAT_ACT_SRC 0 = 1 then h.srcLost else h)) ∧
    (s.hw.flag TW_LINE_STAT_LOCKED 0 = false → exec (.lineTimeLost t) s = s.to s.hw) ∧
    (s.hw.flag TW_LINE_CFG_MASTER 0 = false → exec (.masterTakeover t) s = s.to s.hw) ∧
    (s.hw.serves = true → s.hw.flag TW_LINE_CFG_EN 0 = true → s.hw.flag TW_LINE_CFG_MASTER 0 = true → s.hw.flag STN_BIND_BOUND 0 = true →
      s.hw.flag TW_LINE_STAT_IS_MASTER 0 = false → s.hw.line.lowAt = none → s.hw.flag TW_LINE_STAT_LOCKED 0 = true → s.hw.line.appliedAt = none →
      let h := { s.hw with now := t, line := { s.hw.line with stopped := false, table := (s.hw.get TW_SERIAL_SERIAL 0, s.hw.ownNum) :: s.hw.line.table.filter (fun (x : Nat × Nat) => x.2 != s.hw.ownNum && x.1 != s.hw.get TW_SERIAL_SERIAL 0) } }
      exec (.masterTakeover t) s = s.to (((((h.put TW_LINE_STAT_IS_MASTER 0 1).put TW_LINE_STAT_MASTER 0 s.hw.ownNum).put
        TW_LINE_STAT_ANNOUNCED 0 1).showLat).joinLine))) ∧
  (∀ (s : State) (t n a : Nat) (r : LineReq), s.on → s.hw.now ≤ t →
    (3 ≤ s.hw.get STN_BOOT_STEP 0 → s.hw.flag TW_LINE_CFG_EN 0 = true → s.hw.flag TW_LINE_STAT_ANNOUNCED 0 = false → s.hw.flag TW_LINE_STAT_IS_MASTER 0 = false →
      s.hw.line.stopped = false → s.hw.line.annAt = none → exec (.announceSend t) s = s.to (({ s.hw with now := t }).announce t)) ∧
    (s.hw.flag TW_LINE_STAT_ANNOUNCED 0 = true → exec (.announceSend t) s = s.to s.hw) ∧
    (s.hw.flag TW_LINE_CFG_EN 0 = true → s.hw.flag TW_LINE_STAT_ANNOUNCED 0 = true → s.hw.flag TW_LINE_STAT_IS_MASTER 0 = false →
      s.hw.line.helloAt = some a → a + t1ms ≤ t → let h := { s.hw with now := t, line := { s.hw.line with helloAt := some t } }
      exec (.helloSend t) s = s.to (h.lineSend { lane := 2, ty := 7, dest := h.get TW_LINE_STAT_MASTER 0 })) ∧
    (s.hw.line.helloAt = some a → t < a + t1ms → exec (.helloSend t) s = s.to s.hw) ∧
    (tfind s.hw.line.hello n = some a → s.hw.flag TW_LINE_CFG_EN 0 = true → s.hw.flag TW_LINE_STAT_IS_MASTER 0 = true → a + 3 * t1ms ≤ t →
      exec (.helloTimeout n t) s = s.to ((({ s.hw with now := t, line := { s.hw.line with hello := tdel s.hw.line.hello n } }).lineSend
        { lane := 2, ty := 8, bcast := true, words := [n] }).lostActs [n] t)) ∧
    (tfind s.hw.line.hello n = some a → t < a + 3 * t1ms → exec (.helloTimeout n t) s = s.to s.hw) ∧
    (s.hw.line.reqs.find? (fun q => q.tag == n) = some r → r.at_ + 2 * t1ms ≤ t → exec (.accessTimeout n t) s =
      s.to (({ s.hw with now := t, line := { s.hw.line with reqs := s.hw.line.reqs.erase r } }).accessDone r.m 3 [])) ∧
    (s.hw.line.reqs.find? (fun q => q.tag == n) = some r → t < r.at_ + 2 * t1ms → exec (.accessTimeout n t) s = s.to s.hw))

/-- Ethernet (R412 to R414): OPEN gives a free session to its source; CLOSE by its owner frees it; a request to a session of another
source that is not idle is answered BUSY (5), and one to a session that nobody holds BAD (4), as are reads and writes of more than 8,192
bytes; a session is idle after 10 s. ARP and ICMP for the port's address are answered, others counted as dropped; a PTP message gives the
offset and the lock. -/
def Obligations.EthernetServesItsSessions : Prop :=
  ∀ (s : State) (p k sq t a n ip mac ns : Nat) (src : Src) (note : Bool) (data : List Nat) (ofs : Int) (ecc : List (Nat × Bool)),
    s.on → s.hw.ethUp p = true → s.hw.get ETH_IP_ADDR p ≠ 0 → k < 4 → s.hw.now ≤ t →
    let h := ({ s.hw with now := t }).inc ETH_RX_COUNT p
    let j := p * 4 + k
    let rsp := fun (op st : Nat) => ({ op := op, rsp := true, session := k, status := st, seq := sq, data := [], peer := some src } : Dgram)
    (s.hw.session j = {} → exec (.ethOpen p k src sq note t) s = s.to (((h.modSess j (fun x => { x with owner := some src, note := false, last := none, at_ := t, idle := false })).modSess j (fun x => { x with note := note })).ethDone j 1 sq 0 [])) ∧
    (s.hw.session j = {} → exec (.ethClose p k src sq t) s = s.to (h.ethSend j (rsp 2 4)) ∧
      exec (.ethRead p k src sq a n t ecc) s = s.to ((({ s.hw.meets ecc with now := t }).inc ETH_RX_COUNT p).ethSend j (rsp 3 4)) ∧
      exec (.ethWrite p k src sq a data t) s = s.to (h.ethSend j (rsp 4 4))) ∧
    (∀ o, (s.hw.session j).owner = some o → o ≠ src → (s.hw.session j).idle = false →
      exec (.ethOpen p k src sq note t) s = s.to (h.ethSend j (rsp 1 5)) ∧ exec (.ethClose p k src sq t) s = s.to (h.ethSend j (rsp 2 5)) ∧
      exec (.ethWrite p k src sq a data t) s = s.to (h.ethSend j (rsp 4 5))) ∧
    ((s.hw.session j).owner = some src → (s.hw.session j).last = none → (s.hw.session j).wait = none →
      let g := h.modSess j (fun x => { x with at_ := t, idle := false })
      exec (.ethClose p k src sq t) s = s.to ((g.ethDone j 2 sq 0 []).modSess j (fun x => { x with owner := none, note := false })) ∧
      (8192 < n → exec (.ethRead p k src sq a n t ecc) s =
        s.to ((((({ s.hw.meets ecc with now := t }).inc ETH_RX_COUNT p).modSess j (fun x => { x with at_ := t, idle := false }))).ethDone j 3 sq 4 [])) ∧
      (n ≤ 8192 → s.hw.isOwn (some (a / 2 ^ 40 % 2 ^ 12)) = true → exec (.ethRead p k src sq a n t ecc) s =
        s.to (((((({ s.hw.meets ecc with now := t }).inc ETH_RX_COUNT p).modSess j (fun x => { x with at_ := t, idle := false })).modSess j
          (fun x => { x with wait := some (3, sq) })).runJob { eth := true, from_ := j, seq := sq, addr := a % 2 ^ 40, left := n }).settle)) ∧
      (8192 < data.length → exec (.ethWrite p k src sq a data t) s = s.to (g.ethDone j 4 sq 4 [])) ∧
      (data.length ≤ 8192 → s.hw.isOwn (some (a / 2 ^ 40 % 2 ^ 12)) = true → exec (.ethWrite p k src sq a data t) s =
        s.to ((g.modSess j (fun x => { x with wait := some (4, sq) })).runJob
          { eth := true, from_ := j, seq := sq, addr := a % 2 ^ 40, left := data.length, write := true, data := data.map (· % 256) }).settle) ∧
      (data.length ≤ 8192 → s.hw.isOwn (some (a / 2 ^ 40 % 2 ^ 12)) = false → exec (.ethWrite p k src sq a data t) s =
        s.to ((g.modSess j (fun x => { x with wait := some (4, sq) })).reqSend { m := .eth p k, tag := 0, write := true, at_ := t, stn := a / 2 ^ 40 % 2 ^ 12, addr := a % 2 ^ 40, data := data.map (· % 256) }))) ∧
    ((s.hw.session j).owner = some src → (s.hw.session j).at_ + 10000 * t1ms ≤ t →
      exec (.ethSessionIdle p k t) s = s.to (({ s.hw with now := t }).modSess j (fun x => { x with idle := true }))) ∧
    (s.hw.get ETH_IP_ADDR p = ip → ip ≠ 0 → exec (.icmpEcho p ip) s = s.to ((s.hw.inc ETH_RX_COUNT p).inc ETH_TX_COUNT p)) ∧
    (s.hw.get ETH_IP_ADDR p ≠ ip → exec (.icmpEcho p ip) s = s.to (s.hw.ethDropped p) ∧
      exec (.arpRequest p ip n mac t) s = s.to (({ s.hw with now := t }).ethDropped p)) ∧
    (s.hw.get ETH_IP_ADDR p = ip → ip ≠ 0 → tget s.hw.line.arp p [] = [] → exec (.arpRequest p ip n mac t) s = s.to
      ((({ s.hw with now := t, line := { s.hw.line with arp := tset s.hw.line.arp p [(n, mac, t)] } }).inc ETH_RX_COUNT p).inc ETH_TX_COUNT p)) ∧
    (s.hw.flag ETH_PTP_EN p = true → exec (.ptpMessage p t ofs ns false) s =
      s.to ((h.putC ETH_PTP_OFS_NS p (sat32 ofs)).putB ETH_PTP_LOCK p false)) ∧
    (s.hw.flag ETH_PTP_EN p = false → exec (.ptpMessage p t ofs ns false) s = s.to s.hw)

/-! ### Frames, and the arithmetic of the reference -/

/-- What a host's command to a unit that runs leaves unchanged, when the station is quiet: every byte of memory, the time, every other
unit, every engine, die, capture, queue, sensor, siding, event, port and what NVM holds, and every register but those in which the command
shows itself, at that unit. Where the guard instant of the unit's tick has passed, the guard is done first (R26), and all of this holds of
the state that it leaves. -/
def Obligations.HostCommandsToAUnitChangeOnlyThatUnit : Prop :=
  ∀ (s t : State) (m : Master) (u : Nat) (c : Instr), s.hears m → s.hw.reaches u = true → unitCommand m u c = true →
    let g : State := { s with hw := s.hw.passGuard u }
    let h := g.hw
    g.sound → g.quiet → h.runs u = true → exec c s = .next t →
    t.pending = s.pending ∧ (∀ a, t.hw.byte a = h.byte a) ∧ t.hw.now = h.now ∧ (∀ w, w ≠ u → t.hw.unit w = h.unit w) ∧
    t.hw.engs = h.engs ∧ t.hw.dies = h.dies ∧ t.hw.caps = h.caps ∧ t.hw.ques = h.ques ∧ t.hw.ths = h.ths ∧
    t.hw.sids = h.sids ∧ t.hw.visits = h.visits ∧ t.hw.evs = h.evs ∧ t.hw.ports = h.ports ∧ t.hw.line = h.line ∧ t.hw.nv = h.nv ∧
    (∀ (f : Fld) (i k : Nat), (∀ g, g ∈ unitCommandFields → f.key i k ≠ g.key u 0) → t.hw.get f i k = h.get f i k)

/-- The commands of pins, clock and timers that store nothing leave every byte of memory, every queue's pointers, every engine's program
counter and what NVM holds unchanged. A master's store to memory, outside the rings that an engine plays and with the Twill path's token
granted where it goes to DDR5 (R35), writes the value's bytes at its address; every other byte of memory, the registers, the units and the
queues stand. -/
def Obligations.MemoryFramesOfStoresAndOfTheRest : Prop :=
  (∀ (s t : State) (c : Instr), s.sound → storesNothing c = true → exec c s = .next t →
    (∀ a, t.hw.byte a = s.hw.byte a) ∧ t.hw.ques = s.hw.ques ∧ t.hw.nv = s.hw.nv ∧
    (∀ e, t.hw.get TT_PC_ADDR e = s.hw.get TT_PC_ADDR e)) ∧
  (∀ (s t : State) (m : Master) (a n v : Nat), s.hears m → s.sound → s.quiet → s.hw.place a n = .mem →
    (∀ c, ddrChan a = some c → (s.hw.twAsk (.twill (s.hw.twDie m) c) (twHost m) 6).holds (.twill (s.hw.twDie m) c) (twHost m) = true) →
    (∀ e, e < 64 → s.hw.ringHit e a n = false) → exec (.registerWrite m none a n v) s = .next t →
    (∀ i, i < n → t.hw.byte (a + i) = BitVec.ofNat 8 (v / 256 ^ i)) ∧ (∀ b, b < a ∨ a + n ≤ b → t.hw.byte b = s.hw.byte b) ∧
    t.hw.regs = s.hw.regs ∧ t.hw.units = s.hw.units ∧ t.hw.ques = s.hw.ques ∧ t.hw.engs = s.hw.engs ∧ t.pending = s.pending)

/-- The slewed reference moves toward the target by at most one step per loop tick (R86): up by the rising rate, down by the falling rate,
exactly, and never past the target. The effective rates are U_SLEW_SAFE during a ramp to zero, else the override of the entry that set the
target, else U_SLEW_RISE and U_SLEW_FALL, each at most U_SLEW_CAP (R87); a rate of 0 holds the reference, one of 0xFFFF_FFFF reaches any
target in one tick. -/
def Obligations.SlewedReferenceMovesTowardTheTarget : Prop :=
  ∀ (h : Hw) (u n : Nat),
    let t := h.code U_REF_TARGET_CODE u
    let r := h.code U_REF_SLEWED_CODE u
    let cap : Int := h.get U_SLEW_CAP_RATE u
    let r' := (h.slew u n).code U_REF_SLEWED_CODE u
    (-(2 : Int) ^ 32 < t - r ∧ t - r < 2 ^ 32) ∧ (0 < t - r → r' = r + min (t - r) (h.rates u).1) ∧ (t - r < 0 → r' = r - min (r - t) (h.rates u).2) ∧ (t = r → r' = r) ∧
    (r ≤ t → r ≤ r' ∧ r' ≤ t) ∧ (t ≤ r → t ≤ r' ∧ r' ≤ r) ∧
    ((h.unit u).safe.ramp = true → h.rates u = (min (h.get U_SLEW_SAFE_RATE u : Int) cap, min (h.get U_SLEW_SAFE_RATE u : Int) cap)) ∧
    (∀ o, (h.unit u).safe.ramp = false → (h.unit u).ref.ovr = some o → h.rates u = (min (o : Int) cap, min (o : Int) cap)) ∧
    ((h.unit u).safe.ramp = false → (h.unit u).ref.ovr = none →
      h.rates u = (min (h.get U_SLEW_RISE_RATE u : Int) cap, min (h.get U_SLEW_FALL_RATE u : Int) cap)) ∧
    (h.rates u = (0, 0) → r' = r) ∧ (h.rates u = (0xFFFFFFFF, 0xFFFFFFFF) → r' = t) ∧
    (h.slew u n).code U_REF_TARGET_CODE u = t

/-- Rounding is half away from zero: the quotient is the nearest whole number, of two equally near ones the one with the greater
magnitude, and the rounding of a negative number mirrors that of its magnitude (R82, R104, R182). -/
def Obligations.RoundingIsHalfAwayFromZero : Prop :=
  ∀ (a : Int) (d : Nat), 0 < d →
    2 * ((d : Int) * rdiv a d - a).natAbs ≤ d ∧
    (2 * ((d : Int) * rdiv a d - a).natAbs = d → a.natAbs < d * (rdiv a d).natAbs) ∧ rdiv (-a) d = - rdiv a d
end

