-- ==== Sys2Proof/Laws/Memory.lean ====
section
/-! SUPPORT. Memory: every operation keeps the canonical form, and a byte reads as last written. -/

namespace Sys2Proof.Machine

/-- Every address of a list of cells is at least `a`. -/
def memAbove (a : Nat) (m : List Host.Cell) : Prop := ∀ p ∈ m, a < p.1

theorem memWf_cons (a : Nat) (b : Byte) (r : List Host.Cell) :
    memWf ((a, b) :: r) = true ↔ b ≠ 0 ∧ memAbove a r ∧ memWf r = true := by
  induction r generalizing a b with
  | nil => simp [memWf, memAbove]
  | cons p t ih =>
    obtain ⟨a', b'⟩ := p
    have h2 := ih a' b'
    constructor
    · intro h
      simp only [memWf, Bool.and_eq_true, bne_iff_ne, decide_eq_true_eq] at h
      obtain ⟨⟨hb, hlt⟩, hw⟩ := h
      refine ⟨hb, ?_, hw⟩
      intro q hq
      rcases List.mem_cons.mp hq with rfl | hq
      · exact hlt
      · exact Nat.lt_trans hlt ((h2.mp hw).2.1 q hq)
    · rintro ⟨hb, hab, hw⟩
      simp only [memWf, Bool.and_eq_true, bne_iff_ne, decide_eq_true_eq]
      exact ⟨⟨hb, hab (a', b') List.mem_cons_self⟩, hw⟩

theorem memWrite_above (c a : Nat) (b : Byte) (m : List Host.Cell) (h : memAbove c m) (hc : c < a) :
    memAbove c (memWrite m a b) := by
  induction m with
  | nil =>
    intro p hp
    simp only [memWrite] at hp
    split at hp
    · simp at hp
    · simp only [List.mem_singleton] at hp; subst hp; exact hc
  | cons q r ih =>
    obtain ⟨a', b'⟩ := q
    have hq : c < a' := h (a', b') List.mem_cons_self
    have hr : memAbove c r := fun p hp => h p (List.mem_cons_of_mem _ hp)
    intro p hp
    simp only [memWrite] at hp
    split at hp
    · split at hp
      · exact h p hp
      · rcases List.mem_cons.mp hp with rfl | hp
        · exact hc
        · exact h p hp
    · split at hp
      · split at hp
        · exact hr p hp
        · rcases List.mem_cons.mp hp with rfl | hp
          · exact hc
          · exact hr p hp
      · rcases List.mem_cons.mp hp with rfl | hp
        · exact hq
        · exact ih hr p hp

/-- A byte write keeps the canonical form. -/
theorem memWrite_wf (m : List Host.Cell) (a : Nat) (b : Byte) (h : memWf m = true) : memWf (memWrite m a b) = true := by
  induction m with
  | nil =>
    simp only [memWrite]
    split
    · rfl
    · rename_i hb; simpa [memWf] using hb
  | cons p r ih =>
    obtain ⟨a', b'⟩ := p
    obtain ⟨hb', hab, hw⟩ := (memWf_cons a' b' r).mp h
    simp only [memWrite]
    split
    · rename_i hlt
      split
      · exact h
      · rename_i hb
        refine (memWf_cons _ _ _).mpr ⟨hb, ?_, h⟩
        intro q hq
        rcases List.mem_cons.mp hq with rfl | hq
        · exact hlt
        · exact Nat.lt_trans hlt (hab q hq)
    · rename_i hlt
      split
      · rename_i he
        subst he
        split
        · exact hw
        · rename_i hb
          exact (memWf_cons _ _ _).mpr ⟨hb, hab, hw⟩
      · rename_i hne
        exact (memWf_cons _ _ _).mpr ⟨hb', memWrite_above a' a b r hab (by omega), ih hw⟩

/-- The writes of a command keep the canonical form. -/
theorem memApply_wf (m w : List Host.Cell) (h : memWf m = true) : memWf (memApply m w) = true := by
  induction w with
  | nil => exact h
  | cons p r ih => exact memWrite_wf _ _ _ ih

/-- Cells left out of a canonical memory leave a canonical memory. -/
theorem memFilter_wf (m : List Host.Cell) (p : Host.Cell → Bool) (h : memWf m = true) : memWf (m.filter p) = true := by
  induction m with
  | nil => rfl
  | cons c r ih =>
    obtain ⟨a, b⟩ := c
    obtain ⟨hb, hab, hw⟩ := (memWf_cons a b r).mp h
    by_cases hp : p (a, b) = true
    · rw [List.filter_cons_of_pos hp]
      exact (memWf_cons _ _ _).mpr ⟨hb, fun q hq => hab q (List.mem_filter.mp hq).1, ih hw⟩
    · rw [List.filter_cons_of_neg hp]; exact ih hw

theorem memRead_below (m : List Host.Cell) (c a : Nat) (h : memAbove c m) (ha : a ≤ c) : memRead m a = 0 := by
  induction m with
  | nil => rfl
  | cons p r ih =>
    obtain ⟨a', b'⟩ := p
    have hq : c < a' := h (a', b') List.mem_cons_self
    have hne : a ≠ a' := by omega
    simp [memRead, hne, ih (fun p hp => h p (List.mem_cons_of_mem _ hp))]

/-- In canonical memory a byte written reads back, and every other byte reads as before. -/
theorem memRead_memWrite (m : List Host.Cell) (a : Nat) (b : Byte) (c : Nat) (h : memWf m = true) :
    memRead (memWrite m a b) c = if c = a then b else memRead m c := by
  induction m with
  | nil =>
    simp only [memWrite]
    split
    · rename_i hb; by_cases hc : c = a <;> simp [memRead, hb, hc]
    · by_cases hc : c = a <;> simp [memRead, hc]
  | cons p r ih =>
    obtain ⟨a', b'⟩ := p
    obtain ⟨hb', hab, hw⟩ := (memWf_cons a' b' r).mp h
    have hm := ih hw
    simp only [memWrite]
    split
    · rename_i hlt
      by_cases hb : b = 0
      · rw [if_pos hb]
        by_cases hc : c = a
        · subst hc
          have hne : c ≠ a' := by omega
          simp [memRead, hne, hb, memRead_below r a' c hab (by omega)]
        · simp [hc]
      · rw [if_neg hb]
        by_cases hc : c = a <;> simp [memRead, hc]
    · split
      · rename_i _ he
        subst he
        by_cases hb : b = 0
        · rw [if_pos hb]
          by_cases hc : c = a
          · subst hc; simp [hb, memRead_below r c c hab (by omega)]
          · simp [memRead, hc]
        · rw [if_neg hb]
          by_cases hc : c = a <;> simp [memRead, hc]
      · rename_i hlt hne
        by_cases hc' : c = a'
        · subst hc'
          have : c ≠ a := fun e => hne e.symm
          simp [memRead, this]
        · simp [memRead, hc', hm]

end Sys2Proof.Machine
end

