-- ==== Sys2Proof/Laws/Run.lean ====
section
/-! SUPPORT. What a command's answer can be, said once: it is a next state, the queue of waiting commands stands, and memory is
what it was with the command's bytes written. -/

namespace Sys2Proof.Machine

/-- A command's answer while power-on reset is not asserted. -/
theorem State.run_live (s : State) (f : Hw → Hw) (h : s.hw.cold = false) : s.run f = .next (s.commit (f s.hw)) := by
  simp [State.run, h]

/-- While power-on reset is asserted nothing acts. -/
theorem State.run_cold (s : State) (f : Hw → Hw) (h : s.hw.cold = true) : s.run f = .next s := by simp [State.run, h]

@[simp] theorem State.commit_pending (s : State) (h : Hw) : (s.commit h).pending = s.pending := rfl
@[simp] theorem State.commit_get (s : State) (h : Hw) (f : Fld) (i k : Nat) : (s.commit h).hw.get f i k = h.get f i k := rfl
@[simp] theorem State.commit_mem (s : State) (h : Hw) : (s.commit h).hw.mem = memApply s.hw.mem h.wrq := rfl
@[simp] theorem State.commit_wrq (s : State) (h : Hw) : (s.commit h).hw.wrq = [] := rfl
@[simp] theorem State.commit_ecc (s : State) (h : Hw) : (s.commit h).hw.ecc = [] := rfl

/-- Every answer of a command of this form: a next state whose queue stands, either the same state or one with the command's bytes
entered in memory. -/
theorem State.run_cases (s : State) (f : Hw → Hw) :
    ∃ t, s.run f = .next t ∧ t.pending = s.pending ∧
      (t = s ∨ (t.hw.mem = memApply s.hw.mem (f s.hw).wrq ∧ t.hw.wrq = [] ∧ t.hw.ecc = [])) := by
  by_cases h : s.hw.cold = true
  · exact ⟨s, State.run_cold s f h, rfl, .inl rfl⟩
  · exact ⟨s.commit (f s.hw), State.run_live s f (by simpa using h), rfl, .inr ⟨rfl, rfl, rfl⟩⟩

/-- A command that waits in front is the one a step runs. -/
@[simp] theorem step_cons (s : State) (c : Instr) (r : List Instr) (h : s.pending = c :: r) :
    step s = exec c { s with pending := r } := by simp [step, h]

/-- With no command waiting, a metronome tick passes. -/
@[simp] theorem step_nil (s : State) (h : s.pending = []) : step s = .next s.idle := by simp [step, h]

/-- A step whose command in front answers through an operation on the hardware. -/
theorem State.run_next {s t : State} {f : Hw → Hw} (h : s.run f = .next t) :
    t = if s.hw.cold then s else s.commit (f s.hw) := by
  simp only [State.run, Host.Outcome.next.injEq] at h; exact h.symm

end Sys2Proof.Machine
end

