-- ==== Sys2Proof/Laws/Table.lean ====
section
/-! SUPPORT. Tables: a key reads as the value last set for it, every other key as before. -/

namespace Sys2Proof.Machine

@[simp] theorem tget_nil {κ α : Type} [DecidableEq κ] (k : κ) (d : α) : tget ([] : Tab κ α) k d = d := rfl

@[simp] theorem tget_tset_self {κ α : Type} [DecidableEq κ] (t : Tab κ α) (k : κ) (v d : α) : tget (tset t k v) k d = v := by
  induction t with
  | nil => simp [tset, tget]
  | cons p r ih =>
    obtain ⟨k', v'⟩ := p
    by_cases hk : k = k' <;> simp [tset, tget, hk] <;> simpa [hk] using ih

@[simp] theorem tget_tset_ne {κ α : Type} [DecidableEq κ] (t : Tab κ α) (k j : κ) (v d : α) (hj : j ≠ k) :
    tget (tset t k v) j d = tget t j d := by
  induction t with
  | nil => simp [tset, tget, hj]
  | cons p r ih =>
    obtain ⟨k', v'⟩ := p
    by_cases hk : k = k'
    · subst hk; simp [tset, tget, hj]
    · by_cases hjk : j = k' <;> simp [tset, tget, hk, hjk, ih]

/-- A table set at a key reads, at any key, as the new value there and as before elsewhere. -/
theorem tget_tset {κ α : Type} [DecidableEq κ] (t : Tab κ α) (k j : κ) (v d : α) :
    tget (tset t k v) j d = if j = k then v else tget t j d := by
  by_cases hj : j = k
  · subst hj; simp
  · simp [hj]

end Sys2Proof.Machine
end

