-- ==== Sys2Proof/Laws/State.lean ====
section
/-! SUPPORT. What each named update of the hardware leaves alone: one lemma per field, and per reader, for each update. -/

namespace Sys2Proof.Machine

/-! ### put -/

@[simp] theorem Hw.put_cold (h : Hw) (f : Fld) (i v k : Nat) : (h.put f i v k).cold = h.cold := rfl
@[simp] theorem Hw.put_now (h : Hw) (f : Fld) (i v k : Nat) : (h.put f i v k).now = h.now := rfl
@[simp] theorem Hw.put_free (h : Hw) (f : Fld) (i v k : Nat) : (h.put f i v k).free = h.free := rfl
@[simp] theorem Hw.put_mem (h : Hw) (f : Fld) (i v k : Nat) : (h.put f i v k).mem = h.mem := rfl
@[simp] theorem Hw.put_wrq (h : Hw) (f : Fld) (i v k : Nat) : (h.put f i v k).wrq = h.wrq := rfl
@[simp] theorem Hw.put_ecc (h : Hw) (f : Fld) (i v k : Nat) : (h.put f i v k).ecc = h.ecc := rfl
@[simp] theorem Hw.put_units (h : Hw) (f : Fld) (i v k : Nat) : (h.put f i v k).units = h.units := rfl
@[simp] theorem Hw.put_engs (h : Hw) (f : Fld) (i v k : Nat) : (h.put f i v k).engs = h.engs := rfl
@[simp] theorem Hw.put_dies (h : Hw) (f : Fld) (i v k : Nat) : (h.put f i v k).dies = h.dies := rfl
@[simp] theorem Hw.put_caps (h : Hw) (f : Fld) (i v k : Nat) : (h.put f i v k).caps = h.caps := rfl
@[simp] theorem Hw.put_ques (h : Hw) (f : Fld) (i v k : Nat) : (h.put f i v k).ques = h.ques := rfl
@[simp] theorem Hw.put_ths (h : Hw) (f : Fld) (i v k : Nat) : (h.put f i v k).ths = h.ths := rfl
@[simp] theorem Hw.put_sids (h : Hw) (f : Fld) (i v k : Nat) : (h.put f i v k).sids = h.sids := rfl
@[simp] theorem Hw.put_visits (h : Hw) (f : Fld) (i v k : Nat) : (h.put f i v k).visits = h.visits := rfl
@[simp] theorem Hw.put_evs (h : Hw) (f : Fld) (i v k : Nat) : (h.put f i v k).evs = h.evs := rfl
@[simp] theorem Hw.put_trigEnd (h : Hw) (f : Fld) (i v k : Nat) : (h.put f i v k).trigEnd = h.trigEnd := rfl
@[simp] theorem Hw.put_trigLvl (h : Hw) (f : Fld) (i v k : Nat) : (h.put f i v k).trigLvl = h.trigLvl := rfl
@[simp] theorem Hw.put_trigNew (h : Hw) (f : Fld) (i v k : Nat) : (h.put f i v k).trigNew = h.trigNew := rfl
@[simp] theorem Hw.put_trigAt (h : Hw) (f : Fld) (i v k : Nat) : (h.put f i v k).trigAt = h.trigAt := rfl
@[simp] theorem Hw.put_ports (h : Hw) (f : Fld) (i v k : Nat) : (h.put f i v k).ports = h.ports := rfl
@[simp] theorem Hw.put_line (h : Hw) (f : Fld) (i v k : Nat) : (h.put f i v k).line = h.line := rfl
@[simp] theorem Hw.put_metLost (h : Hw) (f : Fld) (i v k : Nat) : (h.put f i v k).metLost = h.metLost := rfl
@[simp] theorem Hw.put_sess (h : Hw) (f : Fld) (i v k : Nat) : (h.put f i v k).sess = h.sess := rfl
@[simp] theorem Hw.put_spi (h : Hw) (f : Fld) (i v k : Nat) : (h.put f i v k).spi = h.spi := rfl
@[simp] theorem Hw.put_jobs (h : Hw) (f : Fld) (i v k : Nat) : (h.put f i v k).jobs = h.jobs := rfl
@[simp] theorem Hw.put_memQ (h : Hw) (f : Fld) (i v k : Nat) : (h.put f i v k).memQ = h.memQ := rfl
@[simp] theorem Hw.put_discLock (h : Hw) (f : Fld) (i v k : Nat) : (h.put f i v k).discLock = h.discLock := rfl
@[simp] theorem Hw.put_lid (h : Hw) (f : Fld) (i v k : Nat) : (h.put f i v k).lid = h.lid := rfl
@[simp] theorem Hw.put_keyAt (h : Hw) (f : Fld) (i v k : Nat) : (h.put f i v k).keyAt = h.keyAt := rfl
@[simp] theorem Hw.put_burn (h : Hw) (f : Fld) (i v k : Nat) : (h.put f i v k).burn = h.burn := rfl
@[simp] theorem Hw.put_ans (h : Hw) (f : Fld) (i v k : Nat) : (h.put f i v k).ans = h.ans := rfl
@[simp] theorem Hw.put_nv (h : Hw) (f : Fld) (i v k : Nat) : (h.put f i v k).nv = h.nv := rfl
@[simp] theorem Hw.put_audQ (h : Hw) (f : Fld) (i v k : Nat) : (h.put f i v k).audQ = h.audQ := rfl
@[simp] theorem Hw.put_audLost (h : Hw) (f : Fld) (i v k : Nat) : (h.put f i v k).audLost = h.audLost := rfl
@[simp] theorem Hw.put_heldCnt (h : Hw) (f : Fld) (i v k : Nat) : (h.put f i v k).heldCnt = h.heldCnt := rfl
@[simp] theorem Hw.put_boot (h : Hw) (f : Fld) (i v k : Nat) : (h.put f i v k).boot = h.boot := rfl
@[simp] theorem Hw.unit_of_put (h : Hw) (f : Fld) (i v k : Nat) (j : Nat) : (h.put f i v k).unit j = h.unit j := rfl
@[simp] theorem Hw.eng_of_put (h : Hw) (f : Fld) (i v k : Nat) (j : Nat) : (h.put f i v k).eng j = h.eng j := rfl
@[simp] theorem Hw.die_of_put (h : Hw) (f : Fld) (i v k : Nat) (j : Nat) : (h.put f i v k).die j = h.die j := rfl
@[simp] theorem Hw.cap_of_put (h : Hw) (f : Fld) (i v k : Nat) (j : Nat) : (h.put f i v k).cap j = h.cap j := rfl
@[simp] theorem Hw.th_of_put (h : Hw) (f : Fld) (i v k : Nat) (j : Nat) : (h.put f i v k).th j = h.th j := rfl
@[simp] theorem Hw.que_of_put (h : Hw) (f : Fld) (i v k : Nat) (j : Nat) : (h.put f i v k).que j = h.que j := rfl
@[simp] theorem Hw.port_of_put (h : Hw) (f : Fld) (i v k : Nat) (j : Nat) : (h.put f i v k).port j = h.port j := rfl
@[simp] theorem Hw.session_of_put (h : Hw) (f : Fld) (i v k : Nat) (j : Nat) : (h.put f i v k).session j = h.session j := rfl
@[simp] theorem Hw.visit_of_put (h : Hw) (f : Fld) (i v k : Nat) (j : Nat) : (h.put f i v k).visit j = h.visit j := rfl
@[simp] theorem Hw.sid_of_put (h : Hw) (f : Fld) (i v k : Nat) (j : Nat) : (h.put f i v k).sid j = h.sid j := rfl
@[simp] theorem Hw.byte_of_put (h : Hw) (f : Fld) (i v k : Nat) (j : Nat) : (h.put f i v k).byte j = h.byte j := rfl

/-! ### modU -/

@[simp] theorem Hw.modU_cold (h : Hw) (u : Nat) (g : UnitS → UnitS) : (h.modU u g).cold = h.cold := rfl
@[simp] theorem Hw.modU_now (h : Hw) (u : Nat) (g : UnitS → UnitS) : (h.modU u g).now = h.now := rfl
@[simp] theorem Hw.modU_free (h : Hw) (u : Nat) (g : UnitS → UnitS) : (h.modU u g).free = h.free := rfl
@[simp] theorem Hw.modU_regs (h : Hw) (u : Nat) (g : UnitS → UnitS) : (h.modU u g).regs = h.regs := rfl
@[simp] theorem Hw.modU_mem (h : Hw) (u : Nat) (g : UnitS → UnitS) : (h.modU u g).mem = h.mem := rfl
@[simp] theorem Hw.modU_wrq (h : Hw) (u : Nat) (g : UnitS → UnitS) : (h.modU u g).wrq = h.wrq := rfl
@[simp] theorem Hw.modU_ecc (h : Hw) (u : Nat) (g : UnitS → UnitS) : (h.modU u g).ecc = h.ecc := rfl
@[simp] theorem Hw.modU_engs (h : Hw) (u : Nat) (g : UnitS → UnitS) : (h.modU u g).engs = h.engs := rfl
@[simp] theorem Hw.modU_dies (h : Hw) (u : Nat) (g : UnitS → UnitS) : (h.modU u g).dies = h.dies := rfl
@[simp] theorem Hw.modU_caps (h : Hw) (u : Nat) (g : UnitS → UnitS) : (h.modU u g).caps = h.caps := rfl
@[simp] theorem Hw.modU_ques (h : Hw) (u : Nat) (g : UnitS → UnitS) : (h.modU u g).ques = h.ques := rfl
@[simp] theorem Hw.modU_ths (h : Hw) (u : Nat) (g : UnitS → UnitS) : (h.modU u g).ths = h.ths := rfl
@[simp] theorem Hw.modU_sids (h : Hw) (u : Nat) (g : UnitS → UnitS) : (h.modU u g).sids = h.sids := rfl
@[simp] theorem Hw.modU_visits (h : Hw) (u : Nat) (g : UnitS → UnitS) : (h.modU u g).visits = h.visits := rfl
@[simp] theorem Hw.modU_evs (h : Hw) (u : Nat) (g : UnitS → UnitS) : (h.modU u g).evs = h.evs := rfl
@[simp] theorem Hw.modU_trigEnd (h : Hw) (u : Nat) (g : UnitS → UnitS) : (h.modU u g).trigEnd = h.trigEnd := rfl
@[simp] theorem Hw.modU_trigLvl (h : Hw) (u : Nat) (g : UnitS → UnitS) : (h.modU u g).trigLvl = h.trigLvl := rfl
@[simp] theorem Hw.modU_trigNew (h : Hw) (u : Nat) (g : UnitS → UnitS) : (h.modU u g).trigNew = h.trigNew := rfl
@[simp] theorem Hw.modU_trigAt (h : Hw) (u : Nat) (g : UnitS → UnitS) : (h.modU u g).trigAt = h.trigAt := rfl
@[simp] theorem Hw.modU_ports (h : Hw) (u : Nat) (g : UnitS → UnitS) : (h.modU u g).ports = h.ports := rfl
@[simp] theorem Hw.modU_line (h : Hw) (u : Nat) (g : UnitS → UnitS) : (h.modU u g).line = h.line := rfl
@[simp] theorem Hw.modU_metLost (h : Hw) (u : Nat) (g : UnitS → UnitS) : (h.modU u g).metLost = h.metLost := rfl
@[simp] theorem Hw.modU_sess (h : Hw) (u : Nat) (g : UnitS → UnitS) : (h.modU u g).sess = h.sess := rfl
@[simp] theorem Hw.modU_spi (h : Hw) (u : Nat) (g : UnitS → UnitS) : (h.modU u g).spi = h.spi := rfl
@[simp] theorem Hw.modU_jobs (h : Hw) (u : Nat) (g : UnitS → UnitS) : (h.modU u g).jobs = h.jobs := rfl
@[simp] theorem Hw.modU_memQ (h : Hw) (u : Nat) (g : UnitS → UnitS) : (h.modU u g).memQ = h.memQ := rfl
@[simp] theorem Hw.modU_discLock (h : Hw) (u : Nat) (g : UnitS → UnitS) : (h.modU u g).discLock = h.discLock := rfl
@[simp] theorem Hw.modU_lid (h : Hw) (u : Nat) (g : UnitS → UnitS) : (h.modU u g).lid = h.lid := rfl
@[simp] theorem Hw.modU_keyAt (h : Hw) (u : Nat) (g : UnitS → UnitS) : (h.modU u g).keyAt = h.keyAt := rfl
@[simp] theorem Hw.modU_burn (h : Hw) (u : Nat) (g : UnitS → UnitS) : (h.modU u g).burn = h.burn := rfl
@[simp] theorem Hw.modU_ans (h : Hw) (u : Nat) (g : UnitS → UnitS) : (h.modU u g).ans = h.ans := rfl
@[simp] theorem Hw.modU_nv (h : Hw) (u : Nat) (g : UnitS → UnitS) : (h.modU u g).nv = h.nv := rfl
@[simp] theorem Hw.modU_audQ (h : Hw) (u : Nat) (g : UnitS → UnitS) : (h.modU u g).audQ = h.audQ := rfl
@[simp] theorem Hw.modU_audLost (h : Hw) (u : Nat) (g : UnitS → UnitS) : (h.modU u g).audLost = h.audLost := rfl
@[simp] theorem Hw.modU_heldCnt (h : Hw) (u : Nat) (g : UnitS → UnitS) : (h.modU u g).heldCnt = h.heldCnt := rfl
@[simp] theorem Hw.modU_boot (h : Hw) (u : Nat) (g : UnitS → UnitS) : (h.modU u g).boot = h.boot := rfl
@[simp] theorem Hw.get_of_modU (h : Hw) (u : Nat) (g : UnitS → UnitS) (F : Fld) (j n : Nat) : (h.modU u g).get F j n = h.get F j n := rfl
@[simp] theorem Hw.eng_of_modU (h : Hw) (u : Nat) (g : UnitS → UnitS) (j : Nat) : (h.modU u g).eng j = h.eng j := rfl
@[simp] theorem Hw.die_of_modU (h : Hw) (u : Nat) (g : UnitS → UnitS) (j : Nat) : (h.modU u g).die j = h.die j := rfl
@[simp] theorem Hw.cap_of_modU (h : Hw) (u : Nat) (g : UnitS → UnitS) (j : Nat) : (h.modU u g).cap j = h.cap j := rfl
@[simp] theorem Hw.th_of_modU (h : Hw) (u : Nat) (g : UnitS → UnitS) (j : Nat) : (h.modU u g).th j = h.th j := rfl
@[simp] theorem Hw.que_of_modU (h : Hw) (u : Nat) (g : UnitS → UnitS) (j : Nat) : (h.modU u g).que j = h.que j := rfl
@[simp] theorem Hw.port_of_modU (h : Hw) (u : Nat) (g : UnitS → UnitS) (j : Nat) : (h.modU u g).port j = h.port j := rfl
@[simp] theorem Hw.session_of_modU (h : Hw) (u : Nat) (g : UnitS → UnitS) (j : Nat) : (h.modU u g).session j = h.session j := rfl
@[simp] theorem Hw.visit_of_modU (h : Hw) (u : Nat) (g : UnitS → UnitS) (j : Nat) : (h.modU u g).visit j = h.visit j := rfl
@[simp] theorem Hw.sid_of_modU (h : Hw) (u : Nat) (g : UnitS → UnitS) (j : Nat) : (h.modU u g).sid j = h.sid j := rfl
@[simp] theorem Hw.byte_of_modU (h : Hw) (u : Nat) (g : UnitS → UnitS) (j : Nat) : (h.modU u g).byte j = h.byte j := rfl

@[simp] theorem Hw.modU_unit_self (h : Hw) (u : Nat) (g : UnitS → UnitS) : (h.modU u g).unit u = g (h.unit u) := by simp [Hw.modU, Hw.unit]
theorem Hw.modU_unit_ne (h : Hw) (u : Nat) (g : UnitS → UnitS) (j : Nat) (hj : j ≠ u) : (h.modU u g).unit j = h.unit j := by
  simp [Hw.modU, Hw.unit, hj]

/-! ### modE -/

@[simp] theorem Hw.modE_cold (h : Hw) (e : Nat) (g : EngS → EngS) : (h.modE e g).cold = h.cold := rfl
@[simp] theorem Hw.modE_now (h : Hw) (e : Nat) (g : EngS → EngS) : (h.modE e g).now = h.now := rfl
@[simp] theorem Hw.modE_free (h : Hw) (e : Nat) (g : EngS → EngS) : (h.modE e g).free = h.free := rfl
@[simp] theorem Hw.modE_regs (h : Hw) (e : Nat) (g : EngS → EngS) : (h.modE e g).regs = h.regs := rfl
@[simp] theorem Hw.modE_mem (h : Hw) (e : Nat) (g : EngS → EngS) : (h.modE e g).mem = h.mem := rfl
@[simp] theorem Hw.modE_wrq (h : Hw) (e : Nat) (g : EngS → EngS) : (h.modE e g).wrq = h.wrq := rfl
@[simp] theorem Hw.modE_ecc (h : Hw) (e : Nat) (g : EngS → EngS) : (h.modE e g).ecc = h.ecc := rfl
@[simp] theorem Hw.modE_units (h : Hw) (e : Nat) (g : EngS → EngS) : (h.modE e g).units = h.units := rfl
@[simp] theorem Hw.modE_dies (h : Hw) (e : Nat) (g : EngS → EngS) : (h.modE e g).dies = h.dies := rfl
@[simp] theorem Hw.modE_caps (h : Hw) (e : Nat) (g : EngS → EngS) : (h.modE e g).caps = h.caps := rfl
@[simp] theorem Hw.modE_ques (h : Hw) (e : Nat) (g : EngS → EngS) : (h.modE e g).ques = h.ques := rfl
@[simp] theorem Hw.modE_ths (h : Hw) (e : Nat) (g : EngS → EngS) : (h.modE e g).ths = h.ths := rfl
@[simp] theorem Hw.modE_sids (h : Hw) (e : Nat) (g : EngS → EngS) : (h.modE e g).sids = h.sids := rfl
@[simp] theorem Hw.modE_visits (h : Hw) (e : Nat) (g : EngS → EngS) : (h.modE e g).visits = h.visits := rfl
@[simp] theorem Hw.modE_evs (h : Hw) (e : Nat) (g : EngS → EngS) : (h.modE e g).evs = h.evs := rfl
@[simp] theorem Hw.modE_trigEnd (h : Hw) (e : Nat) (g : EngS → EngS) : (h.modE e g).trigEnd = h.trigEnd := rfl
@[simp] theorem Hw.modE_trigLvl (h : Hw) (e : Nat) (g : EngS → EngS) : (h.modE e g).trigLvl = h.trigLvl := rfl
@[simp] theorem Hw.modE_trigNew (h : Hw) (e : Nat) (g : EngS → EngS) : (h.modE e g).trigNew = h.trigNew := rfl
@[simp] theorem Hw.modE_trigAt (h : Hw) (e : Nat) (g : EngS → EngS) : (h.modE e g).trigAt = h.trigAt := rfl
@[simp] theorem Hw.modE_ports (h : Hw) (e : Nat) (g : EngS → EngS) : (h.modE e g).ports = h.ports := rfl
@[simp] theorem Hw.modE_line (h : Hw) (e : Nat) (g : EngS → EngS) : (h.modE e g).line = h.line := rfl
@[simp] theorem Hw.modE_metLost (h : Hw) (e : Nat) (g : EngS → EngS) : (h.modE e g).metLost = h.metLost := rfl
@[simp] theorem Hw.modE_sess (h : Hw) (e : Nat) (g : EngS → EngS) : (h.modE e g).sess = h.sess := rfl
@[simp] theorem Hw.modE_spi (h : Hw) (e : Nat) (g : EngS → EngS) : (h.modE e g).spi = h.spi := rfl
@[simp] theorem Hw.modE_jobs (h : Hw) (e : Nat) (g : EngS → EngS) : (h.modE e g).jobs = h.jobs := rfl
@[simp] theorem Hw.modE_memQ (h : Hw) (e : Nat) (g : EngS → EngS) : (h.modE e g).memQ = h.memQ := rfl
@[simp] theorem Hw.modE_discLock (h : Hw) (e : Nat) (g : EngS → EngS) : (h.modE e g).discLock = h.discLock := rfl
@[simp] theorem Hw.modE_lid (h : Hw) (e : Nat) (g : EngS → EngS) : (h.modE e g).lid = h.lid := rfl
@[simp] theorem Hw.modE_keyAt (h : Hw) (e : Nat) (g : EngS → EngS) : (h.modE e g).keyAt = h.keyAt := rfl
@[simp] theorem Hw.modE_burn (h : Hw) (e : Nat) (g : EngS → EngS) : (h.modE e g).burn = h.burn := rfl
@[simp] theorem Hw.modE_ans (h : Hw) (e : Nat) (g : EngS → EngS) : (h.modE e g).ans = h.ans := rfl
@[simp] theorem Hw.modE_nv (h : Hw) (e : Nat) (g : EngS → EngS) : (h.modE e g).nv = h.nv := rfl
@[simp] theorem Hw.modE_audQ (h : Hw) (e : Nat) (g : EngS → EngS) : (h.modE e g).audQ = h.audQ := rfl
@[simp] theorem Hw.modE_audLost (h : Hw) (e : Nat) (g : EngS → EngS) : (h.modE e g).audLost = h.audLost := rfl
@[simp] theorem Hw.modE_heldCnt (h : Hw) (e : Nat) (g : EngS → EngS) : (h.modE e g).heldCnt = h.heldCnt := rfl
@[simp] theorem Hw.modE_boot (h : Hw) (e : Nat) (g : EngS → EngS) : (h.modE e g).boot = h.boot := rfl
@[simp] theorem Hw.get_of_modE (h : Hw) (e : Nat) (g : EngS → EngS) (F : Fld) (j n : Nat) : (h.modE e g).get F j n = h.get F j n := rfl
@[simp] theorem Hw.unit_of_modE (h : Hw) (e : Nat) (g : EngS → EngS) (j : Nat) : (h.modE e g).unit j = h.unit j := rfl
@[simp] theorem Hw.die_of_modE (h : Hw) (e : Nat) (g : EngS → EngS) (j : Nat) : (h.modE e g).die j = h.die j := rfl
@[simp] theorem Hw.cap_of_modE (h : Hw) (e : Nat) (g : EngS → EngS) (j : Nat) : (h.modE e g).cap j = h.cap j := rfl
@[simp] theorem Hw.th_of_modE (h : Hw) (e : Nat) (g : EngS → EngS) (j : Nat) : (h.modE e g).th j = h.th j := rfl
@[simp] theorem Hw.que_of_modE (h : Hw) (e : Nat) (g : EngS → EngS) (j : Nat) : (h.modE e g).que j = h.que j := rfl
@[simp] theorem Hw.port_of_modE (h : Hw) (e : Nat) (g : EngS → EngS) (j : Nat) : (h.modE e g).port j = h.port j := rfl
@[simp] theorem Hw.session_of_modE (h : Hw) (e : Nat) (g : EngS → EngS) (j : Nat) : (h.modE e g).session j = h.session j := rfl
@[simp] theorem Hw.visit_of_modE (h : Hw) (e : Nat) (g : EngS → EngS) (j : Nat) : (h.modE e g).visit j = h.visit j := rfl
@[simp] theorem Hw.sid_of_modE (h : Hw) (e : Nat) (g : EngS → EngS) (j : Nat) : (h.modE e g).sid j = h.sid j := rfl
@[simp] theorem Hw.byte_of_modE (h : Hw) (e : Nat) (g : EngS → EngS) (j : Nat) : (h.modE e g).byte j = h.byte j := rfl

@[simp] theorem Hw.modE_eng_self (h : Hw) (e : Nat) (g : EngS → EngS) : (h.modE e g).eng e = g (h.eng e) := by simp [Hw.modE, Hw.eng]
theorem Hw.modE_eng_ne (h : Hw) (e : Nat) (g : EngS → EngS) (j : Nat) (hj : j ≠ e) : (h.modE e g).eng j = h.eng j := by
  simp [Hw.modE, Hw.eng, hj]

/-! ### modD -/

@[simp] theorem Hw.modD_cold (h : Hw) (d : Nat) (g : DieS → DieS) : (h.modD d g).cold = h.cold := rfl
@[simp] theorem Hw.modD_now (h : Hw) (d : Nat) (g : DieS → DieS) : (h.modD d g).now = h.now := rfl
@[simp] theorem Hw.modD_free (h : Hw) (d : Nat) (g : DieS → DieS) : (h.modD d g).free = h.free := rfl
@[simp] theorem Hw.modD_regs (h : Hw) (d : Nat) (g : DieS → DieS) : (h.modD d g).regs = h.regs := rfl
@[simp] theorem Hw.modD_mem (h : Hw) (d : Nat) (g : DieS → DieS) : (h.modD d g).mem = h.mem := rfl
@[simp] theorem Hw.modD_wrq (h : Hw) (d : Nat) (g : DieS → DieS) : (h.modD d g).wrq = h.wrq := rfl
@[simp] theorem Hw.modD_ecc (h : Hw) (d : Nat) (g : DieS → DieS) : (h.modD d g).ecc = h.ecc := rfl
@[simp] theorem Hw.modD_units (h : Hw) (d : Nat) (g : DieS → DieS) : (h.modD d g).units = h.units := rfl
@[simp] theorem Hw.modD_engs (h : Hw) (d : Nat) (g : DieS → DieS) : (h.modD d g).engs = h.engs := rfl
@[simp] theorem Hw.modD_caps (h : Hw) (d : Nat) (g : DieS → DieS) : (h.modD d g).caps = h.caps := rfl
@[simp] theorem Hw.modD_ques (h : Hw) (d : Nat) (g : DieS → DieS) : (h.modD d g).ques = h.ques := rfl
@[simp] theorem Hw.modD_ths (h : Hw) (d : Nat) (g : DieS → DieS) : (h.modD d g).ths = h.ths := rfl
@[simp] theorem Hw.modD_sids (h : Hw) (d : Nat) (g : DieS → DieS) : (h.modD d g).sids = h.sids := rfl
@[simp] theorem Hw.modD_visits (h : Hw) (d : Nat) (g : DieS → DieS) : (h.modD d g).visits = h.visits := rfl
@[simp] theorem Hw.modD_evs (h : Hw) (d : Nat) (g : DieS → DieS) : (h.modD d g).evs = h.evs := rfl
@[simp] theorem Hw.modD_trigEnd (h : Hw) (d : Nat) (g : DieS → DieS) : (h.modD d g).trigEnd = h.trigEnd := rfl
@[simp] theorem Hw.modD_trigLvl (h : Hw) (d : Nat) (g : DieS → DieS) : (h.modD d g).trigLvl = h.trigLvl := rfl
@[simp] theorem Hw.modD_trigNew (h : Hw) (d : Nat) (g : DieS → DieS) : (h.modD d g).trigNew = h.trigNew := rfl
@[simp] theorem Hw.modD_trigAt (h : Hw) (d : Nat) (g : DieS → DieS) : (h.modD d g).trigAt = h.trigAt := rfl
@[simp] theorem Hw.modD_ports (h : Hw) (d : Nat) (g : DieS → DieS) : (h.modD d g).ports = h.ports := rfl
@[simp] theorem Hw.modD_line (h : Hw) (d : Nat) (g : DieS → DieS) : (h.modD d g).line = h.line := rfl
@[simp] theorem Hw.modD_metLost (h : Hw) (d : Nat) (g : DieS → DieS) : (h.modD d g).metLost = h.metLost := rfl
@[simp] theorem Hw.modD_sess (h : Hw) (d : Nat) (g : DieS → DieS) : (h.modD d g).sess = h.sess := rfl
@[simp] theorem Hw.modD_spi (h : Hw) (d : Nat) (g : DieS → DieS) : (h.modD d g).spi = h.spi := rfl
@[simp] theorem Hw.modD_jobs (h : Hw) (d : Nat) (g : DieS → DieS) : (h.modD d g).jobs = h.jobs := rfl
@[simp] theorem Hw.modD_memQ (h : Hw) (d : Nat) (g : DieS → DieS) : (h.modD d g).memQ = h.memQ := rfl
@[simp] theorem Hw.modD_discLock (h : Hw) (d : Nat) (g : DieS → DieS) : (h.modD d g).discLock = h.discLock := rfl
@[simp] theorem Hw.modD_lid (h : Hw) (d : Nat) (g : DieS → DieS) : (h.modD d g).lid = h.lid := rfl
@[simp] theorem Hw.modD_keyAt (h : Hw) (d : Nat) (g : DieS → DieS) : (h.modD d g).keyAt = h.keyAt := rfl
@[simp] theorem Hw.modD_burn (h : Hw) (d : Nat) (g : DieS → DieS) : (h.modD d g).burn = h.burn := rfl
@[simp] theorem Hw.modD_ans (h : Hw) (d : Nat) (g : DieS → DieS) : (h.modD d g).ans = h.ans := rfl
@[simp] theorem Hw.modD_nv (h : Hw) (d : Nat) (g : DieS → DieS) : (h.modD d g).nv = h.nv := rfl
@[simp] theorem Hw.modD_audQ (h : Hw) (d : Nat) (g : DieS → DieS) : (h.modD d g).audQ = h.audQ := rfl
@[simp] theorem Hw.modD_audLost (h : Hw) (d : Nat) (g : DieS → DieS) : (h.modD d g).audLost = h.audLost := rfl
@[simp] theorem Hw.modD_heldCnt (h : Hw) (d : Nat) (g : DieS → DieS) : (h.modD d g).heldCnt = h.heldCnt := rfl
@[simp] theorem Hw.modD_boot (h : Hw) (d : Nat) (g : DieS → DieS) : (h.modD d g).boot = h.boot := rfl
@[simp] theorem Hw.get_of_modD (h : Hw) (d : Nat) (g : DieS → DieS) (F : Fld) (j n : Nat) : (h.modD d g).get F j n = h.get F j n := rfl
@[simp] theorem Hw.unit_of_modD (h : Hw) (d : Nat) (g : DieS → DieS) (j : Nat) : (h.modD d g).unit j = h.unit j := rfl
@[simp] theorem Hw.eng_of_modD (h : Hw) (d : Nat) (g : DieS → DieS) (j : Nat) : (h.modD d g).eng j = h.eng j := rfl
@[simp] theorem Hw.cap_of_modD (h : Hw) (d : Nat) (g : DieS → DieS) (j : Nat) : (h.modD d g).cap j = h.cap j := rfl
@[simp] theorem Hw.th_of_modD (h : Hw) (d : Nat) (g : DieS → DieS) (j : Nat) : (h.modD d g).th j = h.th j := rfl
@[simp] theorem Hw.que_of_modD (h : Hw) (d : Nat) (g : DieS → DieS) (j : Nat) : (h.modD d g).que j = h.que j := rfl
@[simp] theorem Hw.port_of_modD (h : Hw) (d : Nat) (g : DieS → DieS) (j : Nat) : (h.modD d g).port j = h.port j := rfl
@[simp] theorem Hw.session_of_modD (h : Hw) (d : Nat) (g : DieS → DieS) (j : Nat) : (h.modD d g).session j = h.session j := rfl
@[simp] theorem Hw.visit_of_modD (h : Hw) (d : Nat) (g : DieS → DieS) (j : Nat) : (h.modD d g).visit j = h.visit j := rfl
@[simp] theorem Hw.sid_of_modD (h : Hw) (d : Nat) (g : DieS → DieS) (j : Nat) : (h.modD d g).sid j = h.sid j := rfl
@[simp] theorem Hw.byte_of_modD (h : Hw) (d : Nat) (g : DieS → DieS) (j : Nat) : (h.modD d g).byte j = h.byte j := rfl

@[simp] theorem Hw.modD_die_self (h : Hw) (d : Nat) (g : DieS → DieS) : (h.modD d g).die d = g (h.die d) := by simp [Hw.modD, Hw.die]
theorem Hw.modD_die_ne (h : Hw) (d : Nat) (g : DieS → DieS) (j : Nat) (hj : j ≠ d) : (h.modD d g).die j = h.die j := by
  simp [Hw.modD, Hw.die, hj]

/-! ### modC -/

@[simp] theorem Hw.modC_cold (h : Hw) (c : Nat) (g : CapS → CapS) : (h.modC c g).cold = h.cold := rfl
@[simp] theorem Hw.modC_now (h : Hw) (c : Nat) (g : CapS → CapS) : (h.modC c g).now = h.now := rfl
@[simp] theorem Hw.modC_free (h : Hw) (c : Nat) (g : CapS → CapS) : (h.modC c g).free = h.free := rfl
@[simp] theorem Hw.modC_regs (h : Hw) (c : Nat) (g : CapS → CapS) : (h.modC c g).regs = h.regs := rfl
@[simp] theorem Hw.modC_mem (h : Hw) (c : Nat) (g : CapS → CapS) : (h.modC c g).mem = h.mem := rfl
@[simp] theorem Hw.modC_wrq (h : Hw) (c : Nat) (g : CapS → CapS) : (h.modC c g).wrq = h.wrq := rfl
@[simp] theorem Hw.modC_ecc (h : Hw) (c : Nat) (g : CapS → CapS) : (h.modC c g).ecc = h.ecc := rfl
@[simp] theorem Hw.modC_units (h : Hw) (c : Nat) (g : CapS → CapS) : (h.modC c g).units = h.units := rfl
@[simp] theorem Hw.modC_engs (h : Hw) (c : Nat) (g : CapS → CapS) : (h.modC c g).engs = h.engs := rfl
@[simp] theorem Hw.modC_dies (h : Hw) (c : Nat) (g : CapS → CapS) : (h.modC c g).dies = h.dies := rfl
@[simp] theorem Hw.modC_ques (h : Hw) (c : Nat) (g : CapS → CapS) : (h.modC c g).ques = h.ques := rfl
@[simp] theorem Hw.modC_ths (h : Hw) (c : Nat) (g : CapS → CapS) : (h.modC c g).ths = h.ths := rfl
@[simp] theorem Hw.modC_sids (h : Hw) (c : Nat) (g : CapS → CapS) : (h.modC c g).sids = h.sids := rfl
@[simp] theorem Hw.modC_visits (h : Hw) (c : Nat) (g : CapS → CapS) : (h.modC c g).visits = h.visits := rfl
@[simp] theorem Hw.modC_evs (h : Hw) (c : Nat) (g : CapS → CapS) : (h.modC c g).evs = h.evs := rfl
@[simp] theorem Hw.modC_trigEnd (h : Hw) (c : Nat) (g : CapS → CapS) : (h.modC c g).trigEnd = h.trigEnd := rfl
@[simp] theorem Hw.modC_trigLvl (h : Hw) (c : Nat) (g : CapS → CapS) : (h.modC c g).trigLvl = h.trigLvl := rfl
@[simp] theorem Hw.modC_trigNew (h : Hw) (c : Nat) (g : CapS → CapS) : (h.modC c g).trigNew = h.trigNew := rfl
@[simp] theorem Hw.modC_trigAt (h : Hw) (c : Nat) (g : CapS → CapS) : (h.modC c g).trigAt = h.trigAt := rfl
@[simp] theorem Hw.modC_ports (h : Hw) (c : Nat) (g : CapS → CapS) : (h.modC c g).ports = h.ports := rfl
@[simp] theorem Hw.modC_line (h : Hw) (c : Nat) (g : CapS → CapS) : (h.modC c g).line = h.line := rfl
@[simp] theorem Hw.modC_metLost (h : Hw) (c : Nat) (g : CapS → CapS) : (h.modC c g).metLost = h.metLost := rfl
@[simp] theorem Hw.modC_sess (h : Hw) (c : Nat) (g : CapS → CapS) : (h.modC c g).sess = h.sess := rfl
@[simp] theorem Hw.modC_spi (h : Hw) (c : Nat) (g : CapS → CapS) : (h.modC c g).spi = h.spi := rfl
@[simp] theorem Hw.modC_jobs (h : Hw) (c : Nat) (g : CapS → CapS) : (h.modC c g).jobs = h.jobs := rfl
@[simp] theorem Hw.modC_memQ (h : Hw) (c : Nat) (g : CapS → CapS) : (h.modC c g).memQ = h.memQ := rfl
@[simp] theorem Hw.modC_discLock (h : Hw) (c : Nat) (g : CapS → CapS) : (h.modC c g).discLock = h.discLock := rfl
@[simp] theorem Hw.modC_lid (h : Hw) (c : Nat) (g : CapS → CapS) : (h.modC c g).lid = h.lid := rfl
@[simp] theorem Hw.modC_keyAt (h : Hw) (c : Nat) (g : CapS → CapS) : (h.modC c g).keyAt = h.keyAt := rfl
@[simp] theorem Hw.modC_burn (h : Hw) (c : Nat) (g : CapS → CapS) : (h.modC c g).burn = h.burn := rfl
@[simp] theorem Hw.modC_ans (h : Hw) (c : Nat) (g : CapS → CapS) : (h.modC c g).ans = h.ans := rfl
@[simp] theorem Hw.modC_nv (h : Hw) (c : Nat) (g : CapS → CapS) : (h.modC c g).nv = h.nv := rfl
@[simp] theorem Hw.modC_audQ (h : Hw) (c : Nat) (g : CapS → CapS) : (h.modC c g).audQ = h.audQ := rfl
@[simp] theorem Hw.modC_audLost (h : Hw) (c : Nat) (g : CapS → CapS) : (h.modC c g).audLost = h.audLost := rfl
@[simp] theorem Hw.modC_heldCnt (h : Hw) (c : Nat) (g : CapS → CapS) : (h.modC c g).heldCnt = h.heldCnt := rfl
@[simp] theorem Hw.modC_boot (h : Hw) (c : Nat) (g : CapS → CapS) : (h.modC c g).boot = h.boot := rfl
@[simp] theorem Hw.get_of_modC (h : Hw) (c : Nat) (g : CapS → CapS) (F : Fld) (j n : Nat) : (h.modC c g).get F j n = h.get F j n := rfl
@[simp] theorem Hw.unit_of_modC (h : Hw) (c : Nat) (g : CapS → CapS) (j : Nat) : (h.modC c g).unit j = h.unit j := rfl
@[simp] theorem Hw.eng_of_modC (h : Hw) (c : Nat) (g : CapS → CapS) (j : Nat) : (h.modC c g).eng j = h.eng j := rfl
@[simp] theorem Hw.die_of_modC (h : Hw) (c : Nat) (g : CapS → CapS) (j : Nat) : (h.modC c g).die j = h.die j := rfl
@[simp] theorem Hw.th_of_modC (h : Hw) (c : Nat) (g : CapS → CapS) (j : Nat) : (h.modC c g).th j = h.th j := rfl
@[simp] theorem Hw.que_of_modC (h : Hw) (c : Nat) (g : CapS → CapS) (j : Nat) : (h.modC c g).que j = h.que j := rfl
@[simp] theorem Hw.port_of_modC (h : Hw) (c : Nat) (g : CapS → CapS) (j : Nat) : (h.modC c g).port j = h.port j := rfl
@[simp] theorem Hw.session_of_modC (h : Hw) (c : Nat) (g : CapS → CapS) (j : Nat) : (h.modC c g).session j = h.session j := rfl
@[simp] theorem Hw.visit_of_modC (h : Hw) (c : Nat) (g : CapS → CapS) (j : Nat) : (h.modC c g).visit j = h.visit j := rfl
@[simp] theorem Hw.sid_of_modC (h : Hw) (c : Nat) (g : CapS → CapS) (j : Nat) : (h.modC c g).sid j = h.sid j := rfl
@[simp] theorem Hw.byte_of_modC (h : Hw) (c : Nat) (g : CapS → CapS) (j : Nat) : (h.modC c g).byte j = h.byte j := rfl

@[simp] theorem Hw.modC_cap_self (h : Hw) (c : Nat) (g : CapS → CapS) : (h.modC c g).cap c = g (h.cap c) := by simp [Hw.modC, Hw.cap]
theorem Hw.modC_cap_ne (h : Hw) (c : Nat) (g : CapS → CapS) (j : Nat) (hj : j ≠ c) : (h.modC c g).cap j = h.cap j := by
  simp [Hw.modC, Hw.cap, hj]

/-! ### modT -/

@[simp] theorem Hw.modT_cold (h : Hw) (k : Nat) (g : ThS → ThS) : (h.modT k g).cold = h.cold := rfl
@[simp] theorem Hw.modT_now (h : Hw) (k : Nat) (g : ThS → ThS) : (h.modT k g).now = h.now := rfl
@[simp] theorem Hw.modT_free (h : Hw) (k : Nat) (g : ThS → ThS) : (h.modT k g).free = h.free := rfl
@[simp] theorem Hw.modT_regs (h : Hw) (k : Nat) (g : ThS → ThS) : (h.modT k g).regs = h.regs := rfl
@[simp] theorem Hw.modT_mem (h : Hw) (k : Nat) (g : ThS → ThS) : (h.modT k g).mem = h.mem := rfl
@[simp] theorem Hw.modT_wrq (h : Hw) (k : Nat) (g : ThS → ThS) : (h.modT k g).wrq = h.wrq := rfl
@[simp] theorem Hw.modT_ecc (h : Hw) (k : Nat) (g : ThS → ThS) : (h.modT k g).ecc = h.ecc := rfl
@[simp] theorem Hw.modT_units (h : Hw) (k : Nat) (g : ThS → ThS) : (h.modT k g).units = h.units := rfl
@[simp] theorem Hw.modT_engs (h : Hw) (k : Nat) (g : ThS → ThS) : (h.modT k g).engs = h.engs := rfl
@[simp] theorem Hw.modT_dies (h : Hw) (k : Nat) (g : ThS → ThS) : (h.modT k g).dies = h.dies := rfl
@[simp] theorem Hw.modT_caps (h : Hw) (k : Nat) (g : ThS → ThS) : (h.modT k g).caps = h.caps := rfl
@[simp] theorem Hw.modT_ques (h : Hw) (k : Nat) (g : ThS → ThS) : (h.modT k g).ques = h.ques := rfl
@[simp] theorem Hw.modT_sids (h : Hw) (k : Nat) (g : ThS → ThS) : (h.modT k g).sids = h.sids := rfl
@[simp] theorem Hw.modT_visits (h : Hw) (k : Nat) (g : ThS → ThS) : (h.modT k g).visits = h.visits := rfl
@[simp] theorem Hw.modT_evs (h : Hw) (k : Nat) (g : ThS → ThS) : (h.modT k g).evs = h.evs := rfl
@[simp] theorem Hw.modT_trigEnd (h : Hw) (k : Nat) (g : ThS → ThS) : (h.modT k g).trigEnd = h.trigEnd := rfl
@[simp] theorem Hw.modT_trigLvl (h : Hw) (k : Nat) (g : ThS → ThS) : (h.modT k g).trigLvl = h.trigLvl := rfl
@[simp] theorem Hw.modT_trigNew (h : Hw) (k : Nat) (g : ThS → ThS) : (h.modT k g).trigNew = h.trigNew := rfl
@[simp] theorem Hw.modT_trigAt (h : Hw) (k : Nat) (g : ThS → ThS) : (h.modT k g).trigAt = h.trigAt := rfl
@[simp] theorem Hw.modT_ports (h : Hw) (k : Nat) (g : ThS → ThS) : (h.modT k g).ports = h.ports := rfl
@[simp] theorem Hw.modT_line (h : Hw) (k : Nat) (g : ThS → ThS) : (h.modT k g).line = h.line := rfl
@[simp] theorem Hw.modT_metLost (h : Hw) (k : Nat) (g : ThS → ThS) : (h.modT k g).metLost = h.metLost := rfl
@[simp] theorem Hw.modT_sess (h : Hw) (k : Nat) (g : ThS → ThS) : (h.modT k g).sess = h.sess := rfl
@[simp] theorem Hw.modT_spi (h : Hw) (k : Nat) (g : ThS → ThS) : (h.modT k g).spi = h.spi := rfl
@[simp] theorem Hw.modT_jobs (h : Hw) (k : Nat) (g : ThS → ThS) : (h.modT k g).jobs = h.jobs := rfl
@[simp] theorem Hw.modT_memQ (h : Hw) (k : Nat) (g : ThS → ThS) : (h.modT k g).memQ = h.memQ := rfl
@[simp] theorem Hw.modT_discLock (h : Hw) (k : Nat) (g : ThS → ThS) : (h.modT k g).discLock = h.discLock := rfl
@[simp] theorem Hw.modT_lid (h : Hw) (k : Nat) (g : ThS → ThS) : (h.modT k g).lid = h.lid := rfl
@[simp] theorem Hw.modT_keyAt (h : Hw) (k : Nat) (g : ThS → ThS) : (h.modT k g).keyAt = h.keyAt := rfl
@[simp] theorem Hw.modT_burn (h : Hw) (k : Nat) (g : ThS → ThS) : (h.modT k g).burn = h.burn := rfl
@[simp] theorem Hw.modT_ans (h : Hw) (k : Nat) (g : ThS → ThS) : (h.modT k g).ans = h.ans := rfl
@[simp] theorem Hw.modT_nv (h : Hw) (k : Nat) (g : ThS → ThS) : (h.modT k g).nv = h.nv := rfl
@[simp] theorem Hw.modT_audQ (h : Hw) (k : Nat) (g : ThS → ThS) : (h.modT k g).audQ = h.audQ := rfl
@[simp] theorem Hw.modT_audLost (h : Hw) (k : Nat) (g : ThS → ThS) : (h.modT k g).audLost = h.audLost := rfl
@[simp] theorem Hw.modT_heldCnt (h : Hw) (k : Nat) (g : ThS → ThS) : (h.modT k g).heldCnt = h.heldCnt := rfl
@[simp] theorem Hw.modT_boot (h : Hw) (k : Nat) (g : ThS → ThS) : (h.modT k g).boot = h.boot := rfl
@[simp] theorem Hw.get_of_modT (h : Hw) (k : Nat) (g : ThS → ThS) (F : Fld) (j n : Nat) : (h.modT k g).get F j n = h.get F j n := rfl
@[simp] theorem Hw.unit_of_modT (h : Hw) (k : Nat) (g : ThS → ThS) (j : Nat) : (h.modT k g).unit j = h.unit j := rfl
@[simp] theorem Hw.eng_of_modT (h : Hw) (k : Nat) (g : ThS → ThS) (j : Nat) : (h.modT k g).eng j = h.eng j := rfl
@[simp] theorem Hw.die_of_modT (h : Hw) (k : Nat) (g : ThS → ThS) (j : Nat) : (h.modT k g).die j = h.die j := rfl
@[simp] theorem Hw.cap_of_modT (h : Hw) (k : Nat) (g : ThS → ThS) (j : Nat) : (h.modT k g).cap j = h.cap j := rfl
@[simp] theorem Hw.que_of_modT (h : Hw) (k : Nat) (g : ThS → ThS) (j : Nat) : (h.modT k g).que j = h.que j := rfl
@[simp] theorem Hw.port_of_modT (h : Hw) (k : Nat) (g : ThS → ThS) (j : Nat) : (h.modT k g).port j = h.port j := rfl
@[simp] theorem Hw.session_of_modT (h : Hw) (k : Nat) (g : ThS → ThS) (j : Nat) : (h.modT k g).session j = h.session j := rfl
@[simp] theorem Hw.visit_of_modT (h : Hw) (k : Nat) (g : ThS → ThS) (j : Nat) : (h.modT k g).visit j = h.visit j := rfl
@[simp] theorem Hw.sid_of_modT (h : Hw) (k : Nat) (g : ThS → ThS) (j : Nat) : (h.modT k g).sid j = h.sid j := rfl
@[simp] theorem Hw.byte_of_modT (h : Hw) (k : Nat) (g : ThS → ThS) (j : Nat) : (h.modT k g).byte j = h.byte j := rfl

@[simp] theorem Hw.modT_th_self (h : Hw) (k : Nat) (g : ThS → ThS) : (h.modT k g).th k = g (h.th k) := by simp [Hw.modT, Hw.th]
theorem Hw.modT_th_ne (h : Hw) (k : Nat) (g : ThS → ThS) (j : Nat) (hj : j ≠ k) : (h.modT k g).th j = h.th j := by
  simp [Hw.modT, Hw.th, hj]

/-! ### modQ -/

@[simp] theorem Hw.modQ_cold (h : Hw) (q : Nat) (g : QueS → QueS) : (h.modQ q g).cold = h.cold := rfl
@[simp] theorem Hw.modQ_now (h : Hw) (q : Nat) (g : QueS → QueS) : (h.modQ q g).now = h.now := rfl
@[simp] theorem Hw.modQ_free (h : Hw) (q : Nat) (g : QueS → QueS) : (h.modQ q g).free = h.free := rfl
@[simp] theorem Hw.modQ_regs (h : Hw) (q : Nat) (g : QueS → QueS) : (h.modQ q g).regs = h.regs := rfl
@[simp] theorem Hw.modQ_mem (h : Hw) (q : Nat) (g : QueS → QueS) : (h.modQ q g).mem = h.mem := rfl
@[simp] theorem Hw.modQ_wrq (h : Hw) (q : Nat) (g : QueS → QueS) : (h.modQ q g).wrq = h.wrq := rfl
@[simp] theorem Hw.modQ_ecc (h : Hw) (q : Nat) (g : QueS → QueS) : (h.modQ q g).ecc = h.ecc := rfl
@[simp] theorem Hw.modQ_units (h : Hw) (q : Nat) (g : QueS → QueS) : (h.modQ q g).units = h.units := rfl
@[simp] theorem Hw.modQ_engs (h : Hw) (q : Nat) (g : QueS → QueS) : (h.modQ q g).engs = h.engs := rfl
@[simp] theorem Hw.modQ_dies (h : Hw) (q : Nat) (g : QueS → QueS) : (h.modQ q g).dies = h.dies := rfl
@[simp] theorem Hw.modQ_caps (h : Hw) (q : Nat) (g : QueS → QueS) : (h.modQ q g).caps = h.caps := rfl
@[simp] theorem Hw.modQ_ths (h : Hw) (q : Nat) (g : QueS → QueS) : (h.modQ q g).ths = h.ths := rfl
@[simp] theorem Hw.modQ_sids (h : Hw) (q : Nat) (g : QueS → QueS) : (h.modQ q g).sids = h.sids := rfl
@[simp] theorem Hw.modQ_visits (h : Hw) (q : Nat) (g : QueS → QueS) : (h.modQ q g).visits = h.visits := rfl
@[simp] theorem Hw.modQ_evs (h : Hw) (q : Nat) (g : QueS → QueS) : (h.modQ q g).evs = h.evs := rfl
@[simp] theorem Hw.modQ_trigEnd (h : Hw) (q : Nat) (g : QueS → QueS) : (h.modQ q g).trigEnd = h.trigEnd := rfl
@[simp] theorem Hw.modQ_trigLvl (h : Hw) (q : Nat) (g : QueS → QueS) : (h.modQ q g).trigLvl = h.trigLvl := rfl
@[simp] theorem Hw.modQ_trigNew (h : Hw) (q : Nat) (g : QueS → QueS) : (h.modQ q g).trigNew = h.trigNew := rfl
@[simp] theorem Hw.modQ_trigAt (h : Hw) (q : Nat) (g : QueS → QueS) : (h.modQ q g).trigAt = h.trigAt := rfl
@[simp] theorem Hw.modQ_ports (h : Hw) (q : Nat) (g : QueS → QueS) : (h.modQ q g).ports = h.ports := rfl
@[simp] theorem Hw.modQ_line (h : Hw) (q : Nat) (g : QueS → QueS) : (h.modQ q g).line = h.line := rfl
@[simp] theorem Hw.modQ_metLost (h : Hw) (q : Nat) (g : QueS → QueS) : (h.modQ q g).metLost = h.metLost := rfl
@[simp] theorem Hw.modQ_sess (h : Hw) (q : Nat) (g : QueS → QueS) : (h.modQ q g).sess = h.sess := rfl
@[simp] theorem Hw.modQ_spi (h : Hw) (q : Nat) (g : QueS → QueS) : (h.modQ q g).spi = h.spi := rfl
@[simp] theorem Hw.modQ_jobs (h : Hw) (q : Nat) (g : QueS → QueS) : (h.modQ q g).jobs = h.jobs := rfl
@[simp] theorem Hw.modQ_memQ (h : Hw) (q : Nat) (g : QueS → QueS) : (h.modQ q g).memQ = h.memQ := rfl
@[simp] theorem Hw.modQ_discLock (h : Hw) (q : Nat) (g : QueS → QueS) : (h.modQ q g).discLock = h.discLock := rfl
@[simp] theorem Hw.modQ_lid (h : Hw) (q : Nat) (g : QueS → QueS) : (h.modQ q g).lid = h.lid := rfl
@[simp] theorem Hw.modQ_keyAt (h : Hw) (q : Nat) (g : QueS → QueS) : (h.modQ q g).keyAt = h.keyAt := rfl
@[simp] theorem Hw.modQ_burn (h : Hw) (q : Nat) (g : QueS → QueS) : (h.modQ q g).burn = h.burn := rfl
@[simp] theorem Hw.modQ_ans (h : Hw) (q : Nat) (g : QueS → QueS) : (h.modQ q g).ans = h.ans := rfl
@[simp] theorem Hw.modQ_nv (h : Hw) (q : Nat) (g : QueS → QueS) : (h.modQ q g).nv = h.nv := rfl
@[simp] theorem Hw.modQ_audQ (h : Hw) (q : Nat) (g : QueS → QueS) : (h.modQ q g).audQ = h.audQ := rfl
@[simp] theorem Hw.modQ_audLost (h : Hw) (q : Nat) (g : QueS → QueS) : (h.modQ q g).audLost = h.audLost := rfl
@[simp] theorem Hw.modQ_heldCnt (h : Hw) (q : Nat) (g : QueS → QueS) : (h.modQ q g).heldCnt = h.heldCnt := rfl
@[simp] theorem Hw.modQ_boot (h : Hw) (q : Nat) (g : QueS → QueS) : (h.modQ q g).boot = h.boot := rfl
@[simp] theorem Hw.get_of_modQ (h : Hw) (q : Nat) (g : QueS → QueS) (F : Fld) (j n : Nat) : (h.modQ q g).get F j n = h.get F j n := rfl
@[simp] theorem Hw.unit_of_modQ (h : Hw) (q : Nat) (g : QueS → QueS) (j : Nat) : (h.modQ q g).unit j = h.unit j := rfl
@[simp] theorem Hw.eng_of_modQ (h : Hw) (q : Nat) (g : QueS → QueS) (j : Nat) : (h.modQ q g).eng j = h.eng j := rfl
@[simp] theorem Hw.die_of_modQ (h : Hw) (q : Nat) (g : QueS → QueS) (j : Nat) : (h.modQ q g).die j = h.die j := rfl
@[simp] theorem Hw.cap_of_modQ (h : Hw) (q : Nat) (g : QueS → QueS) (j : Nat) : (h.modQ q g).cap j = h.cap j := rfl
@[simp] theorem Hw.th_of_modQ (h : Hw) (q : Nat) (g : QueS → QueS) (j : Nat) : (h.modQ q g).th j = h.th j := rfl
@[simp] theorem Hw.port_of_modQ (h : Hw) (q : Nat) (g : QueS → QueS) (j : Nat) : (h.modQ q g).port j = h.port j := rfl
@[simp] theorem Hw.session_of_modQ (h : Hw) (q : Nat) (g : QueS → QueS) (j : Nat) : (h.modQ q g).session j = h.session j := rfl
@[simp] theorem Hw.visit_of_modQ (h : Hw) (q : Nat) (g : QueS → QueS) (j : Nat) : (h.modQ q g).visit j = h.visit j := rfl
@[simp] theorem Hw.sid_of_modQ (h : Hw) (q : Nat) (g : QueS → QueS) (j : Nat) : (h.modQ q g).sid j = h.sid j := rfl
@[simp] theorem Hw.byte_of_modQ (h : Hw) (q : Nat) (g : QueS → QueS) (j : Nat) : (h.modQ q g).byte j = h.byte j := rfl

@[simp] theorem Hw.modQ_que_self (h : Hw) (q : Nat) (g : QueS → QueS) : (h.modQ q g).que q = g (h.que q) := by simp [Hw.modQ, Hw.que]
theorem Hw.modQ_que_ne (h : Hw) (q : Nat) (g : QueS → QueS) (j : Nat) (hj : j ≠ q) : (h.modQ q g).que j = h.que j := by
  simp [Hw.modQ, Hw.que, hj]

/-! ### modP -/

@[simp] theorem Hw.modP_cold (h : Hw) (p : Nat) (g : PortS → PortS) : (h.modP p g).cold = h.cold := rfl
@[simp] theorem Hw.modP_now (h : Hw) (p : Nat) (g : PortS → PortS) : (h.modP p g).now = h.now := rfl
@[simp] theorem Hw.modP_free (h : Hw) (p : Nat) (g : PortS → PortS) : (h.modP p g).free = h.free := rfl
@[simp] theorem Hw.modP_regs (h : Hw) (p : Nat) (g : PortS → PortS) : (h.modP p g).regs = h.regs := rfl
@[simp] theorem Hw.modP_mem (h : Hw) (p : Nat) (g : PortS → PortS) : (h.modP p g).mem = h.mem := rfl
@[simp] theorem Hw.modP_wrq (h : Hw) (p : Nat) (g : PortS → PortS) : (h.modP p g).wrq = h.wrq := rfl
@[simp] theorem Hw.modP_ecc (h : Hw) (p : Nat) (g : PortS → PortS) : (h.modP p g).ecc = h.ecc := rfl
@[simp] theorem Hw.modP_units (h : Hw) (p : Nat) (g : PortS → PortS) : (h.modP p g).units = h.units := rfl
@[simp] theorem Hw.modP_engs (h : Hw) (p : Nat) (g : PortS → PortS) : (h.modP p g).engs = h.engs := rfl
@[simp] theorem Hw.modP_dies (h : Hw) (p : Nat) (g : PortS → PortS) : (h.modP p g).dies = h.dies := rfl
@[simp] theorem Hw.modP_caps (h : Hw) (p : Nat) (g : PortS → PortS) : (h.modP p g).caps = h.caps := rfl
@[simp] theorem Hw.modP_ques (h : Hw) (p : Nat) (g : PortS → PortS) : (h.modP p g).ques = h.ques := rfl
@[simp] theorem Hw.modP_ths (h : Hw) (p : Nat) (g : PortS → PortS) : (h.modP p g).ths = h.ths := rfl
@[simp] theorem Hw.modP_sids (h : Hw) (p : Nat) (g : PortS → PortS) : (h.modP p g).sids = h.sids := rfl
@[simp] theorem Hw.modP_visits (h : Hw) (p : Nat) (g : PortS → PortS) : (h.modP p g).visits = h.visits := rfl
@[simp] theorem Hw.modP_evs (h : Hw) (p : Nat) (g : PortS → PortS) : (h.modP p g).evs = h.evs := rfl
@[simp] theorem Hw.modP_trigEnd (h : Hw) (p : Nat) (g : PortS → PortS) : (h.modP p g).trigEnd = h.trigEnd := rfl
@[simp] theorem Hw.modP_trigLvl (h : Hw) (p : Nat) (g : PortS → PortS) : (h.modP p g).trigLvl = h.trigLvl := rfl
@[simp] theorem Hw.modP_trigNew (h : Hw) (p : Nat) (g : PortS → PortS) : (h.modP p g).trigNew = h.trigNew := rfl
@[simp] theorem Hw.modP_trigAt (h : Hw) (p : Nat) (g : PortS → PortS) : (h.modP p g).trigAt = h.trigAt := rfl
@[simp] theorem Hw.modP_line (h : Hw) (p : Nat) (g : PortS → PortS) : (h.modP p g).line = h.line := rfl
@[simp] theorem Hw.modP_metLost (h : Hw) (p : Nat) (g : PortS → PortS) : (h.modP p g).metLost = h.metLost := rfl
@[simp] theorem Hw.modP_sess (h : Hw) (p : Nat) (g : PortS → PortS) : (h.modP p g).sess = h.sess := rfl
@[simp] theorem Hw.modP_spi (h : Hw) (p : Nat) (g : PortS → PortS) : (h.modP p g).spi = h.spi := rfl
@[simp] theorem Hw.modP_jobs (h : Hw) (p : Nat) (g : PortS → PortS) : (h.modP p g).jobs = h.jobs := rfl
@[simp] theorem Hw.modP_memQ (h : Hw) (p : Nat) (g : PortS → PortS) : (h.modP p g).memQ = h.memQ := rfl
@[simp] theorem Hw.modP_discLock (h : Hw) (p : Nat) (g : PortS → PortS) : (h.modP p g).discLock = h.discLock := rfl
@[simp] theorem Hw.modP_lid (h : Hw) (p : Nat) (g : PortS → PortS) : (h.modP p g).lid = h.lid := rfl
@[simp] theorem Hw.modP_keyAt (h : Hw) (p : Nat) (g : PortS → PortS) : (h.modP p g).keyAt = h.keyAt := rfl
@[simp] theorem Hw.modP_burn (h : Hw) (p : Nat) (g : PortS → PortS) : (h.modP p g).burn = h.burn := rfl
@[simp] theorem Hw.modP_ans (h : Hw) (p : Nat) (g : PortS → PortS) : (h.modP p g).ans = h.ans := rfl
@[simp] theorem Hw.modP_nv (h : Hw) (p : Nat) (g : PortS → PortS) : (h.modP p g).nv = h.nv := rfl
@[simp] theorem Hw.modP_audQ (h : Hw) (p : Nat) (g : PortS → PortS) : (h.modP p g).audQ = h.audQ := rfl
@[simp] theorem Hw.modP_audLost (h : Hw) (p : Nat) (g : PortS → PortS) : (h.modP p g).audLost = h.audLost := rfl
@[simp] theorem Hw.modP_heldCnt (h : Hw) (p : Nat) (g : PortS → PortS) : (h.modP p g).heldCnt = h.heldCnt := rfl
@[simp] theorem Hw.modP_boot (h : Hw) (p : Nat) (g : PortS → PortS) : (h.modP p g).boot = h.boot := rfl
@[simp] theorem Hw.get_of_modP (h : Hw) (p : Nat) (g : PortS → PortS) (F : Fld) (j n : Nat) : (h.modP p g).get F j n = h.get F j n := rfl
@[simp] theorem Hw.unit_of_modP (h : Hw) (p : Nat) (g : PortS → PortS) (j : Nat) : (h.modP p g).unit j = h.unit j := rfl
@[simp] theorem Hw.eng_of_modP (h : Hw) (p : Nat) (g : PortS → PortS) (j : Nat) : (h.modP p g).eng j = h.eng j := rfl
@[simp] theorem Hw.die_of_modP (h : Hw) (p : Nat) (g : PortS → PortS) (j : Nat) : (h.modP p g).die j = h.die j := rfl
@[simp] theorem Hw.cap_of_modP (h : Hw) (p : Nat) (g : PortS → PortS) (j : Nat) : (h.modP p g).cap j = h.cap j := rfl
@[simp] theorem Hw.th_of_modP (h : Hw) (p : Nat) (g : PortS → PortS) (j : Nat) : (h.modP p g).th j = h.th j := rfl
@[simp] theorem Hw.que_of_modP (h : Hw) (p : Nat) (g : PortS → PortS) (j : Nat) : (h.modP p g).que j = h.que j := rfl
@[simp] theorem Hw.session_of_modP (h : Hw) (p : Nat) (g : PortS → PortS) (j : Nat) : (h.modP p g).session j = h.session j := rfl
@[simp] theorem Hw.visit_of_modP (h : Hw) (p : Nat) (g : PortS → PortS) (j : Nat) : (h.modP p g).visit j = h.visit j := rfl
@[simp] theorem Hw.sid_of_modP (h : Hw) (p : Nat) (g : PortS → PortS) (j : Nat) : (h.modP p g).sid j = h.sid j := rfl
@[simp] theorem Hw.byte_of_modP (h : Hw) (p : Nat) (g : PortS → PortS) (j : Nat) : (h.modP p g).byte j = h.byte j := rfl

@[simp] theorem Hw.modP_port_self (h : Hw) (p : Nat) (g : PortS → PortS) : (h.modP p g).port p = g (h.port p) := by simp [Hw.modP, Hw.port]
theorem Hw.modP_port_ne (h : Hw) (p : Nat) (g : PortS → PortS) (j : Nat) (hj : j ≠ p) : (h.modP p g).port j = h.port j := by
  simp [Hw.modP, Hw.port, hj]

/-! ### modSess -/

@[simp] theorem Hw.modSess_cold (h : Hw) (k : Nat) (g : SessS → SessS) : (h.modSess k g).cold = h.cold := rfl
@[simp] theorem Hw.modSess_now (h : Hw) (k : Nat) (g : SessS → SessS) : (h.modSess k g).now = h.now := rfl
@[simp] theorem Hw.modSess_free (h : Hw) (k : Nat) (g : SessS → SessS) : (h.modSess k g).free = h.free := rfl
@[simp] theorem Hw.modSess_regs (h : Hw) (k : Nat) (g : SessS → SessS) : (h.modSess k g).regs = h.regs := rfl
@[simp] theorem Hw.modSess_mem (h : Hw) (k : Nat) (g : SessS → SessS) : (h.modSess k g).mem = h.mem := rfl
@[simp] theorem Hw.modSess_wrq (h : Hw) (k : Nat) (g : SessS → SessS) : (h.modSess k g).wrq = h.wrq := rfl
@[simp] theorem Hw.modSess_ecc (h : Hw) (k : Nat) (g : SessS → SessS) : (h.modSess k g).ecc = h.ecc := rfl
@[simp] theorem Hw.modSess_units (h : Hw) (k : Nat) (g : SessS → SessS) : (h.modSess k g).units = h.units := rfl
@[simp] theorem Hw.modSess_engs (h : Hw) (k : Nat) (g : SessS → SessS) : (h.modSess k g).engs = h.engs := rfl
@[simp] theorem Hw.modSess_dies (h : Hw) (k : Nat) (g : SessS → SessS) : (h.modSess k g).dies = h.dies := rfl
@[simp] theorem Hw.modSess_caps (h : Hw) (k : Nat) (g : SessS → SessS) : (h.modSess k g).caps = h.caps := rfl
@[simp] theorem Hw.modSess_ques (h : Hw) (k : Nat) (g : SessS → SessS) : (h.modSess k g).ques = h.ques := rfl
@[simp] theorem Hw.modSess_ths (h : Hw) (k : Nat) (g : SessS → SessS) : (h.modSess k g).ths = h.ths := rfl
@[simp] theorem Hw.modSess_sids (h : Hw) (k : Nat) (g : SessS → SessS) : (h.modSess k g).sids = h.sids := rfl
@[simp] theorem Hw.modSess_visits (h : Hw) (k : Nat) (g : SessS → SessS) : (h.modSess k g).visits = h.visits := rfl
@[simp] theorem Hw.modSess_evs (h : Hw) (k : Nat) (g : SessS → SessS) : (h.modSess k g).evs = h.evs := rfl
@[simp] theorem Hw.modSess_trigEnd (h : Hw) (k : Nat) (g : SessS → SessS) : (h.modSess k g).trigEnd = h.trigEnd := rfl
@[simp] theorem Hw.modSess_trigLvl (h : Hw) (k : Nat) (g : SessS → SessS) : (h.modSess k g).trigLvl = h.trigLvl := rfl
@[simp] theorem Hw.modSess_trigNew (h : Hw) (k : Nat) (g : SessS → SessS) : (h.modSess k g).trigNew = h.trigNew := rfl
@[simp] theorem Hw.modSess_trigAt (h : Hw) (k : Nat) (g : SessS → SessS) : (h.modSess k g).trigAt = h.trigAt := rfl
@[simp] theorem Hw.modSess_ports (h : Hw) (k : Nat) (g : SessS → SessS) : (h.modSess k g).ports = h.ports := rfl
@[simp] theorem Hw.modSess_line (h : Hw) (k : Nat) (g : SessS → SessS) : (h.modSess k g).line = h.line := rfl
@[simp] theorem Hw.modSess_metLost (h : Hw) (k : Nat) (g : SessS → SessS) : (h.modSess k g).metLost = h.metLost := rfl
@[simp] theorem Hw.modSess_spi (h : Hw) (k : Nat) (g : SessS → SessS) : (h.modSess k g).spi = h.spi := rfl
@[simp] theorem Hw.modSess_jobs (h : Hw) (k : Nat) (g : SessS → SessS) : (h.modSess k g).jobs = h.jobs := rfl
@[simp] theorem Hw.modSess_memQ (h : Hw) (k : Nat) (g : SessS → SessS) : (h.modSess k g).memQ = h.memQ := rfl
@[simp] theorem Hw.modSess_discLock (h : Hw) (k : Nat) (g : SessS → SessS) : (h.modSess k g).discLock = h.discLock := rfl
@[simp] theorem Hw.modSess_lid (h : Hw) (k : Nat) (g : SessS → SessS) : (h.modSess k g).lid = h.lid := rfl
@[simp] theorem Hw.modSess_keyAt (h : Hw) (k : Nat) (g : SessS → SessS) : (h.modSess k g).keyAt = h.keyAt := rfl
@[simp] theorem Hw.modSess_burn (h : Hw) (k : Nat) (g : SessS → SessS) : (h.modSess k g).burn = h.burn := rfl
@[simp] theorem Hw.modSess_ans (h : Hw) (k : Nat) (g : SessS → SessS) : (h.modSess k g).ans = h.ans := rfl
@[simp] theorem Hw.modSess_nv (h : Hw) (k : Nat) (g : SessS → SessS) : (h.modSess k g).nv = h.nv := rfl
@[simp] theorem Hw.modSess_audQ (h : Hw) (k : Nat) (g : SessS → SessS) : (h.modSess k g).audQ = h.audQ := rfl
@[simp] theorem Hw.modSess_audLost (h : Hw) (k : Nat) (g : SessS → SessS) : (h.modSess k g).audLost = h.audLost := rfl
@[simp] theorem Hw.modSess_heldCnt (h : Hw) (k : Nat) (g : SessS → SessS) : (h.modSess k g).heldCnt = h.heldCnt := rfl
@[simp] theorem Hw.modSess_boot (h : Hw) (k : Nat) (g : SessS → SessS) : (h.modSess k g).boot = h.boot := rfl
@[simp] theorem Hw.get_of_modSess (h : Hw) (k : Nat) (g : SessS → SessS) (F : Fld) (j n : Nat) : (h.modSess k g).get F j n = h.get F j n := rfl
@[simp] theorem Hw.unit_of_modSess (h : Hw) (k : Nat) (g : SessS → SessS) (j : Nat) : (h.modSess k g).unit j = h.unit j := rfl
@[simp] theorem Hw.eng_of_modSess (h : Hw) (k : Nat) (g : SessS → SessS) (j : Nat) : (h.modSess k g).eng j = h.eng j := rfl
@[simp] theorem Hw.die_of_modSess (h : Hw) (k : Nat) (g : SessS → SessS) (j : Nat) : (h.modSess k g).die j = h.die j := rfl
@[simp] theorem Hw.cap_of_modSess (h : Hw) (k : Nat) (g : SessS → SessS) (j : Nat) : (h.modSess k g).cap j = h.cap j := rfl
@[simp] theorem Hw.th_of_modSess (h : Hw) (k : Nat) (g : SessS → SessS) (j : Nat) : (h.modSess k g).th j = h.th j := rfl
@[simp] theorem Hw.que_of_modSess (h : Hw) (k : Nat) (g : SessS → SessS) (j : Nat) : (h.modSess k g).que j = h.que j := rfl
@[simp] theorem Hw.port_of_modSess (h : Hw) (k : Nat) (g : SessS → SessS) (j : Nat) : (h.modSess k g).port j = h.port j := rfl
@[simp] theorem Hw.visit_of_modSess (h : Hw) (k : Nat) (g : SessS → SessS) (j : Nat) : (h.modSess k g).visit j = h.visit j := rfl
@[simp] theorem Hw.sid_of_modSess (h : Hw) (k : Nat) (g : SessS → SessS) (j : Nat) : (h.modSess k g).sid j = h.sid j := rfl
@[simp] theorem Hw.byte_of_modSess (h : Hw) (k : Nat) (g : SessS → SessS) (j : Nat) : (h.modSess k g).byte j = h.byte j := rfl

@[simp] theorem Hw.modSess_session_self (h : Hw) (k : Nat) (g : SessS → SessS) : (h.modSess k g).session k = g (h.session k) := by simp [Hw.modSess, Hw.session]
theorem Hw.modSess_session_ne (h : Hw) (k : Nat) (g : SessS → SessS) (j : Nat) (hj : j ≠ k) : (h.modSess k g).session j = h.session j := by
  simp [Hw.modSess, Hw.session, hj]

/-! ### modVis -/

@[simp] theorem Hw.modVis_cold (h : Hw) (k : Nat) (g : VisitS → VisitS) : (h.modVis k g).cold = h.cold := rfl
@[simp] theorem Hw.modVis_now (h : Hw) (k : Nat) (g : VisitS → VisitS) : (h.modVis k g).now = h.now := rfl
@[simp] theorem Hw.modVis_free (h : Hw) (k : Nat) (g : VisitS → VisitS) : (h.modVis k g).free = h.free := rfl
@[simp] theorem Hw.modVis_regs (h : Hw) (k : Nat) (g : VisitS → VisitS) : (h.modVis k g).regs = h.regs := rfl
@[simp] theorem Hw.modVis_mem (h : Hw) (k : Nat) (g : VisitS → VisitS) : (h.modVis k g).mem = h.mem := rfl
@[simp] theorem Hw.modVis_wrq (h : Hw) (k : Nat) (g : VisitS → VisitS) : (h.modVis k g).wrq = h.wrq := rfl
@[simp] theorem Hw.modVis_ecc (h : Hw) (k : Nat) (g : VisitS → VisitS) : (h.modVis k g).ecc = h.ecc := rfl
@[simp] theorem Hw.modVis_units (h : Hw) (k : Nat) (g : VisitS → VisitS) : (h.modVis k g).units = h.units := rfl
@[simp] theorem Hw.modVis_engs (h : Hw) (k : Nat) (g : VisitS → VisitS) : (h.modVis k g).engs = h.engs := rfl
@[simp] theorem Hw.modVis_dies (h : Hw) (k : Nat) (g : VisitS → VisitS) : (h.modVis k g).dies = h.dies := rfl
@[simp] theorem Hw.modVis_caps (h : Hw) (k : Nat) (g : VisitS → VisitS) : (h.modVis k g).caps = h.caps := rfl
@[simp] theorem Hw.modVis_ques (h : Hw) (k : Nat) (g : VisitS → VisitS) : (h.modVis k g).ques = h.ques := rfl
@[simp] theorem Hw.modVis_ths (h : Hw) (k : Nat) (g : VisitS → VisitS) : (h.modVis k g).ths = h.ths := rfl
@[simp] theorem Hw.modVis_sids (h : Hw) (k : Nat) (g : VisitS → VisitS) : (h.modVis k g).sids = h.sids := rfl
@[simp] theorem Hw.modVis_evs (h : Hw) (k : Nat) (g : VisitS → VisitS) : (h.modVis k g).evs = h.evs := rfl
@[simp] theorem Hw.modVis_trigEnd (h : Hw) (k : Nat) (g : VisitS → VisitS) : (h.modVis k g).trigEnd = h.trigEnd := rfl
@[simp] theorem Hw.modVis_trigLvl (h : Hw) (k : Nat) (g : VisitS → VisitS) : (h.modVis k g).trigLvl = h.trigLvl := rfl
@[simp] theorem Hw.modVis_trigNew (h : Hw) (k : Nat) (g : VisitS → VisitS) : (h.modVis k g).trigNew = h.trigNew := rfl
@[simp] theorem Hw.modVis_trigAt (h : Hw) (k : Nat) (g : VisitS → VisitS) : (h.modVis k g).trigAt = h.trigAt := rfl
@[simp] theorem Hw.modVis_ports (h : Hw) (k : Nat) (g : VisitS → VisitS) : (h.modVis k g).ports = h.ports := rfl
@[simp] theorem Hw.modVis_line (h : Hw) (k : Nat) (g : VisitS → VisitS) : (h.modVis k g).line = h.line := rfl
@[simp] theorem Hw.modVis_metLost (h : Hw) (k : Nat) (g : VisitS → VisitS) : (h.modVis k g).metLost = h.metLost := rfl
@[simp] theorem Hw.modVis_sess (h : Hw) (k : Nat) (g : VisitS → VisitS) : (h.modVis k g).sess = h.sess := rfl
@[simp] theorem Hw.modVis_spi (h : Hw) (k : Nat) (g : VisitS → VisitS) : (h.modVis k g).spi = h.spi := rfl
@[simp] theorem Hw.modVis_jobs (h : Hw) (k : Nat) (g : VisitS → VisitS) : (h.modVis k g).jobs = h.jobs := rfl
@[simp] theorem Hw.modVis_memQ (h : Hw) (k : Nat) (g : VisitS → VisitS) : (h.modVis k g).memQ = h.memQ := rfl
@[simp] theorem Hw.modVis_discLock (h : Hw) (k : Nat) (g : VisitS → VisitS) : (h.modVis k g).discLock = h.discLock := rfl
@[simp] theorem Hw.modVis_lid (h : Hw) (k : Nat) (g : VisitS → VisitS) : (h.modVis k g).lid = h.lid := rfl
@[simp] theorem Hw.modVis_keyAt (h : Hw) (k : Nat) (g : VisitS → VisitS) : (h.modVis k g).keyAt = h.keyAt := rfl
@[simp] theorem Hw.modVis_burn (h : Hw) (k : Nat) (g : VisitS → VisitS) : (h.modVis k g).burn = h.burn := rfl
@[simp] theorem Hw.modVis_ans (h : Hw) (k : Nat) (g : VisitS → VisitS) : (h.modVis k g).ans = h.ans := rfl
@[simp] theorem Hw.modVis_nv (h : Hw) (k : Nat) (g : VisitS → VisitS) : (h.modVis k g).nv = h.nv := rfl
@[simp] theorem Hw.modVis_audQ (h : Hw) (k : Nat) (g : VisitS → VisitS) : (h.modVis k g).audQ = h.audQ := rfl
@[simp] theorem Hw.modVis_audLost (h : Hw) (k : Nat) (g : VisitS → VisitS) : (h.modVis k g).audLost = h.audLost := rfl
@[simp] theorem Hw.modVis_heldCnt (h : Hw) (k : Nat) (g : VisitS → VisitS) : (h.modVis k g).heldCnt = h.heldCnt := rfl
@[simp] theorem Hw.modVis_boot (h : Hw) (k : Nat) (g : VisitS → VisitS) : (h.modVis k g).boot = h.boot := rfl
@[simp] theorem Hw.get_of_modVis (h : Hw) (k : Nat) (g : VisitS → VisitS) (F : Fld) (j n : Nat) : (h.modVis k g).get F j n = h.get F j n := rfl
@[simp] theorem Hw.unit_of_modVis (h : Hw) (k : Nat) (g : VisitS → VisitS) (j : Nat) : (h.modVis k g).unit j = h.unit j := rfl
@[simp] theorem Hw.eng_of_modVis (h : Hw) (k : Nat) (g : VisitS → VisitS) (j : Nat) : (h.modVis k g).eng j = h.eng j := rfl
@[simp] theorem Hw.die_of_modVis (h : Hw) (k : Nat) (g : VisitS → VisitS) (j : Nat) : (h.modVis k g).die j = h.die j := rfl
@[simp] theorem Hw.cap_of_modVis (h : Hw) (k : Nat) (g : VisitS → VisitS) (j : Nat) : (h.modVis k g).cap j = h.cap j := rfl
@[simp] theorem Hw.th_of_modVis (h : Hw) (k : Nat) (g : VisitS → VisitS) (j : Nat) : (h.modVis k g).th j = h.th j := rfl
@[simp] theorem Hw.que_of_modVis (h : Hw) (k : Nat) (g : VisitS → VisitS) (j : Nat) : (h.modVis k g).que j = h.que j := rfl
@[simp] theorem Hw.port_of_modVis (h : Hw) (k : Nat) (g : VisitS → VisitS) (j : Nat) : (h.modVis k g).port j = h.port j := rfl
@[simp] theorem Hw.session_of_modVis (h : Hw) (k : Nat) (g : VisitS → VisitS) (j : Nat) : (h.modVis k g).session j = h.session j := rfl
@[simp] theorem Hw.sid_of_modVis (h : Hw) (k : Nat) (g : VisitS → VisitS) (j : Nat) : (h.modVis k g).sid j = h.sid j := rfl
@[simp] theorem Hw.byte_of_modVis (h : Hw) (k : Nat) (g : VisitS → VisitS) (j : Nat) : (h.modVis k g).byte j = h.byte j := rfl

@[simp] theorem Hw.modVis_visit_self (h : Hw) (k : Nat) (g : VisitS → VisitS) : (h.modVis k g).visit k = g (h.visit k) := by simp [Hw.modVis, Hw.visit]
theorem Hw.modVis_visit_ne (h : Hw) (k : Nat) (g : VisitS → VisitS) (j : Nat) (hj : j ≠ k) : (h.modVis k g).visit j = h.visit j := by
  simp [Hw.modVis, Hw.visit, hj]

/-! ### modSid -/

@[simp] theorem Hw.modSid_cold (h : Hw) (k : Nat) (g : SidS → SidS) : (h.modSid k g).cold = h.cold := rfl
@[simp] theorem Hw.modSid_now (h : Hw) (k : Nat) (g : SidS → SidS) : (h.modSid k g).now = h.now := rfl
@[simp] theorem Hw.modSid_free (h : Hw) (k : Nat) (g : SidS → SidS) : (h.modSid k g).free = h.free := rfl
@[simp] theorem Hw.modSid_regs (h : Hw) (k : Nat) (g : SidS → SidS) : (h.modSid k g).regs = h.regs := rfl
@[simp] theorem Hw.modSid_mem (h : Hw) (k : Nat) (g : SidS → SidS) : (h.modSid k g).mem = h.mem := rfl
@[simp] theorem Hw.modSid_wrq (h : Hw) (k : Nat) (g : SidS → SidS) : (h.modSid k g).wrq = h.wrq := rfl
@[simp] theorem Hw.modSid_ecc (h : Hw) (k : Nat) (g : SidS → SidS) : (h.modSid k g).ecc = h.ecc := rfl
@[simp] theorem Hw.modSid_units (h : Hw) (k : Nat) (g : SidS → SidS) : (h.modSid k g).units = h.units := rfl
@[simp] theorem Hw.modSid_engs (h : Hw) (k : Nat) (g : SidS → SidS) : (h.modSid k g).engs = h.engs := rfl
@[simp] theorem Hw.modSid_dies (h : Hw) (k : Nat) (g : SidS → SidS) : (h.modSid k g).dies = h.dies := rfl
@[simp] theorem Hw.modSid_caps (h : Hw) (k : Nat) (g : SidS → SidS) : (h.modSid k g).caps = h.caps := rfl
@[simp] theorem Hw.modSid_ques (h : Hw) (k : Nat) (g : SidS → SidS) : (h.modSid k g).ques = h.ques := rfl
@[simp] theorem Hw.modSid_ths (h : Hw) (k : Nat) (g : SidS → SidS) : (h.modSid k g).ths = h.ths := rfl
@[simp] theorem Hw.modSid_visits (h : Hw) (k : Nat) (g : SidS → SidS) : (h.modSid k g).visits = h.visits := rfl
@[simp] theorem Hw.modSid_evs (h : Hw) (k : Nat) (g : SidS → SidS) : (h.modSid k g).evs = h.evs := rfl
@[simp] theorem Hw.modSid_trigEnd (h : Hw) (k : Nat) (g : SidS → SidS) : (h.modSid k g).trigEnd = h.trigEnd := rfl
@[simp] theorem Hw.modSid_trigLvl (h : Hw) (k : Nat) (g : SidS → SidS) : (h.modSid k g).trigLvl = h.trigLvl := rfl
@[simp] theorem Hw.modSid_trigNew (h : Hw) (k : Nat) (g : SidS → SidS) : (h.modSid k g).trigNew = h.trigNew := rfl
@[simp] theorem Hw.modSid_trigAt (h : Hw) (k : Nat) (g : SidS → SidS) : (h.modSid k g).trigAt = h.trigAt := rfl
@[simp] theorem Hw.modSid_ports (h : Hw) (k : Nat) (g : SidS → SidS) : (h.modSid k g).ports = h.ports := rfl
@[simp] theorem Hw.modSid_line (h : Hw) (k : Nat) (g : SidS → SidS) : (h.modSid k g).line = h.line := rfl
@[simp] theorem Hw.modSid_metLost (h : Hw) (k : Nat) (g : SidS → SidS) : (h.modSid k g).metLost = h.metLost := rfl
@[simp] theorem Hw.modSid_sess (h : Hw) (k : Nat) (g : SidS → SidS) : (h.modSid k g).sess = h.sess := rfl
@[simp] theorem Hw.modSid_spi (h : Hw) (k : Nat) (g : SidS → SidS) : (h.modSid k g).spi = h.spi := rfl
@[simp] theorem Hw.modSid_jobs (h : Hw) (k : Nat) (g : SidS → SidS) : (h.modSid k g).jobs = h.jobs := rfl
@[simp] theorem Hw.modSid_memQ (h : Hw) (k : Nat) (g : SidS → SidS) : (h.modSid k g).memQ = h.memQ := rfl
@[simp] theorem Hw.modSid_discLock (h : Hw) (k : Nat) (g : SidS → SidS) : (h.modSid k g).discLock = h.discLock := rfl
@[simp] theorem Hw.modSid_lid (h : Hw) (k : Nat) (g : SidS → SidS) : (h.modSid k g).lid = h.lid := rfl
@[simp] theorem Hw.modSid_keyAt (h : Hw) (k : Nat) (g : SidS → SidS) : (h.modSid k g).keyAt = h.keyAt := rfl
@[simp] theorem Hw.modSid_burn (h : Hw) (k : Nat) (g : SidS → SidS) : (h.modSid k g).burn = h.burn := rfl
@[simp] theorem Hw.modSid_ans (h : Hw) (k : Nat) (g : SidS → SidS) : (h.modSid k g).ans = h.ans := rfl
@[simp] theorem Hw.modSid_nv (h : Hw) (k : Nat) (g : SidS → SidS) : (h.modSid k g).nv = h.nv := rfl
@[simp] theorem Hw.modSid_audQ (h : Hw) (k : Nat) (g : SidS → SidS) : (h.modSid k g).audQ = h.audQ := rfl
@[simp] theorem Hw.modSid_audLost (h : Hw) (k : Nat) (g : SidS → SidS) : (h.modSid k g).audLost = h.audLost := rfl
@[simp] theorem Hw.modSid_heldCnt (h : Hw) (k : Nat) (g : SidS → SidS) : (h.modSid k g).heldCnt = h.heldCnt := rfl
@[simp] theorem Hw.modSid_boot (h : Hw) (k : Nat) (g : SidS → SidS) : (h.modSid k g).boot = h.boot := rfl
@[simp] theorem Hw.get_of_modSid (h : Hw) (k : Nat) (g : SidS → SidS) (F : Fld) (j n : Nat) : (h.modSid k g).get F j n = h.get F j n := rfl
@[simp] theorem Hw.unit_of_modSid (h : Hw) (k : Nat) (g : SidS → SidS) (j : Nat) : (h.modSid k g).unit j = h.unit j := rfl
@[simp] theorem Hw.eng_of_modSid (h : Hw) (k : Nat) (g : SidS → SidS) (j : Nat) : (h.modSid k g).eng j = h.eng j := rfl
@[simp] theorem Hw.die_of_modSid (h : Hw) (k : Nat) (g : SidS → SidS) (j : Nat) : (h.modSid k g).die j = h.die j := rfl
@[simp] theorem Hw.cap_of_modSid (h : Hw) (k : Nat) (g : SidS → SidS) (j : Nat) : (h.modSid k g).cap j = h.cap j := rfl
@[simp] theorem Hw.th_of_modSid (h : Hw) (k : Nat) (g : SidS → SidS) (j : Nat) : (h.modSid k g).th j = h.th j := rfl
@[simp] theorem Hw.que_of_modSid (h : Hw) (k : Nat) (g : SidS → SidS) (j : Nat) : (h.modSid k g).que j = h.que j := rfl
@[simp] theorem Hw.port_of_modSid (h : Hw) (k : Nat) (g : SidS → SidS) (j : Nat) : (h.modSid k g).port j = h.port j := rfl
@[simp] theorem Hw.session_of_modSid (h : Hw) (k : Nat) (g : SidS → SidS) (j : Nat) : (h.modSid k g).session j = h.session j := rfl
@[simp] theorem Hw.visit_of_modSid (h : Hw) (k : Nat) (g : SidS → SidS) (j : Nat) : (h.modSid k g).visit j = h.visit j := rfl
@[simp] theorem Hw.byte_of_modSid (h : Hw) (k : Nat) (g : SidS → SidS) (j : Nat) : (h.modSid k g).byte j = h.byte j := rfl

@[simp] theorem Hw.modSid_sid_self (h : Hw) (k : Nat) (g : SidS → SidS) : (h.modSid k g).sid k = g (h.sid k) := by simp [Hw.modSid, Hw.sid]
theorem Hw.modSid_sid_ne (h : Hw) (k : Nat) (g : SidS → SidS) (j : Nat) (hj : j ≠ k) : (h.modSid k g).sid j = h.sid j := by
  simp [Hw.modSid, Hw.sid, hj]

/-! ### wrByte -/

@[simp] theorem Hw.wrByte_cold (h : Hw) (a b : Nat) : (h.wrByte a b).cold = h.cold := rfl
@[simp] theorem Hw.wrByte_now (h : Hw) (a b : Nat) : (h.wrByte a b).now = h.now := rfl
@[simp] theorem Hw.wrByte_free (h : Hw) (a b : Nat) : (h.wrByte a b).free = h.free := rfl
@[simp] theorem Hw.wrByte_regs (h : Hw) (a b : Nat) : (h.wrByte a b).regs = h.regs := rfl
@[simp] theorem Hw.wrByte_mem (h : Hw) (a b : Nat) : (h.wrByte a b).mem = h.mem := rfl
@[simp] theorem Hw.wrByte_ecc (h : Hw) (a b : Nat) : (h.wrByte a b).ecc = h.ecc := rfl
@[simp] theorem Hw.wrByte_units (h : Hw) (a b : Nat) : (h.wrByte a b).units = h.units := rfl
@[simp] theorem Hw.wrByte_engs (h : Hw) (a b : Nat) : (h.wrByte a b).engs = h.engs := rfl
@[simp] theorem Hw.wrByte_dies (h : Hw) (a b : Nat) : (h.wrByte a b).dies = h.dies := rfl
@[simp] theorem Hw.wrByte_caps (h : Hw) (a b : Nat) : (h.wrByte a b).caps = h.caps := rfl
@[simp] theorem Hw.wrByte_ques (h : Hw) (a b : Nat) : (h.wrByte a b).ques = h.ques := rfl
@[simp] theorem Hw.wrByte_ths (h : Hw) (a b : Nat) : (h.wrByte a b).ths = h.ths := rfl
@[simp] theorem Hw.wrByte_sids (h : Hw) (a b : Nat) : (h.wrByte a b).sids = h.sids := rfl
@[simp] theorem Hw.wrByte_visits (h : Hw) (a b : Nat) : (h.wrByte a b).visits = h.visits := rfl
@[simp] theorem Hw.wrByte_evs (h : Hw) (a b : Nat) : (h.wrByte a b).evs = h.evs := rfl
@[simp] theorem Hw.wrByte_trigEnd (h : Hw) (a b : Nat) : (h.wrByte a b).trigEnd = h.trigEnd := rfl
@[simp] theorem Hw.wrByte_trigLvl (h : Hw) (a b : Nat) : (h.wrByte a b).trigLvl = h.trigLvl := rfl
@[simp] theorem Hw.wrByte_trigNew (h : Hw) (a b : Nat) : (h.wrByte a b).trigNew = h.trigNew := rfl
@[simp] theorem Hw.wrByte_trigAt (h : Hw) (a b : Nat) : (h.wrByte a b).trigAt = h.trigAt := rfl
@[simp] theorem Hw.wrByte_ports (h : Hw) (a b : Nat) : (h.wrByte a b).ports = h.ports := rfl
@[simp] theorem Hw.wrByte_line (h : Hw) (a b : Nat) : (h.wrByte a b).line = h.line := rfl
@[simp] theorem Hw.wrByte_metLost (h : Hw) (a b : Nat) : (h.wrByte a b).metLost = h.metLost := rfl
@[simp] theorem Hw.wrByte_sess (h : Hw) (a b : Nat) : (h.wrByte a b).sess = h.sess := rfl
@[simp] theorem Hw.wrByte_spi (h : Hw) (a b : Nat) : (h.wrByte a b).spi = h.spi := rfl
@[simp] theorem Hw.wrByte_jobs (h : Hw) (a b : Nat) : (h.wrByte a b).jobs = h.jobs := rfl
@[simp] theorem Hw.wrByte_memQ (h : Hw) (a b : Nat) : (h.wrByte a b).memQ = h.memQ := rfl
@[simp] theorem Hw.wrByte_discLock (h : Hw) (a b : Nat) : (h.wrByte a b).discLock = h.discLock := rfl
@[simp] theorem Hw.wrByte_lid (h : Hw) (a b : Nat) : (h.wrByte a b).lid = h.lid := rfl
@[simp] theorem Hw.wrByte_keyAt (h : Hw) (a b : Nat) : (h.wrByte a b).keyAt = h.keyAt := rfl
@[simp] theorem Hw.wrByte_burn (h : Hw) (a b : Nat) : (h.wrByte a b).burn = h.burn := rfl
@[simp] theorem Hw.wrByte_ans (h : Hw) (a b : Nat) : (h.wrByte a b).ans = h.ans := rfl
@[simp] theorem Hw.wrByte_nv (h : Hw) (a b : Nat) : (h.wrByte a b).nv = h.nv := rfl
@[simp] theorem Hw.wrByte_audQ (h : Hw) (a b : Nat) : (h.wrByte a b).audQ = h.audQ := rfl
@[simp] theorem Hw.wrByte_audLost (h : Hw) (a b : Nat) : (h.wrByte a b).audLost = h.audLost := rfl
@[simp] theorem Hw.wrByte_heldCnt (h : Hw) (a b : Nat) : (h.wrByte a b).heldCnt = h.heldCnt := rfl
@[simp] theorem Hw.wrByte_boot (h : Hw) (a b : Nat) : (h.wrByte a b).boot = h.boot := rfl
@[simp] theorem Hw.get_of_wrByte (h : Hw) (a b : Nat) (F : Fld) (j n : Nat) : (h.wrByte a b).get F j n = h.get F j n := rfl
@[simp] theorem Hw.unit_of_wrByte (h : Hw) (a b : Nat) (j : Nat) : (h.wrByte a b).unit j = h.unit j := rfl
@[simp] theorem Hw.eng_of_wrByte (h : Hw) (a b : Nat) (j : Nat) : (h.wrByte a b).eng j = h.eng j := rfl
@[simp] theorem Hw.die_of_wrByte (h : Hw) (a b : Nat) (j : Nat) : (h.wrByte a b).die j = h.die j := rfl
@[simp] theorem Hw.cap_of_wrByte (h : Hw) (a b : Nat) (j : Nat) : (h.wrByte a b).cap j = h.cap j := rfl
@[simp] theorem Hw.th_of_wrByte (h : Hw) (a b : Nat) (j : Nat) : (h.wrByte a b).th j = h.th j := rfl
@[simp] theorem Hw.que_of_wrByte (h : Hw) (a b : Nat) (j : Nat) : (h.wrByte a b).que j = h.que j := rfl
@[simp] theorem Hw.port_of_wrByte (h : Hw) (a b : Nat) (j : Nat) : (h.wrByte a b).port j = h.port j := rfl
@[simp] theorem Hw.session_of_wrByte (h : Hw) (a b : Nat) (j : Nat) : (h.wrByte a b).session j = h.session j := rfl
@[simp] theorem Hw.visit_of_wrByte (h : Hw) (a b : Nat) (j : Nat) : (h.wrByte a b).visit j = h.visit j := rfl
@[simp] theorem Hw.sid_of_wrByte (h : Hw) (a b : Nat) (j : Nat) : (h.wrByte a b).sid j = h.sid j := rfl

/-! ### The register file -/

theorem Fld.key_ne_of_pos (f g : Fld) (i j : Nat) (h : f.pos ≠ g.pos) (hs : f.stride = 0) (ht : g.stride = 0) :
    f.key i 0 ≠ g.key j 0 := by simp [Fld.key, hs, ht, h]

/-- A field set reads as the value cut to its width. -/
@[simp] theorem Hw.get_put_self (h : Hw) (f : Fld) (i v k : Nat) : (h.put f i v k).get f i k = v % 2 ^ f.width := by
  simp [Hw.put, Hw.get]

/-- Another field reads as before. -/
theorem Hw.get_put_ne (h : Hw) (f : Fld) (i v k : Nat) (F : Fld) (j n : Nat) (hk : F.key j n ≠ f.key i k) :
    (h.put f i v k).get F j n = h.get F j n := by simp [Hw.put, Hw.get, hk]

/-- Setting a field changes what is read of a field's place at that place only. -/
theorem Hw.get_put (h : Hw) (f : Fld) (i v k : Nat) (F : Fld) (j n : Nat) :
    (h.put f i v k).get F j n = if F.key j n = f.key i k then v % 2 ^ f.width else h.get F j n := by
  by_cases hk : F.key j n = f.key i k <;> simp [Hw.put, Hw.get, hk]

/-! ### Memory as a command sees it -/

@[simp] theorem Hw.byte_wrByte_self (h : Hw) (a b : Nat) : (h.wrByte a b).byte a = BitVec.ofNat 8 b := by
  simp [Hw.wrByte, Hw.byte, wrqFind]

theorem Hw.byte_wrByte_ne (h : Hw) (a b j : Nat) (hj : j ≠ a) : (h.wrByte a b).byte j = h.byte j := by
  simp [Hw.wrByte, Hw.byte, wrqFind, hj]

end Sys2Proof.Machine
end

