-- ==== Sys2Proof/WellFormed.lean ====
section
/-! DEFINITION. Well-formed commands: every operand in the range that the spec's fields, addresses and numbers give it. The machine
answers every command, well formed or not; a command that is not well formed names nothing the station has. -/

namespace Sys2Proof

/-- A number that names a unit (R42): a channel, a siding or a consist. -/
def isUnitNo (u : Nat) : Bool := decide (u < 272) || (decide (512 ≤ u) && decide (u < 768))

/-- A master of the station (R39): four Tweed ports, four sessions at each of two Ethernet ports, the SPI target port, two cores of each of
eight dies. -/
def Master.wf : Master → Bool
  | .tweed p => decide (p < 4)
  | .eth p s => decide (p < 2) && decide (s < 4)
  | .spi => true
  | .core d c => decide (d < 8) && decide (c < 2)

/-- A shared resource (R35). -/
def Res.wf : Res → Bool
  | .aux d | .points d | .cal d | .nvm d | .snap d => decide (d < 8)
  | .siding d s => decide (d < 8) && decide (s < 2)
  | .twill d c => decide (d < 8) && decide (c < 2)

/-- A token request: a rank of R36, and a unit where it is bound to one. -/
def Req.wf (r : Req) : Bool := decide (1 ≤ r.rank) && decide (r.rank ≤ 6) && r.bound.all isUnitNo && decide (r.at_ < 2 ^ 64)

/-- The site of a prediction (R32). -/
def PredSite.wf : PredSite → Bool
  | .junction e => decide (e < 64)
  | .range u | .ff u => isUnitNo u

/-- A frame's fields within their widths, and a payload of at most 256 bytes (R386). -/
def Frame.wf (f : Frame) : Bool :=
  decide (f.lane < 4) && decide (f.ty < 16) && decide (f.hops < 32) && decide (f.dest < 4096) && decide (f.src < 4096) &&
    decide (f.seq < 2 ^ 16) && decide (f.tag < 2 ^ 16) && decide (f.words.length ≤ 64) && f.words.all (fun w => decide (w < 2 ^ 32))

/-- Modulator levels: the quantiser's 16 odd levels (R153). -/
def levelsOk (l : List Int) : Bool := l.all (fun x => x % 2 == 1 && decide (-15 ≤ x) && decide (x ≤ 15))

/-- A sample's levels. -/
def Sample.wf (s : Sample) : Bool := levelsOk s.vs && levelsOk s.is && levelsOk s.sh

/-- A datagram's source (R414). -/
def Src.wf (s : Src) : Bool := decide (s.ip < 2 ^ 32) && decide (s.port < 2 ^ 16)

/-- What a follower is told at coupling (R54 to R56). -/
def Follow.wf (f : Follow) : Bool :=
  decide (f.stn < 4096) && decide (512 ≤ f.consist) && decide (f.consist < 768) && decide (f.idx < 8) &&
    decide (f.ni < 16) && decide (f.nv < 4)

/-- A well-formed command. -/
def Instr.wf : Instr → Bool
  | .registerWrite m stn addr size val => m.wf && stn.all (fun x => decide (x < 4096)) && decide (addr < 2 ^ 40) && decide (1 ≤ size) && decide (val < 2 ^ 32)
  | .accessError m addr _ => m.wf && decide (addr < 2 ^ 40)
  | .loopTick u n smp => isUnitNo u && decide (n < 2 ^ 64) && smp.all (fun p => isUnitNo p.1 && p.2.wf)
  | .guardInstant u _ _ => isUnitNo u
  | .captureDone c => decide (c < 64)
  | .lateFault u => isUnitNo u
  | .feFault u => isUnitNo u
  | .senseFault u => isUnitNo u
  | .frozenFault u => isUnitNo u
  | .ceilFault u => isUnitNo u
  | .faultClear m u => m.wf && isUnitNo u
  | .metroSourceLost => true
  | .metroSourceSwitch => true
  | .metroSourceReturn => true
  | .refclkClassify cls => decide (cls < 3)
  | .predictionConfirm site => site.wf
  | .predictionRefute site => site.wf
  | .tokenRequest res req => res.wf && req.wf
  | .tokenRelease res who => res.wf && decide (who < 256)
  | .dieFence d => decide (d < 8)
  | .couple m u => m.wf && isUnitNo u
  | .uncouple m u => m.wf && isUnitNo u
  | .coupleComplete u far follow => isUnitNo u && decide (far.res < 14) && decide (far.depth < 8) && follow.all Follow.wf
  | .outerTick u t => isUnitNo u && decide (t < 2 ^ 64)
  | .followerSilence u idx => isUnitNo u && decide (idx < 8)
  | .headSilence u => isUnitNo u
  | .snapLowestRead m stn addr ecc => m.wf && stn.all (fun x => decide (x < 4096)) && decide (addr < 2 ^ 40) && ecc.all (fun p => decide (p.1 < 2 ^ 40))
  | .snapHigherRead m stn addr => m.wf && stn.all (fun x => decide (x < 4096)) && decide (addr < 2 ^ 40)
  | .snapSlotTimeout d who t => decide (d < 8) && decide (who < 64) && decide (t < 2 ^ 64)
  | .refPush m u val => m.wf && isUnitNo u && decide (val < 2 ^ 32)
  | .refFlush m u => m.wf && isUnitNo u
  | .drvOtTrip u => isUnitNo u
  | .drvOtRelease u => isUnitNo u
  | .powerOnResetAssert => true
  | .powerOnResetRelease _ _ fl0 fl1 => decide (fl0 < 2 ^ 13) && decide (fl1 < 2 ^ 13)
  | .pointsInit d rbs => decide (d < 8) && rbs.all (fun x => decide (x < 2 ^ 16))
  | .loopClose m u mode law => m.wf && isUnitNo u && decide (mode < 2) && decide (law < 4)
  | .loopOpen m u mode law => m.wf && isUnitNo u && decide (mode < 2) && decide (law < 4)
  | .loopSwitch m u mode law => m.wf && isUnitNo u && decide (mode < 2) && decide (law < 4)
  | .loopLoad m u mode law => m.wf && isUnitNo u && decide (mode < 2) && decide (law < 4)
  | .capArm m c => m.wf && decide (c < 64)
  | .capStop m c => m.wf && decide (c < 64)
  | .capForce m c => m.wf && decide (c < 64)
  | .measOutput u path x lv _ => isUnitNo u && decide (path < 3) && decide (x < 2 ^ 64) && levelsOk lv
  | .c32Read m g path => m.wf && decide (g < 256) && decide (path < 3)
  | .auxConversionDone d who _ _ t => decide (d < 8) && decide (who < 64) && decide (t < 2 ^ 64)
  | .pointsLatch d t => decide (d < 8) && decide (t < 2 ^ 64)
  | .pointsReadback d t rb => decide (d < 8) && decide (t < 2 ^ 64) && decide (rb < 2 ^ 16)
  | .autorangeDown u => isUnitNo u
  | .armingExpire u => isUnitNo u
  | .changeDesignate u n => isUnitNo u && decide (n < 2 ^ 64)
  | .changeRetarget u n => isUnitNo u && decide (n < 2 ^ 64)
  | .changeBreak u n => isUnitNo u && decide (n < 2 ^ 64)
  | .changeReturn u n => isUnitNo u && decide (n < 2 ^ 64)
  | .rangeSelWrite m u val => m.wf && isUnitNo u && decide (val < 2 ^ 32)
  | .ttBind m e unit _ => m.wf && decide (e < 64) && decide (unit < 2 ^ 10)
  | .ttStart m e => m.wf && decide (e < 64)
  | .ttStop m e => m.wf && decide (e < 64)
  | .ttReset m e => m.wf && decide (e < 64)
  | .ttStep e => decide (e < 64)
  | .ttHalt e => decide (e < 64)
  | .ttSet e ovr rsh rate value => decide (e < 64) && decide (ovr < 2) && decide (rsh < 16) && decide (rate < 2 ^ 21) && decide (value < 2 ^ 32)
  | .ttSweep e a => decide (e < 64) && decide (a < 2 ^ 40)
  | .ttSweepPoint e => decide (e < 64)
  | .ttList e count a => decide (e < 64) && decide (count < 2 ^ 18) && decide (a < 2 ^ 40)
  | .ttListEntry e => decide (e < 64)
  | .ttPlay e rep a => decide (e < 64) && decide (rep < 2 ^ 16) && decide (a < 2 ^ 40)
  | .ttPlayPass e => decide (e < 64)
  | .ttStream e n => decide (e < 64) && decide (n < 2 ^ 32)
  | .ttStreamResume e => decide (e < 64)
  | .ttDwell e n => decide (e < 64) && decide (n < 2 ^ 32)
  | .ttOpen e bmask => decide (e < 64) && decide (bmask < 16)
  | .ttClose e bmask => decide (e < 64) && decide (bmask < 16)
  | .ttMode e mode law => decide (e < 64) && decide (mode < 2) && decide (law < 4)
  | .ttRange e irng vrng aren seti setv setar wait => decide (e < 64) && decide (irng < 16) && decide (vrng < 4) && decide (aren < 2) && decide (seti < 2) && decide (setv < 2) && decide (setar < 2) && decide (wait < 2)
  | .ttJunction e kind stat op bin th neg slot flag disp _ => decide (e < 64) && decide (kind < 4) && decide (stat < 4) && decide (op < 4) && decide (bin < 4) && decide (th < 8) && decide (neg < 2) && decide (slot < 8) && decide (flag < 8) && decide (disp < 2 ^ 24)
  | .ttLoop e count => decide (e < 64) && decide (count < 2 ^ 32)
  | .ttNext e => decide (e < 64)
  | .ttMark e clr => decide (e < 64) && decide (clr < 2)
  | .ttRewind e count => decide (e < 64) && decide (count < 2 ^ 32)
  | .ttCall e a => decide (e < 64) && decide (a < 2 ^ 40)
  | .ttRet e => decide (e < 64)
  | .ttWaitev e slot timeout disp => decide (e < 64) && decide (slot < 8) && decide (timeout < 2 ^ 24) && decide (disp < 2 ^ 24)
  | .ttSignal e ev delay => decide (e < 64) && decide (ev < 512) && decide (delay < 2 ^ 32)
  | .ttTherm e sensor wait => decide (e < 64) && decide (sensor < 16) && decide (wait < 2)
  | .ttConnect e cl => decide (e < 64) && decide (cl < 2)
  | .ttIsolate e => decide (e < 64)
  | .ttWaitCondition e => decide (e < 64)
  | .ttWaitevTimeout e => decide (e < 64)
  | .ttLineFillDone e line _ _ => decide (e < 64) && decide (line < 2 ^ 32)
  | .evRaise m ev _ => m.wf && decide (ev < 512)
  | .eventSchedule ev due t => decide (ev < 512) && decide (due < 2 ^ 64) && decide (t < 2 ^ 64)
  | .eventAct ev due => decide (ev < 512) && decide (due < 2 ^ 64)
  | .trigEdgeQualify k _ q => decide (k < 8) && decide (q < 2 ^ 64)
  | .trigPulseEnd k t => decide (k < 8) && decide (t < 2 ^ 64)
  | .trigDirWrite m k val => m.wf && decide (k < 8) && decide (val < 2 ^ 32)
  | .watchEventSeen e k => decide (e < 64) && decide (k < 8)
  | .jumpRequest m e _ => m.wf && decide (e < 64)
  | .jumpTargetWrite m e val => m.wf && decide (e < 64) && decide (val < 2 ^ 32)
  | .jumpTake e => decide (e < 64)
  | .srWpWrite m e val => m.wf && decide (e < 64) && decide (val < 2 ^ 32)
  | .recordPlace d => decide (d < 8)
  | .spillMove q => decide (q < 512)
  | .queueEnable m q val => m.wf && decide (q < 512) && decide (val < 2 ^ 32)
  | .queueDisable m q val => m.wf && decide (q < 512) && decide (val < 2 ^ 32)
  | .headCopy m q ecc => m.wf && decide (q < 512) && ecc.all (fun p => decide (p.1 < 2 ^ 40))
  | .headPop m q => m.wf && decide (q < 512)
  | .dropRest m q => m.wf && decide (q < 512)
  | .queueFlush m q => m.wf && decide (q < 512)
  | .queueRelease m q val => m.wf && decide (q < 512) && decide (val < 2 ^ 32)
  | .scrubPass c ecc => decide (c < 2) && ecc.all (fun p => decide (p.1 < 2 ^ 40))
  | .ddrTrain m c => m.wf && decide (c < 2)
  | .ddrTrainDone c _ => decide (c < 2)
  | .calVisit m d ch => m.wf && decide (d < 8) && decide (ch < 64)
  | .rotaVisit d t => decide (d < 8) && decide (t < 2 ^ 64)
  | .sidingTokenTimeout d sd t => decide (d < 8) && decide (sd < 2) && decide (t < 2 ^ 64)
  | .takeoverStart d sd => decide (d < 8) && decide (sd < 2)
  | .handover d sd n own other => decide (d < 8) && decide (sd < 2) && decide (n < 2 ^ 64) && own.wf && other.wf
  | .takeoverTimeout d sd t => decide (d < 8) && decide (sd < 2) && decide (t < 2 ^ 64)
  | .calStep d sd _ _ => decide (d < 8) && decide (sd < 2)
  | .sidingReturn d sd n own other => decide (d < 8) && decide (sd < 2) && decide (n < 2 ^ 64) && own.wf && other.wf
  | .returnTimeout d sd t => decide (d < 8) && decide (sd < 2) && decide (t < 2 ^ 64)
  | .calStandin m d ch sd _ => m.wf && decide (d < 8) && decide (ch < 64) && decide (sd < 2)
  | .calReturn m d ch => m.wf && decide (d < 8) && decide (ch < 64)
  | .calExtStdv m d => m.wf && decide (d < 8)
  | .calExtRange m d point => m.wf && decide (d < 8) && decide (point < 2)
  | .calFactoryStore m d => m.wf && decide (d < 8)
  | .calStore m d => m.wf && decide (d < 8)
  | .storeDue d t => decide (d < 8) && decide (t < 2 ^ 64)
  | .nvmPageDone d _ => decide (d < 8)
  | .ilkOpening t _ _ _ => decide (t < 2 ^ 64)
  | .ilkClosing t => decide (t < 2 ^ 64)
  | .ilkDiscrepancy t _ => decide (t < 2 ^ 64)
  | .keyPress k t => decide (k < 5) && decide (t < 2 ^ 64)
  | .keyRelease k t => decide (k < 5) && decide (t < 2 ^ 64)
  | .abortPress t => decide (t < 2 ^ 64)
  | .abortRelease t => decide (t < 2 ^ 64)
  | .fixAbsent k t => decide (k < 8) && decide (t < 2 ^ 64)
  | .fixPresent k t => decide (k < 8) && decide (t < 2 ^ 64)
  | .fixmaskWrite m u val => m.wf && isUnitNo u && decide (val < 2 ^ 32)
  | .connConnect m u => m.wf && isUnitNo u
  | .connIsolate m u => m.wf && isUnitNo u
  | .checkLatchRequest u n => isUnitNo u && decide (n < 2 ^ 64)
  | .checkSettled u n => isUnitNo u && decide (n < 2 ^ 64)
  | .checkResult u => isUnitNo u
  | .unitSafing u n => isUnitNo u && decide (n < 2 ^ 64)
  | .isolationRequest u => isUnitNo u
  | .isolationComplete u n => isUnitNo u && decide (n < 2 ^ 64)
  | .isoBackstop d t => decide (d < 8) && decide (t < 2 ^ 64)
  | .ceilCommit m d gen => m.wf && decide (d < 8) && decide (gen < 16)
  | .thermPass d t => decide (d < 8) && decide (t < 2 ^ 64)
  | .thermEmergency d t => decide (d < 8) && decide (t < 2 ^ 64)
  | .thConvert m d sensor => m.wf && decide (d < 8) && decide (sensor < 16)
  | .compUpdate d => decide (d < 8)
  | .oscCompApply t => decide (t < 2 ^ 64)
  | .censusTimeout d t => decide (d < 8) && decide (t < 2 ^ 64)
  | .imageReadDone _ ecc => ecc.all (fun p => decide (p.1 < 2 ^ 40))
  | .leaveBooting => true
  | .imgLoadMemory m => m.wf
  | .imgLoadFlashA m => m.wf
  | .imgLoadFlashB m => m.wf
  | .attest m signer => m.wf && decide (signer < 4)
  | .attestDone => true
  | .bindWrite m val => m.wf && decide (val < 2 ^ 32)
  | .reliefWrite m val => m.wf && decide (val < 2 ^ 32)
  | .keyProgram m slot => m.wf && decide (slot < 4)
  | .keyRevoke m slot => m.wf && decide (slot < 4)
  | .xspiRead m head => m.wf && decide (head < 2)
  | .xspiProgram m head => m.wf && decide (head < 2)
  | .xspiErase m head => m.wf && decide (head < 2)
  | .xspiDone _ => true
  | .audNote m val => m.wf && decide (val < 2 ^ 32)
  | .auditWrite => true
  | .portModeWrite m p mode => m.wf && decide (p < 4) && decide (mode < 4)
  | .portUp p => decide (p < 4)
  | .portDown p t _ => decide (p < 4) && decide (t < 2 ^ 64)
  | .linkWord p lane credits ack t => decide (p < 4) && decide (lane < 4) && decide (credits < 64) && decide (ack < 2 ^ 16) && decide (t < 2 ^ 64)
  | .linkWordSend p lane t => decide (p < 4) && decide (lane < 4) && decide (t < 2 ^ 64)
  | .goBackResend p lane t => decide (p < 4) && decide (lane < 4) && decide (t < 2 ^ 64)
  | .sync p f _ r => decide (p < 4) && f.wf && decide (r < 2 ^ 72)
  | .syncSend t => decide (t < 2 ^ 64)
  | .delayExchange p t => decide (p < 4) && decide (t < 2 ^ 64)
  | .delayReq p f _ r => decide (p < 4) && f.wf && decide (r < 2 ^ 72)
  | .delayRsp p f _ r => decide (p < 4) && f.wf && decide (r < 2 ^ 72)
  | .timeStep t => decide (t < 2 ^ 64)
  | .lineLocked => true
  | .lineTimeLost t => decide (t < 2 ^ 64)
  | .masterTakeover t => decide (t < 2 ^ 64)
  | .event p f _ t => decide (p < 4) && f.wf && decide (t < 2 ^ 64)
  | .outer p f _ t x => decide (p < 4) && f.wf && decide (t < 2 ^ 64) && decide (x.st < 8) && decide (x.ir < 16) && decide (x.vr < 4)
  | .report p r _ t => decide (p < 4) && r.frame.wf && decide (t < 2 ^ 64) && decide (r.st < 8)
  | .rdReq p f _ t ecc => decide (p < 4) && f.wf && decide (t < 2 ^ 64) && ecc.all (fun p => decide (p.1 < 2 ^ 40))
  | .rdRsp p f _ t => decide (p < 4) && f.wf && decide (t < 2 ^ 64)
  | .wrReq p f _ t => decide (p < 4) && f.wf && decide (t < 2 ^ 64)
  | .wrRsp p f _ t => decide (p < 4) && f.wf && decide (t < 2 ^ 64)
  | .accessTimeout tag t => decide (tag < 2 ^ 16) && decide (t < 2 ^ 64)
  | .notice p f _ t => decide (p < 4) && f.wf && decide (t < 2 ^ 64)
  | .announce p f _ t => decide (p < 4) && f.wf && decide (t < 2 ^ 64)
  | .announceSend t => decide (t < 2 ^ 64)
  | .assign p f _ t => decide (p < 4) && f.wf && decide (t < 2 ^ 64)
  | .hello p f _ t => decide (p < 4) && f.wf && decide (t < 2 ^ 64)
  | .helloSend t => decide (t < 2 ^ 64)
  | .helloTimeout stn t => decide (stn < 4096) && decide (t < 2 ^ 64)
  | .lost p f _ t => decide (p < 4) && f.wf && decide (t < 2 ^ 64)
  | .ethOpen p sess src seq _ t => decide (p < 2) && decide (sess < 4) && src.wf && decide (seq < 2 ^ 32) && decide (t < 2 ^ 64)
  | .ethClose p sess src seq t => decide (p < 2) && decide (sess < 4) && src.wf && decide (seq < 2 ^ 32) && decide (t < 2 ^ 64)
  | .ethRead p sess src seq addr count t ecc => decide (p < 2) && decide (sess < 4) && src.wf && decide (seq < 2 ^ 32) && decide (addr < 2 ^ 52) && decide (count < 2 ^ 16) && decide (t < 2 ^ 64) && ecc.all (fun p => decide (p.1 < 2 ^ 40))
  | .ethWrite p sess src seq addr data t => decide (p < 2) && decide (sess < 4) && src.wf && decide (seq < 2 ^ 32) && decide (addr < 2 ^ 52) && data.all (fun x => decide (x < 256)) && decide (t < 2 ^ 64)
  | .ethSessionIdle p sess t => decide (p < 2) && decide (sess < 4) && decide (t < 2 ^ 64)
  | .arpRequest p target ip mac t => decide (p < 2) && decide (target < 2 ^ 32) && decide (ip < 2 ^ 32) && decide (mac < 2 ^ 48) && decide (t < 2 ^ 64)
  | .icmpEcho p target => decide (p < 2) && decide (target < 2 ^ 32)
  | .ptpMessage p t _ ns _ => decide (p < 2) && decide (t < 2 ^ 64) && decide (ns < 2 ^ 80)
  | .spiRead start ecc => start.all (fun p => decide (p.1 < 256) && decide (p.2 < 2 ^ 40)) && ecc.all (fun p => decide (p.1 < 2 ^ 40))
  | .spiWrite start val => start.all (fun p => decide (p.1 < 256) && decide (p.2 < 2 ^ 40)) && decide (val < 2 ^ 32)
  | .spiCsRise => true
  | .builtInSelfTestDone d fail => decide (d < 8) && decide (fail < 4)
  | .muslinExtensionMove c => decide (c < 64)
  | .frameBoundary p t phase => decide (p < 4) && decide (t < 2 ^ 64) && decide (phase < 256)

end Sys2Proof
end

