-- ==== Sys2Proof/Tests/Slice0.lean ====
section
/-! SUPPORT. Our own tests: an ill-formed command for each check of WellFormed, the effect of some commands on small states, and for
every statement with hypotheses a state and operands that meet them, with each clause's at the ends of its range. -/

namespace Sys2Proof.Tests

open Sys2Proof Sys2Proof.Machine

/-- The hardware after reset with fields set: field, instance, value. -/
def hwOf (l : List (Fld × Nat × Nat)) : Hw := l.foldl (fun h p => h.put p.1 p.2.1 p.2.2) State.reset.hw

/-- A state with that hardware and no command waiting. -/
def stOf (h : Hw) : State := { State.reset with hw := h }

/-- The state after reset with fields set. -/
def st (l : List (Fld × Nat × Nat)) : State := stOf (hwOf l)

/-- Engine 0 RUNNING at the start of its die's timetable memory, which holds the word of `i`; further fields, and the engine as `f` makes
it. -/
def atIns (i : TIns) (l : List (Fld × Nat × Nat)) (f : EngS → EngS) : Hw :=
  ((hwOf ([(TT_STAT_STATE, 0, 1), (TT_PC_ADDR, 0, 0x100000000)] ++ l)).wrLE 0x100000000 (encIns i) 8).modE 0 f

/-- The state a command answers, where it answers a next state. -/
def after (c : Instr) (s : State) : State := match exec c s with | .next t => t | _ => s

/-- A frame for this station alone. -/
def fr (lane ty : Nat) : Frame := { lane := lane, ty := ty, loc := true }

/-! ### Ill-formed commands -/

theorem test_ill_formed_unit : Instr.wf (.guardInstant 272 false false) = false := by decide
theorem test_ill_formed_consist : Instr.wf (.outerTick 768 0) = false := by decide
theorem test_ill_formed_master : Instr.wf (.couple (.core 8 0) 512) = false := by decide
theorem test_ill_formed_port_of_a_master : Instr.wf (.audNote (.tweed 4) 0) = false := by decide
theorem test_ill_formed_session_of_a_master : Instr.wf (.audNote (.eth 1 4) 0) = false := by decide
theorem test_ill_formed_station : Instr.wf (.registerWrite .spi (some 4096) 0 4 0) = false := by decide
theorem test_ill_formed_address : Instr.wf (.registerWrite .spi none (2 ^ 40) 4 0) = false := by decide
theorem test_ill_formed_size : Instr.wf (.registerWrite .spi none 0 0 0) = false := by decide
theorem test_ill_formed_value : Instr.wf (.refPush .spi 0 (2 ^ 32)) = false := by decide
theorem test_ill_formed_instant : Instr.wf (.syncSend (2 ^ 64)) = false := by decide
theorem test_ill_formed_die : Instr.wf (.dieFence 8) = false := by decide
theorem test_ill_formed_engine : Instr.wf (.ttStep 64) = false := by decide
theorem test_ill_formed_capture : Instr.wf (.captureDone 64) = false := by decide
theorem test_ill_formed_queue : Instr.wf (.spillMove 512) = false := by decide
theorem test_ill_formed_event : Instr.wf (.evRaise .spi 512 true) = false := by decide
theorem test_ill_formed_resource : Instr.wf (.tokenRelease (.siding 0 2) 0) = false := by decide
theorem test_ill_formed_request : Instr.wf (.tokenRequest (.aux 0) { who := 0, rank := 7 }) = false := by decide
theorem test_ill_formed_prediction : Instr.wf (.predictionConfirm (.junction 64)) = false := by decide
theorem test_ill_formed_frame : Instr.wf (.sync 0 { lane := 4, ty := 0 } .good 0) = false := by decide
theorem test_ill_formed_source : Instr.wf (.ethClose 0 0 { ip := 0, port := 65536 } 0 0) = false := by decide
theorem test_ill_formed_level : Instr.wf (.measOutput 0 0 0 [2] []) = false := by decide
theorem test_ill_formed_sample : Instr.wf (.loopTick 0 0 [(0, { vs := [17] })]) = false := by decide
theorem test_ill_formed_follower : Instr.wf (.coupleComplete 512 { res := 0, depth := 0 } (some { stn := 0, consist := 511, idx := 0, ser := false, lostN := 4, ni := 0, nv := 0, per := 1 })) = false := by decide
theorem test_ill_formed_class : Instr.wf (.refclkClassify 3) = false := by decide
theorem test_ill_formed_key : Instr.wf (.keyPress 5 0) = false := by decide
theorem test_ill_formed_sensor : Instr.wf (.thConvert .spi 0 16) = false := by decide
theorem test_ill_formed_operand : Instr.wf (.ttOpen 0 16) = false := by decide
theorem test_well_formed_commands :
    Instr.wf (.guardInstant 271 false false) = true ∧ Instr.wf (.outerTick 767 (2 ^ 64 - 1)) = true ∧ Instr.wf (.ttOpen 63 15) = true := by
  decide
/-! ### States that meet the statements' hypotheses -/

theorem witness_StepRunsTheFrontCommand : ({ State.reset with pending := [.spiCsRise] } : State).pending = .spiCsRise :: [] := by decide

theorem witness_IdleStepCountsOneTick :
    (State.reset.pending = [] ∧ State.reset.on) ∧ ((stOf { hwOf [] with cold := true }).pending = [] ∧ (stOf { hwOf [] with cold := true }).hw.cold = true) := by
  decide

theorem witness_EveryStepKeepsSound : State.reset.sound ∧ step State.reset = .next State.reset.idle := ⟨by decide, rfl⟩

theorem witness_NothingActsUnderReset :
    (stOf { hwOf [] with cold := true }).hw.cold = true ∧ (∀ b n f g, Instr.spiCsRise ≠ .powerOnResetRelease b n f g) :=
  ⟨by decide, fun _ _ _ _ h => nomatch h⟩

theorem witness_ResetAssertsAndReleases :
    (State.reset.on ∧ (∀ d, d < 8 → (State.reset.hw.arb (.nvm d)).hold.any (fun r => r.who == 2) = false) ∧
      (∀ d, d < 8 → STN_BOOT_STEP.key 0 0 ≠ ILK_STAT_ISO_REL.key d 0)) ∧
    ((stOf { hwOf [] with cold := true }).hw.cold = true ∧ (hwOf []).burn = none ∧ false = false) := by decide

theorem witness_MemoryReadsBackWhatIsStored :
    (0 < 4 ∧ 3 < 4) ∧ ((7 < 8 ∨ 8 + 4 ≤ 7) ∧ (12 < 8 ∨ 8 + 4 ≤ 12)) ∧ State.reset.sound := by decide

theorem witness_FieldsHoldWhatIsSet : U_STATE_LOOP.key 0 0 ≠ U_STATE_STATE.key 0 0 ∧ U_STATE_STATE.key 1 0 ≠ U_STATE_STATE.key 0 0 := by decide

theorem witness_RegisterRegionTakesAlignedWords :
    (State.reset.hears .spi ∧ 0xFFFFFE < 0x1000000 ∧ ¬ (2 = 4 ∧ 0xFFFFFE % 4 = 0)) ∧
    (State.reset.hears .spi ∧ 2 < 0x1000000 ∧ ¬ (4 = 4 ∧ 2 % 4 = 0)) ∧
    (State.reset.hw.dieUp 0 = true ∧ 1 ≤ 1 ∧ 1 ≤ 6 ∧ 0 + 0x80000 ≤ sramSize 1 ∧ 0 < 0x100000) ∧
    (State.reset.hw.dieUp 7 = true ∧ 1 ≤ 6 ∧ 6 ≤ 6 ∧ 0x1FFFF + 1 ≤ sramSize 6 ∧ 0x1FFFF < 0x100000) ∧
    ((0 < 2 ∧ 0 < 0x1000000000 ∧ 0 + 0x100000 ≤ (hwOf [(DDR_CAP_MIB, 0, 1)]).ddrCap 0) ∧
     (1 < 2 ∧ 0xFFFFF < 0x1000000000 ∧ 0xFFFFF + 1 ≤ (hwOf [(DDR_CAP_MIB, 1, 1)]).ddrCap 1)) := by decide

/-- Channel 0 of DDR5 with capacity, its path from die 0 as given. -/
def ddrOf (a : ArbS) : Hw := (hwOf [(DDR_CAP_MIB, 0, 1)]).setArb (.twill 0 0) a

theorem witness_WritesGoWhereTheAddressLeads :
    State.reset.hears .spi ∧
    (State.reset.hw.isOwn none = true ∧ State.reset.hw.place 0 4 = .reg .stn 0 0) ∧
    (State.reset.hw.isOwn (some 0) = true ∧ State.reset.hw.place 0x10007FFFF 1 = .mem ∧ ddrChan 0x10007FFFF = none) ∧
    (∀ a, a ∈ [ddrOf {}, ddrOf { hold := [{ who := 1, rank := 4 }] }] → a.isOwn none = true ∧ a.place 0x1000000000 4 = .mem ∧ ddrChan 0x1000000000 = some 0) ∧
    (((ddrOf {}).srcTouch 0x1000000000 4).twAsk (.twill ((ddrOf {}).twDie .spi) 0) (twHost .spi) 6).holds (.twill ((ddrOf {}).twDie .spi) 0) (twHost .spi) = true ∧
    (let h := ddrOf { hold := [{ who := 1, rank := 4 }] }
     ((h.srcTouch 0x1000000000 4).twAsk (.twill (h.twDie .spi) 0) (twHost .spi) 6).holds (.twill (h.twDie .spi) 0) (twHost .spi) = false) ∧
    (State.reset.hw.isOwn none = true ∧ State.reset.hw.place 0xFFFFFC 4 = .hole) ∧
    (State.reset.hw.isOwn none = true ∧ State.reset.hw.place 0xFFFFFFFFFF 1 = .bad) ∧
    (State.reset.hw.isOwn (some 4095) = false ∧ some 4095 = some 4095 ∧ Master.core 0 0 ≠ .spi) := by
  and_intros <;> first | decide | rfl

/-- A slot of the SPI target port that holds a bin of unit 0. -/
def binSlot : Hw := (hwOf []).modD 0 (fun x => { x with slots := [{ who := masterNo .spi, blk := .unit, inst := 0, off := 0x500, words := List.replicate 16 0, granted := 0, last := 0, top := 15 }] })

/-- Queue 0 with its ring in channel 0 of DDR5, the SPI target port holding a slot of its die, the Twill path as given. -/
def headOf0 (a : ArbS) : Hw :=
  (((hwOf [(DDR_CAP_MIB, 0, 1), (Q_LR_BASE_ADDR, 0, 0x1000000000)]).modQ 0 (fun x => { x with ring := true })).modD 0 (fun x => { x with
    slots := [{ who := masterNo .spi, blk := .queue, inst := 0, off := 0x80, words := [7], granted := 0, last := 0, top := 31 }] })).setArb (.twill 0 0) a

theorem witness_ReadsHaveTheirEffects :
    ((stOf binSlot).hears .spi ∧ binSlot.place 0x110500 4 = .reg .unit 0 0x500 ∧ snapObj .unit 0x500 = some (0x500, 16) ∧
      (let k := (binSlot.meets []).readCheck .unit 0
       (k.slotOf (k.snapDie .unit 0) (masterNo .spi)).isSome = true ∧ k.headTok .unit 0 0x500 = none)) ∧
    (∀ a, a ∈ [headOf0 {}, headOf0 { hold := [{ who := 1, rank := 4 }] }] → a.place 0x150080 4 = .reg .queue 0 0x80 ∧ snapObj .queue 0x80 = some (0x80, 32) ∧
      (let k := (a.meets []).readCheck .queue 0
       (k.slotOf (k.snapDie .queue 0) (masterNo .spi)).isSome = true ∧ k.headTok .queue 0 0x80 = some (.twill 0 0))) ∧
    (((headOf0 {}).readCheck .queue 0).twAsk (.twill 0 0) (twHost .spi) 6).holds (.twill 0 0) (twHost .spi) = true ∧
    (((headOf0 { hold := [{ who := 1, rank := 4 }] }).readCheck .queue 0).twAsk (.twill 0 0) (twHost .spi) 6).holds (.twill 0 0) (twHost .spi) = false ∧
    (∀ l, (binSlot.readCheck .unit 0).slotOf 0 (masterNo .spi) = some l → l.blk = .unit ∧ l.inst = 0 ∧ l.off = 0x500 ∧ l.head = none ∧
      (0x504 - 0x500) / 4 ≠ l.top ∧ (0x53C - 0x500) / 4 = l.top) ∧
    ((0x504 ≠ 0x500) ∧ binSlot.place 0x110504 4 = .reg .unit 0 0x504 ∧ snapObj .unit 0x504 = some (0x500, 16)) ∧
    (0x53C ≠ 0x500 ∧ binSlot.place 0x11053C 4 = .reg .unit 0 0x53C ∧ snapObj .unit 0x53C = some (0x500, 16) ∧ (binSlot.readCheck .unit 0).snapDie .unit 0 = 0) ∧
    (binSlot.now ≤ 4916 ∧ (0 + 4916 ≤ 4916 ∨ 0 + 12288 ≤ 4916)) ∧ (binSlot.now ≤ 12288 ∧ (0 + 4916 ≤ 12288 ∨ 0 + 12288 ≤ 12288)) ∧
    ((stOf binSlot).hears .spi ∧ binSlot.dieUp (0 / 32) = true ∧ binSlot.dieUp (255 / 32) = true) := by
  refine ⟨by decide, by decide, by decide, by decide, fun l h => ?_, by decide⟩
  cases Option.some.inj ((show (binSlot.readCheck .unit 0).slotOf 0 (masterNo .spi) =
    some { who := masterNo .spi, blk := .unit, inst := 0, off := 0x500, words := List.replicate 16 0, granted := 0, last := 0, top := 15 } from rfl).symm.trans h)
  decide

theorem witness_HigherReadWithoutSlotMisses :
    State.reset.hears .spi ∧ State.reset.hw.place 0x110504 4 = .reg .unit 0 0x504 ∧ snapObj .unit 0x504 = some (0x500, 16) ∧ 0x504 ≠ 0x500 ∧
    (State.reset.hw.readCheck .unit 0).slotOf ((State.reset.hw.readCheck .unit 0).snapDie .unit 0) (masterNo .spi) = none := by
  and_intros <;> first | decide | rfl

/-- The SPI target port in a frame of writes with INC. -/
def spiOn : Hw := { hwOf [] with spi := { on := true, rd := false, inc := true, addr := 0, words := 1 } }

theorem witness_SpiFramesReadAndWriteWords :
    State.reset.hears .spi ∧ (State.reset.hw.spi.on = false ∧ bits 0xA8 7 4 = 0xA ∧ bit 0xA8 3 = true) ∧ (bits 0xA4 7 4 = 0xA ∧ bit 0xA4 3 = false) ∧
    (bits 0xB0 7 4 ≠ 0xA ∧ bit 0xB0 3 = false) ∧ (spiOn.spi.on = true ∧ spiOn.spi.ignored = false ∧ spiOn.spi.rd = false ∧ spiOn.spi.inc = true) ∧
    ((({ State.reset.hw.meets [] with spi := { on := true, rd := true, inc := false, addr := 0, words := 1 } } : Hw).masterRead .spi 0 4).1.isSome = true) ∧
    ((({ State.reset.hw with spi := { on := true, rd := false, inc := true, addr := 0x100000000, words := 1 } } : Hw).masterWrite .spi 0x100000000 4 1).1 = some 0) ∧
    ((({ spiOn with spi := { spiOn.spi with addr := 4, words := 2 } } : Hw).masterWrite .spi 4 4 0).1 = some 0) := by decide

theorem witness_LoopTickDoesTheFixedOrder :
    State.reset.on ∧ State.reset.hw.tickOk 0 (State.reset.hw.period 0) = true ∧ State.reset.hw.tickOk 0 (State.reset.hw.period 0 + 1) = false ∧
    (isUnit 0 = true ∧ State.reset.hw.runs 0 = true ∧ State.reset.hw.headOf 0 = 0 ∧ (State.reset.hw.unit 0).tail = false ∧
      (State.reset.hw.unit 0).clk.guarded = false) ∧
    ((((hwOf []).modU 0 (fun x => { x with clk := { x.clk with guarded := true } })).unit 0).clk.guarded = true) ∧
    (let h := (hwOf [(U_STATE_STATE, 0, 3)]).modU 0 (fun x => { x with law := { x.law with work := some { drive := -5 } } })
     isPlain 0 = true ∧ h.bufMode 0 ≠ 0 ∧ (∃ w, (h.unit 0).law.work = some w ∧ w.tag = false) ∧ (h.unit 0).law.init = none) := by
  refine ⟨rfl, ?_⟩; decide

/-- Unit 0 after its tick's judgement, with fields set. -/
def judged (l : List (Fld × Nat × Nat)) : Hw := (hwOf l).modU 0 (fun x => { x with tail := true })

theorem witness_FaultsOfAUnitAreRaised :
    ((stOf (judged [])).on ∧ ((judged []).unit ((judged []).headOf 0)).tail = true) ∧
    (let h := judged [(U_LATE_CFG_LATE_RUN, 0, 0), (U_LATE_STAT_RUN, 0, 1)]
     (h.unit (h.headOf 0)).tail = true ∧ (h.unit 0).wat.rLate = false ∧ max 1 (h.get U_LATE_CFG_LATE_RUN 0) ≤ h.get U_LATE_STAT_RUN 0) ∧
    ((judged []).get U_LATE_STAT_RUN 0 < max 1 ((judged []).get U_LATE_CFG_LATE_RUN 0)) ∧
    (let h := judged [(U_FE_CFG_FE_TIME, 0, 0), (U_SUP_STAT_FE_RUN, 0, 1)]
     (h.unit (h.headOf 0)).tail = true ∧ (h.unit 0).wat.rFe = false ∧ max 1 (h.get U_FE_CFG_FE_TIME 0) ≤ h.get U_SUP_STAT_FE_RUN 0) ∧
    ((judged []).get U_SUP_STAT_FE_RUN 0 < max 1 ((judged []).get U_FE_CFG_FE_TIME 0)) ∧
    (let h := judged [(U_SENSE_CFG_SLW_N, 0, 0), (U_SUP_STAT_SLW_RUN, 0, 1)]
     (h.unit (h.headOf 0)).tail = true ∧ (h.unit 0).wat.rSlw = false ∧ max 1 (h.get U_SENSE_CFG_SLW_N 0) ≤ h.get U_SUP_STAT_SLW_RUN 0) ∧
    ((judged []).get U_SUP_STAT_SLW_RUN 0 < max 1 ((judged []).get U_SENSE_CFG_SLW_N 0)) ∧
    (let h := (judged [(U_FRZ_CFG_FRZ_N, 0, 0), (U_FRZ_D_CODE, 0, 0)]).modU 0 (fun x => { x with wat := { x.wat with fv := { some := true, len := 2, lo := 0, hi := 1 } } })
     (h.unit (h.headOf 0)).tail = true ∧ (h.unit 0).wat.rFrz = false ∧ max 2 (h.get U_FRZ_CFG_FRZ_N 0) ≤ (h.unit 0).wat.fv.shown ∧
       (h.get U_FRZ_D_CODE 0 : Int) < (h.unit 0).wat.fv.hi - (h.unit 0).wat.fv.lo) ∧
    (let h := (judged [(U_ILK_CFG_CEIL_N, 0, 0)]).modU 0 (fun x => { x with wat := { x.wat with cp := 1 } })
     isPlain 0 = true ∧ (h.unit (h.headOf 0)).tail = true ∧ (h.unit (h.headOf 0)).wat.rCeil = false ∧
       (let n := max 1 (h.get U_ILK_CFG_CEIL_N 0); n ≤ (h.unit 0).wat.cv ∨ n ≤ (h.unit 0).wat.ci ∨ n ≤ (h.unit 0).wat.cp)) ∧
    (State.reset.on ∧ isPlain 271 = true ∧ State.reset.hw.dieUp (ownDie 271) = true ∧ (State.reset.hw.unit 271).ot = false ∧
      (((hwOf []).modU 271 (fun x => { x with ot := true })).unit 271).ot = true ∧ State.reset.hw.servedBy 271 = none ∧ State.reset.hw.servedUnit 271 = 271) := by decide

theorem witness_CommandsToAUnitWaitForItsTick :
    (let h := State.reset.hw.passGuard 0
     State.reset.hears .spi ∧ State.reset.hw.reaches 0 = true ∧ h.reaches 0 = true ∧ h.isMember 0 = false ∧ h.flag U_FAULT_CLR_CLR 0 = false ∧ h.runs 0 = true ∧
      h.flag U_LOOP_CMD_BUSY 0 = false ∧ h.flag U_CONN_CMD_BUSY 0 = false) ∧
    ((hwOf [(U_FAULT_CLR_CLR, 271, 1)]).passGuard 271).flag U_FAULT_CLR_CLR 271 = true ∧ ((hwOf [(U_MEMBER_OF_VALID, 0, 1)]).passGuard 0).isMember 0 = true ∧
    (1 < 2 ∧ 3 < 4 ∧ (4 = 1 ∧ Instr.loopLoad .spi 0 1 3 = .loopClose .spi 0 1 3 ∨ 4 = 4 ∧ Instr.loopLoad .spi 0 1 3 = .loopLoad .spi 0 1 3)) ∧
    ((hwOf [(U_LOOP_CMD_BUSY, 0, 1)]).passGuard 0).flag U_LOOP_CMD_BUSY 0 = true ∧
    ((2 = 1 ∧ Instr.connIsolate .spi 0 = .connConnect .spi 0) ∨ (2 = 2 ∧ Instr.connIsolate .spi 0 = .connIsolate .spi 0)) ∧
    ((hwOf [(U_CONN_CMD_BUSY, 0, 1)]).passGuard 0).flag U_CONN_CMD_BUSY 0 = true := by decide

/-- Unit 0 with `n` references in its queue. -/
def refs (n : Nat) : Hw := (hwOf []).modU 0 (fun x => { x with ref := { x.ref with q := List.replicate n { value := 0 } } })

theorem witness_ReferencesQueueInOrder :
    (let h := (refs 31).passGuard 0
     (stOf (refs 31)).hears .spi ∧ (refs 31).reaches 0 = true ∧ h.reaches 0 = true ∧ h.isMember 0 = false ∧ h.ttOwns 0 = false ∧ (h.unit 0).safe.ramp = false ∧
      (h.unit 0).ref.q.length < 32) ∧
    (let h := (refs 32).passGuard 0
     (stOf (refs 32)).hears .spi ∧ (refs 32).reaches 0 = true ∧ h.reaches 0 = true ∧ h.isMember 0 = false ∧ h.ttOwns 0 = false ∧ (h.unit 0).safe.ramp = false ∧
      32 ≤ (h.unit 0).ref.q.length) ∧
    (let h := (hwOf []).modU 0 (fun x => { x with safe := { x.safe with ramp := true } })
     (h.passGuard 0).isMember 0 = false ∧ ((h.passGuard 0).ttOwns 0 = true ∨ ((h.passGuard 0).unit 0).safe.ramp = true)) ∧
    (hwOf [(U_MEMBER_OF_VALID, 0, 1)]).isMember 0 = true ∧
    ((refs 31).flag U_REF_CMD_FLUSH 0 = false ∧ (refs 31).runs 0 = true) ∧
    (let h := State.reset.hw.passGuard 512; State.reset.hw.reaches 512 = true ∧ h.isMember 512 = false ∧ h.flag U_REF_CMD_FLUSH 512 = false ∧ h.runs 512 = false) ∧
    ((refs 32).unit 0).ref.q.length ≤ 32 ∧ ((refs 32).unit 1).ref.q.length ≤ 32 := by decide

/-- For the reference queue's bound: no unit of the station after reset has a reference waiting. -/
theorem witness_no_reference_waits : ∀ k, (State.reset.hw.unit k).ref.q.length ≤ 32 := fun _ => Nat.zero_le 32
/-- Capture 0 with fields set, and its engine as `f` makes it. -/
def capOf (l : List (Fld × Nat × Nat)) (f : CapS → CapS) : Hw := (hwOf l).modC 0 f

/-- Capture 0 with a record that waits for DDR5, the Twill path as given. -/
def capTok (a : ArbS) : Hw := (capOf [(DDR_CAP_MIB, 0, 1), (MUS_CAP_BUF_EXT, 0, 1), (MUS_CAP_EXT_BASE_ADDR, 0, 0x1000000000), (MUS_CAP_GEOM_ESIZE, 0, 4)]
  (fun x => { x with stage := [(0, [7])] })).setArb (.twill 0 0) a

theorem witness_CaptureAndMeasurement :
    (State.reset.hears .spi ∧ State.reset.hw.hasCap 0 = true ∧ State.reset.hw.hasCap 63 = true) ∧
    ((hwOf [(MUS_CAP_STAT_STATE, 0, 1)]).get MUS_CAP_STAT_STATE 0 = 1 ∧ State.reset.hw.get MUS_CAP_STAT_STATE 0 ≠ 1) ∧
    (State.reset.hw.runs (State.reset.hw.get MUS_CAP_UNIT_UNIT 0) = true ∧ (hwOf [(MUS_CAP_UNIT_UNIT, 0, 512)]).runs ((hwOf [(MUS_CAP_UNIT_UNIT, 0, 512)]).get MUS_CAP_UNIT_UNIT 0) = false) ∧
    (let h := capOf [(MUS_CAP_STAT_STATE, 0, 2), (MUS_CAP_DEPTH_POST, 0, 1)] (fun x => { x with post := 1 })
     h.get MUS_CAP_STAT_STATE 0 = 2 ∧ h.get MUS_CAP_DEPTH_POST 0 ≤ (h.cap 0).post) ∧
    (∀ p, p ∈ [hwOf [(MUS_CAP_STAT_STATE, 0, 1)], hwOf []] → (p.passGuard (p.get MUS_CAP_UNIT_UNIT 0)).get MUS_CAP_STAT_STATE 0 = p.get MUS_CAP_STAT_STATE 0) ∧
    (∀ a, a ∈ [({ hold := [{ who := twCap 0, rank := 6 }] } : ArbS), { pend := [{ who := twCap 0, rank := 6 }] }, {}] →
      ((capTok a).cap 0).stage = (0, [7]) :: [] ∧ (capTok a).place (((capTok a).capRing 0).1 + 0 * (capTok a).get MUS_CAP_GEOM_ESIZE 0) (4 * [7].length) = .mem ∧ ddrChan (((capTok a).capRing 0).1 + 0 * (capTok a).get MUS_CAP_GEOM_ESIZE 0) = some 0) ∧
    ((capTok { hold := [{ who := twCap 0, rank := 6 }] }).holds (.twill 0 0) (twCap 0) = true) ∧
    ((capTok { pend := [{ who := twCap 0, rank := 6 }] }).holds (.twill 0 0) (twCap 0) = false ∧
      (((capTok { pend := [{ who := twCap 0, rank := 6 }] }).arb (.twill 0 0)).pend.any (fun q => q.who == twCap 0)) = true) ∧
    ((capTok {}).holds (.twill 0 0) (twCap 0) = false ∧ (((capTok {}).arb (.twill 0 0)).pend.any (fun q => q.who == twCap 0)) = false) ∧
    (State.reset.on ∧ State.reset.hw.runs 0 = true ∧ 2 < 3 ∧ 4915200 % (4 * (State.reset.hw.mdec 0 2).d) = 0 ∧ State.reset.hw.now ≤ 4915200 ∧
      (State.reset.hw.unit (State.reset.hw.headOf 0)).clk.last < 4915200) := by
  and_intros <;> first | decide | rfl

/-- The filter outputs that a unit whose state is OPEN delivers. -/
theorem witness_measured_value : (let x := 4 * (State.reset.hw.mdec 0 0).d; ∃ y, 0 < y ∧ State.reset.hw.measTurn 0 0 (y * x) = true) :=
  ⟨1, by decide⟩

/-- Converter `d` holds the auxiliary token's place of requester `w`, granted at 0. -/
def auxOf (d w : Nat) : Hw := (hwOf []).modD d (fun x => { x with aux := { x.aux with hold := [{ who := w, rank := 5 }] }, auxAt := [(w, 0)] })

theorem witness_conversion_done :
    ((auxOf 7 84).holds (.aux 7) 84 = true ∧ 400 * 24576 / 100 = (auxOf 7 84).auxEnd 7 84 ∧ 84 / 16 = 5 ∧ 4 ≤ 84 % 8) ∧
    ((auxOf 7 83).holds (.aux 7) 83 = true ∧ (auxOf 7 83).auxEnd 7 83 = (auxOf 7 83).auxEnd 7 83 ∧ 83 / 16 = 5 ∧ 83 % 8 < 4) ∧
    ((auxOf 7 27).holds (.aux 7) 27 = true ∧ 1 ≤ 27 / 16 ∧ 27 / 16 < 14 ∧ 27 / 16 ≠ 5 ∧ 27 % 16 < 12) ∧
    State.reset.hw.holds (.aux 0) 0 = false ∧ 0 ≠ (auxOf 7 84).auxEnd 7 84 := by decide

theorem witness_MetronomeFollowsItsSource :
    State.reset.on ∧
    (State.reset.hw.get STN_METRO_CTRL_SRC 0 = 0 ∧ State.reset.hw.autoSrc.isSome = true ∧ (hwOf [(STN_METRO_STAT_ACT_SRC, 0, 2), (STN_METRO_STAT_LOCK, 0, 0)]).flag STN_METRO_STAT_LOCK 0 = false) ∧
    (let h := hwOf [(STN_METRO_CTRL_SRC, 0, 1), (STN_METRO_STAT_HOLDOVER, 0, 1)]; h.get STN_METRO_CTRL_SRC 0 = 1 ∧ h.flag STN_METRO_STAT_HOLDOVER 0 = true) ∧
    (1 ≤ 1) ∧ (1 < 2 ∧ State.reset.hw.get STN_METRO_STAT_ACT_SRC 0 ≠ 2) := by decide

/-- Engine 0 with a prediction of a JUNCTION that is always taken, predicted as `t`. -/
def predE (t : Bool) : Hw := (hwOf []).modE 0 (fun x => { x with pred := some { addr := 0, taken := t, target := 0, cond := .junction 3 0 0 0 0 0 0 7 0, acc := {}, loops := [], calls := [], snap := (hwOf []).engBack 0, parts := 0 } })

theorem witness_PredictionsAndTokens :
    ((stOf (predE true)).on ∧ (((predE true).eng 0).pred.any (fun p => ((predE true).predOutcome 0 p).1 == p.taken)) = true) ∧
    (((predE false).eng 0).pred.any (fun p => ((predE false).predOutcome 0 p).1 != p.taken)) = true ∧
    (let h := (hwOf [(U_TBL_STAT_FF_ACT, 0, 1)]).modU 0 (fun x => { x with law := { x.law with pred := some (0, 0) } })
     (h.unit 0).tail = false ∧ (h.unit 0).clk.guarded = false ∧ (h.unit 0).law.pred.isSome = true ∧ (h.unit 0).law.predOk = false ∧ h.ffHolds 0 = true) ∧
    (let h := (hwOf [(U_TBL_STAT_FF_ACT, 0, 1)]).modU 0 (fun x => { x with law := { x.law with pred := some (1, 0) } })
     (h.unit 0).tail = false ∧ (h.unit 0).clk.guarded = false ∧ (h.unit 0).law.pred.isSome = true ∧ (h.unit 0).law.predOk = false ∧ h.ffHolds 0 = false) ∧
    (let h := (hwOf [(U_RANGE_STAT_SH_RNG, 0, 3)]).modU 0 (fun x => { x with rng := { x.rng with arm := some (3, 5), active := true, decided := 5 } })
     (h.unit 0).rng.arm = some (3, 5) ∧ (h.unit 0).rng.active = true ∧ h.get U_RANGE_STAT_SH_RNG 0 = 3 ∧ 5 ≤ (h.unit 0).rng.decided) ∧
    (let h := (hwOf [(U_AR_CFG_TTL, 0, 0)]).modU 0 (fun x => { x with rng := { x.rng with arm := some (3, 0) }, clk := { x.clk with last := 1000000 } })
     (h.unit 0).rng.arm = some (3, 0) ∧ (h.unit 0).rng.active = false ∧ 0 + max 1 (h.get U_AR_CFG_TTL 0) * h.period 0 ≤ (h.unit 0).clk.last) ∧
    (State.reset.hw.dieUp (resDie (.aux 7)) = true ∧ (∀ d, Res.aux 7 ≠ .points d) ∧ (∀ d, Res.aux 7 ≠ .snap d) ∧ (∀ d, Res.aux 7 ≠ .cal d)) ∧
    (Res.points 0 = .points 0 ∧ State.reset.hw.dieUp 0 = true) ∧ Res.cal 7 = .cal 7 ∧ Res.snap 7 = .snap 7 := by
  and_intros <;> first | decide | (intro _ h; cases h)

theorem witness_ArbitrationGrantsByRankAndLosesNothing :
    (let a : ArbS := { hold := [{ who := 1, rank := 2 }], pend := [{ who := 0, rank := 6, losses := 16 }] }
     a.hold.length ≤ 1 ∧ (∀ r, r ∈ a.hold → r ∈ a.hold) ∧ ({ who := 1, rank := 2 } : Req) ∈ a.hold ∧ ({ who := 0, rank := 6, losses := 16 } : Req) ∈ a.pend ∧ (1 : Nat) ≠ 0) ∧
    ((∀ x, x ∈ [(1, 5, 0), (6, 0, 16)] → x.1 ≤ 99) ∧ [(1, 5, 0), (6, 0, 16)] ≠ [] ∧ ∃ y, y ∈ [(1, 5, 0), (6, 0, 16)] ∧ y.1 = 1) ∧
    ((∀ y, y ∈ [(2, 5, 15), (6, 0, 16)] → y.1 ≠ 1) ∧ ∃ y, y ∈ [(2, 5, 15), (6, 0, 16)] ∧ 16 ≤ y.2.2) ∧
    (∀ y, y ∈ [(2, 5, 15), (99, 0, 0)] → y.1 ≠ 1 ∧ y.2.2 < 16) := by decide

theorem witness_StartUpAndFencingGoByTheirSteps :
    (State.reset.on ∧ State.reset.hw.dieUp 7 = true ∧ State.reset.hw.boot.live.contains 7 = false ∧ 7 ≠ State.reset.hw.bootDie) ∧
    (let a := { State.reset.hw with boot := { State.reset.hw.boot with live := State.reset.hw.boot.live ++ [0] } }
     let b := if 0 < 2 then a.lines else a
     State.reset.hw.dieUp 0 = true ∧ State.reset.hw.boot.live.contains 0 = false ∧ 0 = b.bootDie ∧ b.get STN_BOOT_STEP 0 ≤ 2 ∧ b.get STN_STATE_STATE 0 = 1) ∧
    (({ hwOf [] with boot := { (hwOf []).boot with live := [7] } } : Hw).boot.live.contains 7 = true) ∧
    (let h := hwOf [(STN_BOOT_STEP, 0, 3)]
     h.dieUp 7 = true ∧ 7 ≠ h.bootDie ∧ h.boot.answered.contains 7 = false ∧ h.get STN_BOOT_STEP 0 = 3 ∧ h.now ≤ 20 * t1ms ∧ 20 * t1ms ≤ 20 * t1ms) ∧
    (let b := fun x => { (hwOf []).boot with read := 1, src := 1, touched := x, hdr := [] }
     let h := fun x => ({ hwOf [(STN_KEYSLOT_STATE, 0, 4)] with boot := b x } : Hw).meets []
     (h true).get STN_STATE_STATE 0 = 1 ∧ (h true).boot.read = 1 ∧ (h true).boot.src ≠ 3 ∧ (h true).boot.touched = true ∧ (h false).boot.touched = false ∧
       (h false).get STN_STATE_STATE 0 = 1 ∧ (h false).read1.1 ≠ 0) ∧
    ((State.reset.hw.meets []).boot.read = 0) ∧ (State.reset.hw.get STN_BOOT_STEP 0 ≠ 8) ∧
    (let h := hwOf [(STN_BOOT_STEP, 0, 7)]; h.dieUp 7 = true ∧ 3 ≤ h.get STN_BOOT_STEP 0 ∧ (h.fence 7 3).get STN_STATE_STATE 0 = 1 ∧ (h.fence 7 3).get STN_BOOT_STEP 0 < 8) ∧
    (let h := hwOf [(STN_BOOT_STEP, 0, 8)]; 3 ≤ h.get STN_BOOT_STEP 0 ∧ 8 ≤ (h.fence 7 3).get STN_BOOT_STEP 0) ∧
    (let h := hwOf [(STN_BOOT_STEP, 0, 5), (STN_STATE_STATE, 0, 2)]; 3 ≤ h.get STN_BOOT_STEP 0 ∧ (h.fence 7 3).get STN_STATE_STATE 0 ≠ 1) := by
  and_intros <;> first | decide | rfl

/-- Consist 512 with one entry, that names unit 0 here, with further fields. -/
def cons0 (l : List (Fld × Nat × Nat)) : Hw := hwOf ([(U_MEMBER_VALID, 512, 1), (U_MEMBER_UNIT, 512, 0), (U_MEMBER_WEIGHT, 512, 255)] ++ l)

/-- Consist 512 coupled with a follower on another station, at its tick 0. -/
def outer0 (l : List (Fld × Nat × Nat)) : Hw :=
  (hwOf ([(U_CONSIST_STAT_COUPLED, 512, 1)] ++ l)).modU 512 (fun x => { x with
    clk := { x.clk with ticked := true, last := 0 }, cons := { x.cons with mem := [(0, 0, 0, false, 0x8000), (1, 0, 5, true, 0x8000)] } })

theorem witness_ConsistsCoupleAndWatch :
    (let h := State.reset.hw.passGuard 512
     State.reset.hears .spi ∧ isConsist 512 = true ∧ isConsist 767 = true ∧ h.flag U_COUPLE_BUSY 512 = false ∧ (h.put U_COUPLE_OP 512 1).coupleResult 512 ≠ 0 ∧
      h.st 512 = stISOLATED) ∧
    (let h := (hwOf [(U_STATE_STATE, 512, 2)]).passGuard 512; h.flag U_COUPLE_BUSY 512 = false ∧ (h.put U_COUPLE_OP 512 2).st 512 ≠ stISOLATED) ∧
    ((hwOf [(U_COUPLE_BUSY, 512, 1)]).passGuard 512).flag U_COUPLE_BUSY 512 = true ∧
    (let h := (cons0 []).modU 512 (fun x => { x with cons := { x.cons with wait := true } })
     let g := h.modU 512 (fun x => { x with cons := { x.cons with wait := false } })
     (h.unit 512).cons.wait = true ∧ 15 < 16 ∧ (∀ x, x ∈ [g.coupleResult 512, 0, if 4 < g.depthOver 512 3 then 4 else 0] → x = 0) ∧
       (4 ∈ [g.coupleResult 512, 15, if 4 < g.depthOver 512 4 then 4 else 0] ∧
         ∀ x, x ∈ [g.coupleResult 512, 15, if 4 < g.depthOver 512 4 then 4 else 0] → x = 0 ∨ 4 ≤ x)) ∧
    (let h := (hwOf [(U_MEMBER_OF_VALID, 0, 1), (U_MEMBER_OF_FOLLOWER, 0, 1)]).modU 0 (fun x => { x with clk := { x.clk with ticked := true }, cons := { x.cons with per := 5 } })
     let due := fun (t : Nat) => h.isFollower 0 && decide ((h.clkOf 0).last ≤ t) && decide (t < (h.clkOf 0).last + h.period 0) && t % max 1 (h.unit 0).cons.per == 0
     (h.clkOf 0).ticked = true ∧ (h.unit 0).cons.outAt ≠ some 5 ∧ due 5 = true ∧ isConsist 0 = false ∧ due 4 = false ∧ h.isCoupled 0 = false) ∧
    (let h := outer0 [(STN_STATE_DARK_B, 0, 1)]; h.dark = true) ∧
    (let h := outer0 [(STN_STATE_DARK_B, 0, 0)]
     (h.clkOf 512).ticked = true ∧ (h.clkOf 512).last = 0 ∧ (h.unit 512).cons.outAt ≠ some 0 ∧ h.dark = false ∧ isConsist 512 = true ∧ h.isCoupled 512 = true ∧
       0 % (max 1 (h.get U_CONSIST_CFG_OUT_DIV 512) * h.period 512) = 0) ∧
    (let h := (hwOf []).modU 512 (fun x => { x with cons := { x.cons with outAt := some 9 } }); (h.unit 512).cons.outAt = some 9) ∧
    (let h := (outer0 [(U_CONSIST_CFG_LOST_N, 512, 1)]).modU 512 (fun x => { x with cons := { x.cons with silent := [(1, 1)] } })
     h.isCoupled 512 = true ∧ max 1 (h.get U_CONSIST_CFG_LOST_N 512) ≤ tget (h.unit 512).cons.silent 1 0 ∧
       tget (h.unit 512).cons.silent 0 0 < max 1 (h.get U_CONSIST_CFG_LOST_N 512)) ∧
    ((State.reset.hw.unit 512).cons.noUpd < (State.reset.hw.unit 512).cons.lostN) ∧
    (let h := (hwOf []).modU 0 (fun x => { x with cons := { x.cons with noUpd := 4, lost := false } }); (h.unit 0).cons.lost = false ∧ (h.unit 0).cons.lostN ≤ (h.unit 0).cons.noUpd) := by
  decide
/-- Consist 512 with a second entry on another station. -/
def cons1 : Hw := (cons0 [(U_CONSIST_CFG_OUT_DIV, 512, 1000)]).put U_MEMBER_VALID 512 1 1 |>.put U_MEMBER_REMOTE 512 1 1 |>.put U_MEMBER_WEIGHT 512 1 1

theorem witness_ConsistsCouple :
    (let h := (cons0 []).passGuard 512; h.flag U_COUPLE_BUSY 512 = false ∧ (h.put U_COUPLE_OP 512 1).coupleResult 512 = 0 ∧ ((h.put U_COUPLE_OP 512 1).entries 512).any (fun x => x.2.2.2.1) = false) ∧
    ((cons1.passGuard 512).flag U_COUPLE_BUSY 512 = false ∧ ((cons1.passGuard 512).put U_COUPLE_OP 512 1).coupleResult 512 = 0 ∧ (((cons1.passGuard 512).put U_COUPLE_OP 512 1).entries 512).any (fun x => x.2.2.2.1) = true) ∧
    (let h := (hwOf [(U_MEMBER_OF_VALID, 0, 1), (U_MEMBER_OF_FOLLOWER, 0, 1)]).modU 0 (fun x => { x with cons := { x.cons with noUpd := 4 } })
     h.isFollower 0 = true ∧ (h.unit 0).cons.lost = false ∧ (h.unit 0).cons.lostN ≤ (h.unit 0).cons.noUpd) := by
  decide

/-- Unit 0 in a change between ranges, its last tick at 0. -/
def chg (f : RngS → RngS) : Hw := (hwOf []).modU 0 (fun x => { x with rng := f { x.rng with a := 1, b := 2, active := true } })

theorem witness_PointsAndRangesChangeInPhases :
    (State.reset.on ∧ State.reset.hw.dieUp 7 = true ∧ State.reset.hw.now ≤ t1ms ∧ (hwOf [(STN_BOOT_STEP, 0, 5)]).get STN_BOOT_STEP 0 ≤ 5 ∧ (State.reset.hw.die 7).pts.cur = none) ∧
    (let op : PtsOp := { ch := 0, pat := 0xFFFF, rank := 1, why := .image }
     let h := (hwOf []).modD 0 (fun x => { x with pts := { x.pts with cur := some op } })
     (h.die 0).pts.cur = some op ∧ (h.die 0).pts.latched = false ∧ 24 * h.pbTicks 0 = h.ptsLam 0 ∧ 0 ≠ h.ptsLam 0) ∧
    (let op : PtsOp := { ch := 0, pat := 0xFFFF, rank := 1, why := .image }
     let h := (hwOf []).modD 0 (fun x => { x with pts := { x.pts with cur := some op, latched := true } })
     (h.die 0).pts.cur = some op ∧ (h.die 0).pts.latched = true ∧ 50 * h.pbTicks 0 = h.ptsEnd 0 ∧ 0 ≠ h.ptsEnd 0 ∧ 0xFFFE % 65536 ≠ op.pat ∧ 0xFFFF % 65536 = op.pat ∧ op.why = .image) ∧
    (State.reset.hw.die 0).pts.cur = none ∧
    (let h := State.reset.hw.passGuard 0; State.reset.hw.servesMaster .spi = true ∧ State.reset.hw.reaches 0 = true ∧ h.reaches 0 = true ∧ h.isMember 0 = false ∧ bit 0x1FF 9 = false ∧ h.runs 0 = true) ∧
    (let h := (hwOf []).modU 0 (fun x => { x with clk := { x.clk with ticked := true } })
     isUnit 0 = true ∧ h.runs 0 = true ∧ h.headOf 0 = 0 ∧ (h.unit 0).clk.ticked = true ∧ (h.unit 0).tail = false ∧ h.downDue 0 = false ∧ h.armDue 0 = false) ∧
    (let h := ((hwOf [(U_AR_CFG_TTL, 0, 0)]).modU 0 (fun x => { x with clk := { x.clk with ticked := true, last := 1000000 }, rng := { x.rng with arm := some (0, 0) } }))
     (h.unit 0).tail = false ∧ h.armDue 0 = true) ∧
    (let h := chg (fun r => r); h.tickOk 0 (3 * h.period 0) = true ∧ (h.unit 0).tail = false ∧ h.desDue 0 (3 * h.period 0) = true ∧ h.desDue 0 0 = false) ∧
    (let h := chg (fun r => { r with designated := 1, lamM := some 0 }); h.retargetDue 0 0 = true) ∧
    (let h := chg (fun r => { r with designated := 1, lamM := some 0, retarget := some 0 }); h.breakDue 0 1000000 = true) ∧
    (let h := chg (fun r => { r with designated := 1, pga := true }); h.returnDue 0 1000000 = true) := by
  decide

theorem witness_DecodingAnEncodedInstructionGivesItBack :
    insFits (.set 1 15 (2 ^ 21 - 1) (2 ^ 32 - 1)) = true ∧ insFits (.junction 3 3 3 3 7 1 7 7 (2 ^ 24 - 1)) = true ∧ insFits (.waitev 7 (2 ^ 24 - 1) (2 ^ 24 - 1)) = true := by
  decide

theorem witness_InstructionWordsDecodeByTheTable :
    (0x17 * 2 ^ 58 < 2 ^ 64 ∧ 0x16 < bits (0x17 * 2 ^ 58) 63 58) ∧
    (0x16 * 2 ^ 58 + 1 < 2 ^ 64 ∧ bits (0x16 * 2 ^ 58 + 1) 63 58 ≤ 0x16 ∧ 0 < 58 ∧ bit (0x16 * 2 ^ 58 + 1) 0 = true ∧ bit (insMask 0x16) 0 = false) ∧
    (0x16 * 2 ^ 58 < 2 ^ 64 ∧ bits (0x16 * 2 ^ 58) 63 58 ≤ 0x16 ∧ (∀ k, k < 58 → bit (0x16 * 2 ^ 58) k = true → bit (insMask (bits (0x16 * 2 ^ 58) 63 58)) k = true)) := by
  decide

theorem witness_EngineCommandsAndJumps :
    (State.reset.hears .spi ∧ State.reset.hw.hasEng 0 = true ∧ State.reset.hw.hasEng 63 = true ∧ 1023 < 1024 ∧ (State.reset.hw.engPass 0).get TT_STAT_STATE 0 = 0) ∧
    (((hwOf [(TT_STAT_STATE, 0, 1)]).engPass 0).get TT_STAT_STATE 0 = 1) ∧
    (3 = 3 ∧ Instr.ttReset .spi 0 = .ttReset .spi 0) ∧ (((hwOf [(TT_CMD_BUSY, 0, 1)]).engPass 0).flag TT_CMD_BUSY 0 = true) ∧
    (let h := (hwOf [(TT_BIND_VALID, 0, 1)]).engPass 0; h.flag TT_CMD_BUSY 0 = false ∧ h.flag TT_BIND_VALID 0 = true ∧ h.runs (h.get TT_BIND_UNIT 0) = true) ∧
    (((State.reset.hw.engPass 0).put TT_JUMP_BREAK 0 0).flag TT_JUMP_TGT_VALID 0 = false) ∧
    (let h := ((hwOf [(TT_STAT_STATE, 0, 1), (TT_JUMP_TGT_VALID, 0, 1)]).engPass 0).put TT_JUMP_BREAK 0 1
     h.flag TT_JUMP_TGT_VALID 0 = true ∧ h.flag TT_JUMP_PEND 0 = false ∧ h.get TT_STAT_STATE 0 = 1) ∧
    ((State.reset.hw.engPass 0).eng 0).act = .none ∧
    (let h := (hwOf [(TT_STAT_STATE, 0, 1), (TT_JUMP_BREAK, 0, 1)]).modE 0 (fun x => { x with jump := some true, togo := 5 })
     (h.eng 0).jump.isSome = true ∧ (h.eng 0).jumping = false ∧ h.jumpPoint 0 = true ∧ (h.unit (h.get TT_BIND_UNIT 0)).clk.guarded = false ∧ (h.eng 0).cut = none) ∧
    (let h := ((hwOf [(TT_SR_WP_VALUE, 0, 0x80000000)]).modE 0 (fun x => { x with act := .stream { left := none, stretch := false } })).engPass 0
     (h.eng 0).act = .stream { left := none, stretch := false } ∧ 0 ≤ sx32 (0xFFFFFFFF % 2 ^ 32 / 8 * 8 + (2 ^ 32 - h.get TT_SR_WP_VALUE 0 / 8 * 8)) ∧
       sx32 (0x7FFFFFF8 % 2 ^ 32 / 8 * 8 + (2 ^ 32 - h.get TT_SR_WP_VALUE 0 / 8 * 8)) < 0) ∧
    (let h := (hwOf []).modE 0 (fun x => { x with seenNow := [7] }); (h.eng 0).seenNow.contains 7 = true ∧ h.waitedOn 0 7 = false) := by
  decide
/-- A state in which engine 0's next instruction is `i`. -/
def next0 (i : TIns) : State := stOf (atIns i [] (fun x => x))

/-- No guard instant is due of a unit that has had no tick: a command to it passes none. -/
theorem witness_no_guard_is_due (h : Hw) (u : Nat) (k : (h.unit (h.headOf u)).clk.ticked = false) : h.passGuard u = h := by
  simp [Hw.passGuard, k]

theorem witness_EffectInstructionsGather :
    (next0 .halt).on ∧ ((next0 (.set 1 15 (2 ^ 21 - 1) (2 ^ 32 - 1))).hw.meetsIns 0 (.set 1 15 (2 ^ 21 - 1) (2 ^ 32 - 1)) ∧ (1 = 1 ∨ (1 = 0 ∧ 15 = 0 ∧ 2 ^ 21 - 1 = 0))) ∧
    ((next0 (.set 0 0 0 0)).hw.meetsIns 0 (.set 0 0 0 0) ∧ (0 = 1 ∨ (0 = 0 ∧ 0 = 0 ∧ 0 = 0))) ∧
    ((next0 (.set 0 1 0 0)).hw.meetsIns 0 (.set 0 1 0 0) ∧ 0 = 0 ∧ (1 ≠ 0 ∨ 0 ≠ 0)) ∧
    (next0 (.openB 15)).hw.meetsIns 0 (.openB 15) ∧ (next0 (.closeB 15)).hw.meetsIns 0 (.closeB 15) ∧ (next0 (.mode 1 3)).hw.meetsIns 0 (.mode 1 3) ∧
    (next0 (.range 15 3 1 1 1 1 0)).hw.meetsIns 0 (.range 15 3 1 1 1 1 0) ∧ ((next0 (.therm 11 0)).hw.meetsIns 0 (.therm 11 0) ∧ 11 < 12) ∧
    ((next0 (.signal 63 32)).hw.meetsIns 0 (.signal 63 32) ∧ 63 < 64 ∧ 32 ≤ 32) ∧ ((next0 (.signal 0 31)).hw.meetsIns 0 (.signal 0 31) ∧ 0 < 64 ∧ 31 < 32) := by
  and_intros <;> decide

/-- Engine 0 with loop levels and calls, its next instruction `i`. -/
def stacks0 (i : TIns) (l : List LoopLv) (c : List (Nat × Nat)) : Hw := atIns i [] (fun x => { x with loops := l, calls := c })

theorem witness_ControlInstructionsMoveTheProgramCounter :
    (let l : LoopLv := { remain := 2, forever := false, start := 0 }
     let h := stacks0 (.loop 0) (List.replicate 7 l) []
     let g := stacks0 (.loop 5) (List.replicate 8 l) []
     (h.meetsIns 0 (.loop 0) ∧ ((h.counted 0).eng 0).loops.length < 8) ∧ (g.meetsIns 0 (.loop 5) ∧ 8 ≤ ((g.counted 0).eng 0).loops.length)) ∧
    (let h := stacks0 .next [] []; h.meetsIns 0 .next ∧ ((h.counted 0).eng 0).loops = []) ∧
    (let l : LoopLv := { remain := 2, forever := false, start := 0 }
     let h := stacks0 .next [l] []; h.meetsIns 0 .next ∧ ((h.counted 0).eng 0).loops = [] ++ [l] ∧ l.gap = false ∧ l.forever = false ∧ 1 < l.remain) ∧
    (let l : LoopLv := { remain := 0, forever := true, start := 0 }
     let h := stacks0 .next [l] []; h.meetsIns 0 .next ∧ ((h.counted 0).eng 0).loops = [] ++ [l] ∧ l.gap = false ∧ l.forever = true) ∧
    (let l : LoopLv := { remain := 1, forever := false, start := 0 }
     let h := stacks0 .next [l] []; h.meetsIns 0 .next ∧ ((h.counted 0).eng 0).loops = [] ++ [l] ∧ l.gap = false ∧ l.forever = false ∧ l.remain ≤ 1) ∧
    (let h := stacks0 (.call 0x10007FFF8) [] [(0, 0), (0, 0), (0, 0)]
     h.meetsIns 0 (.call 0x10007FFF8) ∧ 0x10007FFF8 % 8 = 0 ∧ (h.counted 0).ttRange 0 0x10007FFF8 8 = true ∧ ((h.counted 0).eng 0).calls.length < 4) ∧
    (let h := stacks0 (.call 0x100000001) [] []; h.meetsIns 0 (.call 0x100000001) ∧ 0x100000001 % 8 ≠ 0) ∧
    (let h := stacks0 (.call 0x100000000) [] [(0, 0), (0, 0), (0, 0), (0, 0)]
     h.meetsIns 0 (.call 0x100000000) ∧ (h.counted 0).ttRange 0 0x100000000 8 = true ∧ 4 ≤ ((h.counted 0).eng 0).calls.length) ∧
    (let h := stacks0 .ret [] []; h.meetsIns 0 .ret ∧ ((h.counted 0).eng 0).calls = []) ∧
    (let h := stacks0 .ret [] [(8, 0)]; h.meetsIns 0 .ret ∧ ((h.counted 0).eng 0).calls = [] ++ [(8, 0)]) ∧
    (atIns (.mark 1) [] (fun x => x)).meetsIns 0 (.mark 1) ∧ (atIns (.mark 0) [] (fun x => x)).meetsIns 0 (.mark 0) ∧ (next0 .halt).hw.meetsIns 0 .halt ∧
    (let h := atIns (.rewind 0) [] (fun x => x); h.meetsIns 0 (.rewind 0) ∧ (h.counted 0).flag TT_SR_STAT_MARKED 0 = false) ∧
    (let h := atIns (.rewind 0) [(TT_SR_STAT_MARKED, 0, 1)] (fun x => { x with rewinding := true, rewForever := true })
     h.meetsIns 0 (.rewind 0) ∧ (h.counted 0).flag TT_SR_STAT_MARKED 0 = true ∧ ((h.counted 0).eng 0).rewinding = true ∧ ((h.counted 0).eng 0).rewForever = true) := by
  and_intros <;> decide

theorem witness_TimingAndWaitingInstructionsEndTheStep :
    (next0 (.dwell 1)).hw.meetsIns 0 (.dwell 1) ∧ (next0 (.dwell 0)).hw.meetsIns 0 (.dwell 0) ∧
    (let h := ((atIns (.sweep 0x100000040) [] (fun x => x)).wrLE 0x100000044 1 4).wrLE 0x100000050 1 4
     h.meetsIns 0 (.sweep 0x100000040) ∧ 0x100000040 % 64 = 0 ∧ (h.counted 0).ttRange 0 0x100000040 64 = true ∧ (h.counted 0).lineMiss 0 0x100000040 64 true = none ∧
       ((h.counted 0).readSweep 0 0x100000040).isSome = true) ∧
    (let h := (atIns (.list 1 0x100000040) [] (fun x => x)).wrLE 0x100000044 1 4
     h.meetsIns 0 (.list 1 0x100000040) ∧ 0x100000040 % 8 = 0 ∧ (h.counted 0).ttRange 0 0x100000040 (8 * 1) = true ∧ 1 ≠ 0 ∧ (h.counted 0).lineMiss 0 0x100000040 8 true = none ∧
       (h.counted 0).listEntry 0 0x100000040 = (0, 1, 0, false, false, false, false)) ∧
    (let h := (atIns (.play 0 0x100000040) [] (fun x => x)).wrLE 0x100000040 1 4
     let c := h.counted 0
     h.meetsIns 0 (.play 0 0x100000040) ∧ 0x100000040 % 32 = 0 ∧ c.ttRange 0 0x100000040 32 = true ∧ c.lineMiss 0 0x100000040 32 true = none ∧
       (c.readSeg 0 0 0x100000040).count ≠ 0 ∧ (c.readSeg 0 0 0x100000040).fmt ≠ 3 ∧ c.ttRange 0 0x100000040 (32 + segBytes (c.readSeg 0 0 0x100000040).fmt (c.readSeg 0 0 0x100000040).count) = true ∧
       c.lineMiss 0 ((c.readSeg 0 0 0x100000040).sampleAt 0).1 ((c.readSeg 0 0 0x100000040).sampleAt 0).2 true = none) ∧
    (let h := atIns (.stream 0) [(DDR_CAP_MIB, 0, 1), (TT_SR_BASE_ADDR, 0, 0x1000000000), (TT_SR_SIZE_LOG2, 0, 12)] (fun x => x)
     h.meetsIns 0 (.stream 0) ∧ (h.counted 0).ringOk 0 = true ∧ 12 ≤ (h.counted 0).get TT_SR_SIZE_LOG2 0 ∧ (h.counted 0).get TT_SR_SIZE_LOG2 0 ≤ 28) ∧
    (next0 (.range 15 3 1 1 1 1 1)).hw.meetsIns 0 (.range 15 3 1 1 1 1 1) ∧ ((next0 (.therm 11 1)).hw.meetsIns 0 (.therm 11 1) ∧ 11 < 12) ∧
    (next0 (.connect 1)).hw.meetsIns 0 (.connect 1) ∧ (next0 .isolate).hw.meetsIns 0 .isolate ∧
    (let h := atIns (.waitev 7 0 0) [] (fun x => x); h.meetsIns 0 (.waitev 7 0 0) ∧ (h.counted 0).flag TT_EVW_PEND 0 7 = false) ∧
    (let h := atIns (.waitev 0 0 0) [(TT_EVW_PEND, 0, 1)] (fun x => x); h.meetsIns 0 (.waitev 0 0 0) ∧ (h.counted 0).flag TT_EVW_PEND 0 0 = true) := by
  and_intros <;> decide

theorem witness_JunctionsTakeTheirPath :
    (let h := atIns (.junction 2 0 0 0 0 1 0 7 0xFFFFFF) [] (fun x => x)
     h.meetsIns 0 (.junction 2 0 0 0 0 1 0 7 0xFFFFFF) ∧ ((h.stepBegin 0).eng 0).pred = none ∧ junctionOk 2 0 0 0 0 0 7 = true) ∧
    (let h := atIns (.junction 1 3 3 3 7 1 0 0 0) [] (fun x => x)
     h.meetsIns 0 (.junction 1 3 3 3 7 1 0 0 0) ∧ ((h.stepBegin 0).eng 0).pred = none ∧ junctionOk 1 3 3 3 7 0 0 = true ∧ ((h.stepBegin 0).eng 0).noPred = false ∧ ¬ (1 = 2 ∧ 0 = 7)) ∧
    (let h := atIns (.junction 3 0 0 0 0 0 0 0 0) [] (fun x => x)
     h.meetsIns 0 (.junction 3 0 0 0 0 0 0 0 0) ∧ ((h.stepBegin 0).eng 0).pred = none ∧ ((h.stepBegin 0).eng 0).noPred = false ∧ junctionOk 3 0 0 0 0 0 0 = false) ∧
    (let h := atIns (.junction 0 0 0 0 0 0 7 0 0) [] (fun x => { x with pred := (predE true).eng 0 |>.pred })
     h.meetsIns 0 (.junction 0 0 0 0 0 0 7 0 0) ∧ ((h.stepBegin 0).eng 0).pred ≠ none) ∧
    (let h := atIns (.junction 0 0 0 0 0 0 7 0 0) [] (fun x => { x with noPred := true, back := some ((hwOf []).engBack 0) })
     h.meetsIns 0 (.junction 0 0 0 0 0 0 7 0 0) ∧ ((h.stepBegin 0).eng 0).noPred = true ∧ ¬ (0 = 2 ∧ 0 = 7)) := by
  and_intros <;> decide

/-- Engine 0 RUNNING in an activity, its next point one tick away. -/
def act0 (a : Act) : Hw := (hwOf [(TT_STAT_STATE, 0, 1)]).modE 0 (fun x => { x with act := a, togo := 1 })

/-- Engine 0 WAITING for something of unit 0, to which it is bound, after the unit's tick. -/
def wait0 (c : WaitC) (seen : List Nat) : Hw :=
  ((hwOf [(TT_STAT_STATE, 0, 2), (TT_BIND_VALID, 0, 1)]).modE 0 (fun x => { x with act := .wait c, seenNow := seen, waitOk := true })).modU 0 (fun x => { x with clk := { x.clk with ticked := true } })

theorem witness_EnginesGoOnBetweenSteps :
    (let sw : SweepS := { log := false, dual := false, ovr := none, bmask := 0, points := 2, start := 0, stop := 9, dwell := 1, settle := 0, ratio := 0, rratio := 0, j := 1 }
     let h := act0 (.sweep sw)
     (stOf h).on ∧ (h.eng 0).act = .sweep sw ∧ h.get TT_STAT_STATE 0 = 1 ∧ (h.eng 0).togo = 1 ∧ (h.eng 0).ready = none ∧ sw.j < sw.total) ∧
    (let l : ListS := { left := 1, addr := 0x100000040, pc := 0 }
     let h := (act0 (.list l)).wrLE 0x10000004C 1 4
     (h.eng 0).act = .list l ∧ (h.eng 0).togo = 1 ∧ (h.eng 0).ready = none ∧ 0 < l.left ∧ h.lineMiss 0 (l.addr + 8) 8 true = none ∧
       h.listEntry 0 (l.addr + 8) = (0, 1, 0, false, false, false, false)) ∧
    (let p : PlayS := { addr := 0x100000040, count := 1, fmt := 0, hold := 0, ovr := none, scale := none, offset := 0, left := some 1 }
     let h := act0 (.play p)
     (h.eng 0).act = .play p ∧ p.on = false ∧ p.left ≠ some 0 ∧ h.lineMiss 0 (p.sampleAt 0).1 (p.sampleAt 0).2 true = none) ∧
    (let t : StreamS := { left := none, stretch := true, stalled := true, found := true, pc := 0 }
     let h := (hwOf [(TT_STAT_STATE, 0, 3)]).modE 0 (fun x => { x with act := .stream t })
     let g := h.modU 0 (fun x => { x with clk := { x.clk with guarded := true } })
     h.hasEng 0 = true ∧ (h.eng 0).act = .stream t ∧ h.get TT_STAT_STATE 0 = 3 ∧ t.stalled = true ∧ t.found = true ∧
       (h.unit (h.headOf (h.get TT_BIND_UNIT 0))).clk.guarded = false ∧ (g.unit (g.headOf (g.get TT_BIND_UNIT 0))).clk.guarded = true) ∧
    (let h := wait0 .isolate []
     h.hasEng 0 = true ∧ h.flag TT_BIND_VALID 0 = true ∧ isUnit 0 = true ∧ h.runs 0 = true ∧ h.headOf 0 = 0 ∧ (h.unit 0).clk.ticked = true ∧ (h.unit 0).tail = false ∧
       h.get TT_STAT_STATE 0 = 2 ∧ (h.eng 0).act = .wait .isolate ∧ (h.eng 0).waitOk = true) ∧
    (let h := wait0 (.event 7 1 0 1) []
     h.get TT_STAT_STATE 0 = 2 ∧ (h.eng 0).act = .wait (.event 7 1 0 1) ∧ 0 < 1 ∧ 1 ≤ 1 ∧ (h.eng 0).seenNow.contains 7 = false) ∧
    (ddrChan (0x10000000 * 256) = some 0 ∧ ((hwOf []).setArb (.twill 0 0) { hold := [{ who := twEng 0, rank := 4 }] }).holds (.twill 0 0) (twEng 0) = true) ∧
    (let h := (hwOf []).setArb (.twill 0 0) { pend := [{ who := twEng 0, rank := 4 }] }
     h.holds (.twill 0 0) (twEng 0) = false ∧ ((h.arb (.twill 0 0)).pend.any (fun q => q.who == twEng 0)) = true) ∧
    ((hwOf []).holds (.twill 0 0) (twEng 0) = false ∧ (((hwOf []).arb (.twill 0 0)).pend.any (fun q => q.who == twEng 0)) = false) := by
  and_intros <;> decide

theorem witness_a_line_enters_the_window :
    (let h := (hwOf []).modE 0 (fun x => { x with need := some (0x1000000, true) })
     h.ttRange 0 (0x1000000 * 256) 1 = true ∧ (h.eng 0).need = some (0x1000000, true) ∧ (h.eng 0).ready = none) ∧
    (let h := (hwOf []).modE 0 (fun x => { x with need := some (5, true), ready := some {} })
     h.ttRange 0 (5 * 256) 1 = false ∧ (h.eng 0).need = some (5, true) ∧ (h.eng 0).ready = some {}) ∧
    (State.reset.hw.eng 0).need ≠ some (5, true) ∧
    (let h := (hwOf [(TT_SR_STAT_MARKED, 0, 1)]).modE 0 (fun x => { x with data := [(0, [])] }); h.markLine 0 = some 0 ∧ (h.eng 0).data.any (fun x => x.1 == 0) = true) := by
  decide

/-- 256 events pending. -/
def full : Hw := { hwOf [] with evs := List.replicate 256 (1, 100) }

theorem witness_256_events_pending : (0, 16) ∉ full.evs ∧ 0 + 16 ≤ 16 ∧ 256 ≤ full.evs.length ∧ full.evs.length ≤ 256 :=
  ⟨fun h => absurd (List.eq_of_mem_replicate h) (by decide), by decide, Nat.le_of_eq List.length_replicate.symm, Nat.le_of_eq List.length_replicate⟩

theorem witness_EventsAreScheduledWithTheirLead :
    (let h := { hwOf [] with evs := [(63, 100)] }; (stOf h).on ∧ h.now ≤ 90 ∧ 63 < 64 ∧ (63, 100) ∈ h.evs ∧ (63, 105) ∉ h.evs ∧ 105 < 90 + 16 ∧ (63, 106) ∉ h.evs ∧ 90 + 16 ≤ 106 ∧ h.evs.length < 256) ∧
    (State.reset.hears .spi ∧ 511 < 512 ∧ 319 < 320 ∧ 63 < 64) := by
  and_intros <;> decide

theorem witness_AnEventThatActsIsSeen :
    (let h := { hwOf [] with evs := [(63, 100)] }; (stOf h).on ∧ 63 < 320 ∧ (63, 100) ∈ h.evs ∧ h.now ≤ 100 ∧ (63 < 64 ∨ (h.mute = false ∧ h.levOn (63 - 64) = true)) ∧ (0 < 320 ∧ 0 ≠ 63)) ∧
    (let h := { hwOf [(STN_STATE_DARK_B, 0, 0), (STN_STATE_STATE, 0, 3), (STN_LEV_MASK_EN, 0, 0)] with evs := [(319, 100)] }; let g := h.put STN_LEV_MASK_EN 0 0xFFFFFFFF 7
     319 < 320 ∧ (319, 100) ∈ g.evs ∧ g.mute = false ∧ g.levOn (319 - 64) = true) := by
  and_intros <;> decide

/-- Trigger pin 0 an input whose level is known to be low, edges of the kind `k` selected, FILT at its greatest. -/
def trig0 (k : Nat) : Hw := { hwOf [(STN_TRIG_CFG_EDGE, 0, k), (STN_TRIG_CFG_FILT, 0, 255)] with trigLvl := [(0, false)], trigAt := [(0, 0)] }

theorem witness_TriggerPinsRaiseAndDrive :
    (let h := { hwOf [] with trigNew := [7] }
     (stOf h).on ∧ 7 < 8 ∧ h.dieUp (7 / 4) = true ∧ h.flag STN_TRIG_CFG_DIR 0 7 = false ∧ h.now ≤ 0 ∧ tfind h.trigAt 7 = none ∧ tfind h.trigLvl 7 ≠ some true ∧
       h.trigNew.contains 7 = true) ∧
    ((trig0 1).dieUp (0 / 4) = true ∧ (trig0 1).flag STN_TRIG_CFG_DIR 0 0 = false ∧ (trig0 1).now ≤ 256 ∧ tfind (trig0 1).trigAt 0 = some 0 ∧
      0 + (trig0 1).get STN_TRIG_CFG_FILT 0 0 + 1 ≤ 256 ∧ tfind (trig0 1).trigLvl 0 ≠ some true ∧ (trig0 1).trigNew.contains 0 = false ∧
      (trig0 1).get STN_TRIG_CFG_EDGE 0 0 = 1 ∧ 255 < 0 + (trig0 1).get STN_TRIG_CFG_FILT 0 0 + 1) ∧
    ((hwOf [(STN_TRIG_CFG_DIR, 0, 1)]).flag STN_TRIG_CFG_DIR 0 0 = true ∧ ((hwOf []).modD 1 (fun x => { x with fenced := true })).dieUp (7 / 4) = false ∧
      tfind (trig0 1).trigLvl 0 = some false) ∧
    (let h := { hwOf [(STN_TRIG_CFG_DIR, 0, 1)] with trigEnd := [(0, 9)] }
     h.dieUp (0 / 4) = true ∧ tfind h.trigEnd 0 = some 9 ∧ h.now ≤ 9 ∧ h.flag STN_TRIG_CFG_DIR 0 0 = true) ∧
    (State.reset.hw.servesMaster .spi = true ∧ State.reset.hw.get STN_TRIG_CFG_DIR 0 0 ≠ bits 1 0 0) := by
  and_intros <;> decide

/-- Queue 0 on, with pointers and further fields. -/
def queOn (wp rp : Nat) (l : List (Fld × Nat × Nat)) : Hw := (hwOf ([(Q_CFG_EN, 0, 1), (Q_STAT_EN_ACT, 0, 1), (Q_CFG_FMT, 0, 1)] ++ l)).qSet 0 wp rp

theorem witness_QueuesStartFlushReleaseAndFill :
    (State.reset.hears .spi ∧ State.reset.hw.hasQueue 0 = true ∧ State.reset.hw.hasQueue 511 = true ∧ State.reset.hw.qOn 0 = false ∧ bit 4 2 = true ∧
      ((State.reset.hw.qCfgFields 0 4).put Q_CFG_EN 0 0).qRefused 0 = true) ∧
    (bit 0x805 2 = true ∧ ((State.reset.hw.qCfgFields 0 0x805).put Q_CFG_EN 0 0).qRefused 0 = false) ∧
    ((queOn 0 0 []).qOn 0 = true ∧ bit 1 2 = false ∧ bits 1 1 0 = (queOn 0 0 []).get Q_CFG_FMT 0 ∧ bits 1 3 3 = (queOn 0 0 []).get Q_CFG_SPILL 0 ∧
      bits 1 12 8 = (queOn 0 0 []).get Q_CFG_LOG2 0 ∧ bits 1 25 16 = (queOn 0 0 []).get Q_CFG_BASE 0) ∧
    (bit 2 2 = false ∧ bits 2 1 0 ≠ (queOn 0 0 []).get Q_CFG_FMT 0) ∧
    (let h := queOn (2 ^ 64 - 1) (2 ^ 64 - 33) []
     h.qOn 0 = true ∧ (h.que 0).rp + 32 ≤ (h.que 0).wp ∧ (h.que 0).wp < 2 ^ 64 ∧ 32 < 2 ^ 31 ∧ 32 % h.qP 0 = 0 ∧ h.qCheck 0 = h) ∧
    (let r : Rec := { q := 0, unit := 0, bin := 0, tick := 0, words := [] }
     let h := (queOn 0 0 []).modD 0 (fun x => { x with recs := [r] })
     h.dieUp 0 = true ∧ firstRec (h.die 0).recs = some r ∧ (h.modD 0 (fun x => { x with recs := x.recs.erase r })).qOn (0 * 64 + r.q) = true) ∧
    (let r : Rec := { q := 63, unit := 0, bin := 0, tick := 0, words := [] }
     let h := (hwOf []).modD 7 (fun x => { x with recs := [r] })
     h.dieUp 7 = true ∧ firstRec (h.die 7).recs = some r ∧ (h.modD 7 (fun x => { x with recs := x.recs.erase r })).qOn (7 * 64 + r.q) = false) ∧
    firstRec (State.reset.hw.die 0).recs = none ∧
    (let q := fun (a : ArbS) => ((queOn 0 0 [(Q_LR_BASE_ADDR, 0, 0x1000000000)]).modQ 0 (fun x => { x with stage := [[1]], ring := true })).setArb (.twill 0 0) a
     let h := q { hold := [{ who := twQueue 0, rank := 6 }] }; let p := q { pend := [{ who := twQueue 0, rank := 6 }] }; let n := q {}
     (h.que 0).stage = [1] :: [] ∧ (h.que 0).ring = true ∧ h.qOn 0 = true ∧ ddrChan (h.get Q_LR_BASE_ADDR 0) = some 0 ∧ h.holds (.twill 0 0) (twQueue 0) = true ∧
       p.holds (.twill 0 0) (twQueue 0) = false ∧ (p.arb (.twill 0 0)).pend.any (fun x => x.who == twQueue 0) = true ∧
       n.holds (.twill 0 0) (twQueue 0) = false ∧ (n.arb (.twill 0 0)).pend.any (fun x => x.who == twQueue 0) = false) ∧
    (State.reset.hw.que 0).stage = [] := by
  and_intros <;> decide

theorem witness_HeadsArePoppedOncePerPacket :
    (State.reset.hears .spi ∧ State.reset.hw.hasQueue 511 = true ∧ State.reset.hw.slotOf (511 / 64) (masterNo .spi) = none) ∧
    (let sl : SlotS := { who := masterNo .spi, blk := .queue, inst := 0, off := 0x80, words := [], granted := 0, last := 0, top := 0, head := some (0, 0) }
     let h := (hwOf []).modD 0 (fun x => { x with slots := [sl] })
     h.slotOf (0 / 64) (masterNo .spi) = some sl ∧ sl.blk = .queue ∧ sl.inst = 0 ∧ sl.off = 0x80 ∧ sl.head = some (0, 0)) ∧
    (let h := queOn 32 0 []; (h.que 0).ok = true ∧ h.qOn 0 = true ∧ 0 < h.qLevel 0 ∧ h.get Q_STAT_GEN 0 = 0 ∧ (h.que 0).rp = 0) ∧
    (let h := queOn 0 0 []; (h.que 0).ok = true ∧ (h.qOn 0 = false ∨ h.qLevel 0 = 0 ∨ h.get Q_STAT_GEN 0 ≠ 0 ∨ (h.que 0).rp ≠ 0)) := by
  and_intros <;> decide

theorem witness_Ddr5TrainsAndScrubs :
    (State.reset.hears .spi ∧ 1 < 2 ∧ State.reset.hw.dieUp 1 = true ∧ State.reset.hw.flag DDR_STAT_BUSY 1 = false) ∧
    (let h := (hwOf [(DDR_STAT_BUSY, 0, 1), (DDR_CFG_SPEED, 0, 4)]).modD 0 (fun x => { x with ddrCfg := some 5 })
     h.flag DDR_STAT_BUSY 0 = true ∧ 4 < bits ((h.die 0).ddrCfg.getD (((h.put DDR_CMD_TRAIN 0 0).put DDR_STAT_BUSY 0 0).ddrCfgWord 0)) 2 0) ∧
    (let h := (hwOf [(DDR_STAT_BUSY, 0, 1), (DDR_CFG_SPEED, 0, 5)]).modD 0 (fun x => { x with ddrCfg := some 4 })
     let cfg := (h.die 0).ddrCfg.getD (((h.put DDR_CMD_TRAIN 0 0).put DDR_STAT_BUSY 0 0).ddrCfgWord 0)
     h.flag DDR_STAT_BUSY 0 = true ∧ bits cfg 2 0 ≤ 4 ∧ ddrMib (bits cfg 3 3) (bits cfg 4 4) (bits cfg 6 5) ≤ 65536) ∧
    (let q := fun (a : ArbS) => ((hwOf [(DDR_SCRUB_PERIOD, 0, 1), (DDR_CAP_MIB, 0, 1)]).setArb (.twill 0 0) a).meets []
     0 < (q {}).get DDR_SCRUB_PERIOD 0 ∧ 0 < (q {}).ddrCap 0 ∧ (q { hold := [{ who := twScrub, rank := 6 }] }).holds (.twill 0 0) twScrub = true ∧
       (q { pend := [{ who := twScrub, rank := 6 }] }).holds (.twill 0 0) twScrub = false ∧
       (((q { pend := [{ who := twScrub, rank := 6 }] }).arb (.twill 0 0)).pend.any (fun x => x.who == twScrub)) = true ∧
       (q {}).holds (.twill 0 0) twScrub = false ∧ (((q {}).arb (.twill 0 0)).pend.any (fun x => x.who == twScrub)) = false) ∧
    ((hwOf [(DDR_SCRUB_PERIOD, 0, 0)]).get DDR_SCRUB_PERIOD 0 = 0) := by
  and_intros <;> decide
/-- Visit `k` as `v` says. -/
def visOf (k : Nat) (v : VisitS) (l : List (Fld × Nat × Nat)) : Hw := { hwOf l with visits := [(k, v)] }

theorem witness_CalibrationCommandsShowTheirResult :
    (State.reset.hears .spi ∧ State.reset.hw.dieUp 7 = true ∧ 63 < 64 ∧ 1 < 2 ∧ 33 < 34 ∧ 31 < 32) ∧
    (let h := hwOf []; 33 ≤ 33 ∧ ((h.calCmdOp 0 1 33).visit (0 * 2 + h.sidFor 0 (unitAt 0 33) 0)).phase = 0 ∧ (h.calCmdOp 0 1 33).flag CAL_CMD_BUSY 0 = false) ∧
    (let h := hwOf [(CAL_CMD_BUSY, 0, 1)]; 0 ≤ 33 ∧ ((h.calCmdOp 0 1 0).visit (0 * 2 + h.sidFor 0 (unitAt 0 0) 0)).phase = 0 ∧ (h.calCmdOp 0 1 0).flag CAL_CMD_BUSY 0 = true) ∧
    (let h := visOf 1 { u := 0, phase := 1 } []; ((h.calCmdOp 0 1 33).visit (0 * 2 + h.sidFor 0 (unitAt 0 33) 0)).phase ≠ 0) ∧
    (let h := hwOf []; ([16 + 0 * 2, 17 + 0 * 2].find? (fun k => ((h.calCmdOp 0 4 5).visit k).u == unitAt 0 5 && ((h.calCmdOp 0 4 5).visit k).phase == 7)) = none) ∧
    (let h := (hwOf []).modD 0 (fun x => { x with sid0 := { hold := [{ who := 0, rank := 1 }] }, sid1 := { hold := [{ who := 0, rank := 1 }] } })
     h.sidFree 0 0 = false ∧ h.sidFree 0 1 = false) ∧
    ((hwOf [(CAL_NVM_STAT_F_LEFT, 0, 0)]).get CAL_NVM_STAT_F_LEFT 0 = 0) ∧ (State.reset.hw.flag CAL_NVM_STAT_STORING 0 = false ∧ State.reset.hw.flag CAL_CMD_BUSY 0 = false) := by
  and_intros <;> decide

theorem witness_VisitsAndStoresGoThroughTheirPhases :
    (let h := hwOf [(CAL_ROTA_CFG_EN, 0, 1), (CAL_ROTA_MASK_CH, 0, 1)]
     (stOf h).on ∧ h.dieUp 0 = true ∧ h.flag CAL_ROTA_CFG_EN 0 = true ∧ (h.die 0).rotaAt = none ∧ (h.die 0).rotaCh = none ∧ h.now ≤ 0 ∧ h.rotaList 0 ≠ [] ∧
       (h.visit (0 * 2 + h.sidFor 0 (unitAt 0 ((h.rotaList 0).headD 0)) (1 - (h.die 0).rotaSid % 2))).phase = 0) ∧
    (let h := visOf 0 { phase := 2 } []; (h.visit (0 * 2 + 0 % 2)).phase = 2 ∧ h.holds (visTok (0 * 2 + 0 % 2)) (visWho (0 * 2 + 0 % 2)) = false ∧ (h.visit (0 * 2 + 0 % 2)).at_ + t1s ≤ t1s ∧ h.now ≤ t1s) ∧
    (let h := (visOf 0 { u := 0, phase := 2 } [(U_STATE_STATE, 0, 2)]).modD 0 (fun x => { x with sid0 := { hold := [{ who := visWho 0, rank := 5 }] } })
     h.visIn 0 0 2 = some 0 ∧ isSiding (h.visit 0).u = false ∧ h.holds (visTok 0) (visWho 0) = true ∧ h.st (h.visit 0).u = stOPEN ∧ h.servedBy (h.visit 0).u = none ∧
       (h.unit (h.visit 0).u).shadow = none ∧ h.rngBusy (h.visit 0).u = false) ∧
    (let h := (visOf 0 { u := 0, phase := 2 } []).modD 0 (fun x => { x with sid0 := { hold := [{ who := visWho 0, rank := 5 }] } })
     h.visIn 0 0 2 = some 0 ∧ h.holds (visTok 0) (visWho 0) = true ∧ h.st (h.visit 0).u ≠ stOPEN ∧ h.st (h.visit 0).u ≠ stCLOSED) ∧
    (let h := visOf 0 { u := 0, phase := 3, at_ := 0 } []; h.visIn 0 0 3 = some 0 ∧ (h.visit 0).at_ + h.get CAL_TKO_WAIT 0 * t1s ≤ h.get CAL_TKO_WAIT 0 * t1s ∧ h.now ≤ h.get CAL_TKO_WAIT 0 * t1s) ∧
    (let h := visOf 0 { u := 0, kind := 1, phase := 6, tolBad := true } []
     h.visIn 0 0 6 = some 0 ∧ (h.visit 0).tolBad = true ∧ (h.visit 0).kind ≠ 0 ∧ (h.visit 0).at_ + h.get CAL_TKO_WAIT 0 * t1s ≤ h.get CAL_TKO_WAIT 0 * t1s) ∧
    (let h := (visOf 0 { phase := 5, steps := [(8, 0), (8, 1)] } []).modD 0 (fun x => { x with cal := { hold := [{ who := visSid 0, rank := 5 }] } })
     (h.visit (0 * 2 + 0 % 2)).steps = (8, 0) :: [(8, 1)] ∧ [(8, 1)] ≠ [] ∧ (h.visit (0 * 2 + 0 % 2)).phase = 5 ∧ h.holds (.cal 0) (visSid (0 * 2 + 0 % 2)) = true ∧
       (List.replicate 16 ((0 : Int), (0 : Int), (0 : Int))).length = 16) ∧
    (let h := hwOf [(CAL_STORE_CFG_HOURS, 0, 1)]
     h.dieUp 0 = true ∧ h.get CAL_STORE_CFG_HOURS 0 ≠ 0 ∧ h.now ≤ tHour ∧ (h.die 0).storedAt + h.get CAL_STORE_CFG_HOURS 0 * tHour ≤ tHour ∧ h.flag CAL_NVM_STAT_STORING 0 = false) ∧
    ((hwOf [(CAL_STORE_CFG_HOURS, 0, 0)]).get CAL_STORE_CFG_HOURS 0 = 0) ∧
    (let q : Req := { who := 1, rank := 1 }; (((hwOf []).modD 0 (fun x => { x with nvm := { hold := [q] } })).arb (.nvm 0)).hold = q :: [] ∧ q.who = 1) ∧
    (let q : Req := { who := 2, rank := 5 }; (((hwOf []).modD 0 (fun x => { x with nvm := { hold := [q] } })).arb (.nvm 0)).hold = q :: [] ∧ q.who = 2) ∧
    (let q : Req := { who := 3, rank := 6 }; (((hwOf []).modD 0 (fun x => { x with nvm := { hold := [q] } })).arb (.nvm 0)).hold = q :: [] ∧ q.who = 3 ∧
      0 = ((hwOf []).modD 0 (fun x => { x with nvm := { hold := [q] } })).logDie) ∧
    ((State.reset.hw.arb (.nvm 0)).hold = []) := by
  and_intros <;> decide

/-- Unit 0 in state `st`, served in shadow with an agreement of 64 equal samples, in phase `ph` of the visit of siding 0, forced or not. -/
def shadow0 (st ph : Nat) (f : Bool) : Hw :=
  (visOf 0 { u := 0, phase := ph, taken := true, force := f, periods := 1000000, diffs := List.replicate 64 (0, 0) } [(U_STATE_STATE, 0, st)]).modU 0 (fun x => { x with shadow := some 0 })

theorem witness_visits_hand_over_and_return :
    (let h := shadow0 2 3 false; let g := h.finishTick (h.headOf 0)
     h.visIn 0 0 3 = some 0 ∧ h.tickOk (h.headOf 0) (h.period 0) = true ∧ g.rngBusy 0 = false ∧ (g.visit 0).force = false ∧ g.st 0 = stOPEN ∧
       g.tkoOk 0 (h.period 0) {} {} = true) ∧
    (let h := shadow0 2 3 true; let g := h.finishTick (h.headOf 0)
     h.visIn 0 0 3 = some 0 ∧ h.tickOk (h.headOf 0) (h.period 0) = true ∧ g.rngBusy 0 = false ∧ (g.visit 0).force = true ∧ g.st 0 = stOPEN) ∧
    (let h := shadow0 6 6 false; let g := h.finishTick (h.headOf 0)
     h.visIn 0 0 6 = some 0 ∧ h.tickOk (h.headOf 0) (h.period 0) = true ∧ g.st (g.visit 0).u = stSIDED ∧ g.tkoOk 0 (h.period 0) {} {} = true) := by
  decide +kernel

/-- Every die's Interlocking has sensed its inputs; with fields set. -/
def panelOf (l : List (Fld × Nat × Nat)) : Hw := { hwOf l with boot := { (hwOf []).boot with live := [0, 1, 2, 3, 4, 5, 6, 7] } }

theorem witness_PanelInputsAct :
    (let h := panelOf []
     (stOf h).on ∧ h.now ≤ t1ms ∧ 4 < 5 ∧ 7 < 8 ∧ h.sensed = true ∧ h.lid.open0 + t10us ≤ t10us ∧ h.lid.open1 + t10us ≤ t10us ∧
       t10us - 1 < h.lid.open0 + t10us ∧ t10us - 1 < h.lid.open1 + t10us ∧ h.lid.shut0 + 50 * t1ms ≤ 50 * t1ms ∧ h.lid.shut1 + 50 * t1ms ≤ 50 * t1ms ∧
       50 * t1ms - 1 < h.lid.shut0 + 50 * t1ms ∧ h.lid.apart + 100 * t1ms ≤ 100 * t1ms ∧ 100 * t1ms - 1 < h.lid.apart + 100 * t1ms) ∧
    (let g := fun a => (({ (panelOf []).modD 0 (fun x => { x with ilkA := a }) with discLock := false } : Hw).modD 1 (fun x => { x with ilkA := a })).lidRead 0 false false
     ((g true).put STN_PANEL_ILK_OK 0 0).headLine (fun x => x.ilkA) = true ∧ ((g false).put STN_PANEL_ILK_OK 0 0).headLine (fun x => x.ilkA) = false) ∧
    ((panelOf []).discLock = false ∧ ({ panelOf [] with discLock := true } : Hw).discLock = true) ∧
    (5 ≤ (panelOf [(STN_KEY_CFG_DEB, 0, 50)]).get STN_KEY_CFG_DEB 0 ∧ (panelOf [(STN_KEY_CFG_DEB, 0, 50)]).get STN_KEY_CFG_DEB 0 ≤ 50) ∧
    (let h := panelOf [(STN_KEY_CFG_DEB, 0, 0)]
     (∀ n, n ∈ [keyPin 0, keyPin 4, 1, 8, 15] → tget h.keyAt n 0 + h.debounce ≤ 5 * t1ms ∧ 5 * t1ms - 1 < tget h.keyAt n 0 + h.debounce) ∧
       h.keyDown 4 = false ∧ (h.keyShow 4 true).keyDown 4 = true ∧ h.flag STN_PANEL_ABORT 0 = false ∧ (h.put STN_PANEL_ABORT 0 1).flag STN_PANEL_ABORT 0 = true ∧
       bit (h.get STN_PANEL_FIX 0) 7 = false ∧ bit ((h.put STN_PANEL_FIX 0 128).get STN_PANEL_FIX 0) 7 = true) := by
  decide

theorem witness_BackstopIsolatesAtTSafe :
    (let h := (hwOf [(ILK_STAT_ILK_OPEN, 7, 1), (ILK_STAT_ISO_REL, 7, 1)]).modD 7 (fun x => { x with ilkBack := some 24576 })
     (stOf h).on ∧ h.now ≤ 24576 ∧ (h.die 7).ilkBack = some 24576 ∧ h.flag ILK_STAT_ILK_OPEN 7 = true ∧ h.flag ILK_STAT_ISO_REL 7 = true) ∧
    ((State.reset.hw.die 0).ilkBack ≠ some 24576 ∧ (State.reset.hw.die 0).abortBack ≠ some 24576) ∧
    ((hwOf [(ILK_CFG_TSAFE, 0, 0)]).get ILK_CFG_TSAFE 0 = 0 ∧ 100 < (hwOf [(ILK_CFG_TSAFE, 0, 101)]).get ILK_CFG_TSAFE 0) ∧
    (1 ≤ (hwOf [(ILK_CFG_TSAFE, 0, 1)]).get ILK_CFG_TSAFE 0 ∧ (hwOf [(ILK_CFG_TSAFE, 0, 100)]).get ILK_CFG_TSAFE 0 ≤ 100) := by
  decide

/-- Unit 0 in a state, its contact check and its way to isolation as given. -/
def connOf (s : Nat) (c : ChkS) (x : SafeS) : Hw := (hwOf [(U_STATE_STATE, 0, s)]).modU 0 (fun y => { y with chk := c, safe := x, clk := { y.clk with ticked := true } })

theorem witness_ConnectingAndIsolatingGoByTicks :
    (let h := connOf 1 { phase := 1 } {}; let n := 1000000 * h.period 0
     (stOf h).on ∧ (h.unit 0).tail = false ∧ h.tickOk 0 n = true ∧ h.chkLatchDue 0 n = true) ∧
    (let h := connOf 1 { phase := 3 } {}; let n := 1000 * h.period 0; h.tickOk 0 n = true ∧ h.chkSettledDue 0 n = true) ∧
    (let h := connOf 2 {} { cause := some (1, 0) }; let n := h.period 0; h.tickOk 0 n = true ∧ (h.unit 0).safe.cause = some (1, 0) ∧ 0 + 30 ≤ n ∧ 29 < 0 + 30) ∧
    (let h := connOf 2 {} { due := some (1, 0) }; (h.unit 0).safe.due = some (1, 0)) ∧
    (let h := connOf 2 {} {}; (h.unit 0).safe.cause = none ∧ h.isolationDone 0 0 = false ∧ h.chkEnd 0 = false ∧ h.isolationDue 0 = false) ∧
    (let h := connOf 4 {} { req := true, rb := true }; let n := h.period 0; h.tickOk 0 n = true ∧ h.isolationDone 0 n = true) ∧
    (let h := connOf 1 { phase := 4 } {}
     isUnit 0 = true ∧ h.runs 0 = true ∧ h.headOf 0 = 0 ∧ (h.unit 0).clk.ticked = true ∧ (h.unit 0).tail = false ∧ h.chkEnd 0 = true) ∧
    (let h := connOf 4 {} { ramp := true, rampDone := true, inTh := 4 }; (h.unit 0).tail = false ∧ h.isolationDue 0 = true) := by
  and_intros <;> decide

theorem witness_ThermalSupervisionAsksForConversions :
    (let h := hwOf [(STN_BOOT_STEP, 0, 3)]
     (stOf h).hears .spi ∧ h.dieUp 7 = true ∧ h.now ≤ 0 ∧ (h.die 7).passAt = none ∧ h.passOn 7 = false ∧ 3 ≤ h.get STN_BOOT_STEP 0 ∧ (h.die 7).emergAt = none) ∧
    (let h := hwOf [(TH_SCFG_TYPE, 11, 1), (TH_SUP_STAT_EMERG, 0, 0x800)]
     let a := h.arb (.aux 0)
     (h.die 0).emergAt = none ∧ (h.thOn 0).filter (fun n => bit (h.get TH_SUP_STAT_EMERG 0) n &&
       !((h.die 0).thQ.any (fun p => p.2 == n) || (a.hold ++ a.pend).any (fun q => q.who == 32 + n || q.who == 16 + n))) ≠ []) ∧
    (let h := hwOf [(TH_SCFG_TYPE, 11, 1)]; 11 < 12 ∧ h.flag TH_CMD_GO 0 = false ∧ (h.put TH_CMD_SENSOR 0 11).get TH_SCFG_TYPE (0 * 12 + 11) ≠ 0) ∧
    (let h := hwOf [(TH_CMD_GO, 0, 1), (TH_SCFG_TYPE, 0, 0)]; 15 < 16 ∧ h.flag TH_CMD_GO 0 = true ∧ (11 < 15 ∨ h.get TH_SCFG_TYPE (0 * 12 + 15) = 0)) ∧
    (let h := hwOf [(TH_CMD_GO, 0, 1), (TH_SCFG_TYPE, 0, 1)]; 0 < 12 ∧ h.flag TH_CMD_GO 0 = true ∧ h.get TH_SCFG_TYPE (0 * 12 + 0) ≠ 0) ∧
    (let h := hwOf [(TH_SUP_CFG_COMPP, 0, 1)]; h.get TH_SUP_CFG_COMPP 0 ≠ 0 ∧ (h.die 0).compW = []) ∧
    (let h := (hwOf [(STN_METRO_STAT_ACT_SRC, 0, 3)]).modD 0 (fun x => { x with osc := some 5 })
     (h.die h.bootDie).osc = some 5 ∧ 4096 % 4096 = 0 ∧ h.now ≤ 4096 ∧ h.get STN_METRO_STAT_ACT_SRC 0 = 3) := by
  and_intros <;> decide

theorem witness_ImagesLoadAndAttest :
    (State.reset.hears .spi ∧ 3 < 4 ∧ State.reset.hw.get STN_STATE_STATE 0 ≠ 2) ∧
    (let h := hwOf [(STN_STATE_STATE, 0, 2), (STN_BOOT_HELD_CAUSE, 0, 2)]; h.get STN_STATE_STATE 0 = 2 ∧ 2 ≤ h.get STN_BOOT_HELD_CAUSE 0) ∧ 3 = 3 ∧
    (let h := hwOf [(STN_ATT_CMD_BUSY, 0, 1)]; h.dieUp 0 = true ∧ h.flag STN_ATT_CMD_BUSY 0 = true) ∧ (State.reset.hw.flag STN_ATT_CMD_BUSY 0 = false) ∧
    (let h := hwOf []; h.dieUp 0 = true ∧ h.flag STN_ATT_CMD_BUSY 0 = false) ∧
    (let h := { hwOf [] with boot := { (hwOf []).boot with att := some (0, []) } }; h.boot.att = some (0, [])) ∧ State.reset.hw.boot.att = none := by
  decide

theorem witness_CountedSettingsConsumeTheirCounts :
    (State.reset.hears .spi ∧ 3 < 4 ∧ 15 < 16 ∧ State.reset.hw.cntBlocked (.bind 0x1005) = false ∧ State.reset.hw.cntBlocked (.relief 1) = false) ∧
    ((hwOf [(TH_SUP_STAT_SHUT, 0, 1)]).cntBlocked (.bind 0x1005) = true) ∧ ((hwOf [(STN_BIND_LEFT, 0, 0)]).get STN_BIND_LEFT 0 = 0) ∧
    ((hwOf [(STN_RELIEF_LEFT, 0, 0)]).get STN_RELIEF_LEFT 0 = 0) ∧
    (State.reset.hw.flag TH_SUP_STAT_SHUT 1 = false ∧ State.reset.hw.dieUp 1 = true ∧ State.reset.hw.get STN_RELIEF_EN 0 ≠ 1 % 2 ∧ State.reset.hw.get STN_RELIEF_LEFT 0 ≠ 0) ∧
    (State.reset.hw.otpHeld = false ∧ State.reset.hw.get STN_BIND_LEFT 0 ≠ 0 ∧ State.reset.hw.flag STN_BIND_BOUND 0 ≠ bit 0x1005 12) ∧
    (State.reset.hw.otpHeld = false ∧ State.reset.hw.flag STN_KEY_CMD_BUSY 0 = false ∧ State.reset.hw.keyState 3 = 0 ∧ (hwOf [(STN_KEY_STAGE_DIGEST, 0, 1)]).get STN_KEY_STAGE_DIGEST 0 ≠ 0 ∧
      0 ≠ 3 ∧ State.reset.hw.keyState 0 ≠ 2 ∧ State.reset.hw.keyState 3 ≠ 2) ∧
    (let h := State.reset.hw.writeFields .die 7 0x70008 15 (fun _ => true)
     h.flag TH_SUP_STAT_SHUT 7 = false ∧ h.dieUp 7 = true ∧ (hwOf []).dieUp 1 = true ∧ ((hwOf []).modD 1 (fun x => { x with fenced := true })).dieUp 1 = false ∧ h.get ILK_CEIL_GEN_GEN 7 ≠ 15 ∧ h.get ILK_CEIL_GEN_LEFT 7 ≠ 0 ∧ (unitsOf 7).any (fun u => h.live u) = false) ∧
    (State.reset.hw.dieUp 7 = true ∧ (State.reset.hw.writeFields .die 7 0x70008 15 (fun _ => true)).cntBlocked (.ceil 7 15) = false) ∧
    (State.reset.hw.get ILK_CEIL_GEN_GEN 0 = 0) ∧
    (let h := hwOf [(U_STATE_STATE, 0, 2)]; h.get ILK_CEIL_GEN_GEN 0 ≠ 15 ∧ h.get ILK_CEIL_GEN_LEFT 0 ≠ 0 ∧ (unitsOf 0).any (fun u => h.live u) = true) := by
  and_intros <;> decide

theorem witness_FlashCommandsCopyAndErase :
    (State.reset.hears .spi ∧ 1 < 2 ∧ (3 = 3 ∧ Instr.xspiErase .spi 1 = .xspiErase .spi 1)) ∧ ((hwOf [(STN_XSPI_CMD_BUSY, 0, 1)]).flag STN_XSPI_CMD_BUSY 0 = true) ∧
    (let h := (hwOf []).modD 1 (fun x => { x with fenced := true }); h.flag STN_XSPI_CMD_BUSY 0 = false ∧ h.dieUp 1 = false) ∧
    (let x : XspiS := { op := 1, head := 0, faddr := 0, maddr := 0x100000000, len := 256 }
     let y : XspiS := { op := 3, head := 0, faddr := 0, maddr := 0, len := 4096 }
     let h := { hwOf [] with boot := { (hwOf []).boot with xspi := some x } }; h.boot.xspi = some x ∧ x.op = 1 ∧ x.op ≠ 3 ∧ y.op = 3) ∧
    State.reset.hw.boot.xspi = none ∧ ((7 < 8 ∨ 8 + 256 ≤ 7) ∧ (264 < 8 ∨ 8 + 256 ≤ 264)) ∧
    (∀ e, e < 64 → ∀ k, k < 2 → k * 256 < 257 ∧ (hwOf []).ringHit e (0x100000000 + 256 * k) (min 256 (257 - 256 * k)) = false) ∧
    (let h := hwOf [(TT_SR_BASE_ADDR, 63, 0x1000000000), (TT_SR_SIZE_LOG2, 63, 12), (TT_SR_STAT_MARKED, 63, 1), (TT_SR_RP_VALUE, 63, 8)]
     (ddrChan (0x1000000000 + 256 * 0)).isSome = true ∧ h.ringHit 63 (0x1000000000 + 256 * 0) (min 256 (257 - 256 * 0)) = true ∧ 256 * 0 ≤ 255 ∧ 255 < 256 * 0 + 256 ∧ 255 < 257) := by
  and_intros <;> decide

theorem witness_AuditKeepsItsRecordsInOrder :
    (State.reset.hears .spi ∧ State.reset.hw.holds (.nvm State.reset.hw.logDie) 3 = false) ∧
    (let e : AudPend := { kind := 12, die := 0, arg := 0, time := 0, line := false }
     let h := ({ hwOf [] with audQ := [e], audLost := 0 }).modD 0 (fun x => { x with nvm := { hold := [{ who := 3, rank := 6 }] } })
     h.holds (.nvm h.logDie) 3 = true ∧ h.audLost = 0 ∧ h.audQ = e :: [] ∧ e.kind ≠ 5 ∧ h.audQ.length < 32) ∧
    (let e : AudPend := { kind := 12, die := 0, arg := 0, time := 0, line := false }
     32 ≤ ({ hwOf [] with audQ := List.replicate 32 e } : Hw).audQ.length) := by
  and_intros <;> decide

/-- Unit 0 closed at range 1 after its tick with AR_EN, its DN_RUN reached, its table leading from range 1 down to range 0. -/
def downOf : Hw :=
  let h := (hwOf [(U_STATE_STATE, 0, 3), (U_RANGE_SEL_AR_EN, 0, 1), (U_RANGE_STAT_IRNG_F, 0, 1), (U_RANGE_STAT_DN_RUN, 0, 255), (U_AR_CFG_DN_N, 0, 1)]).modU 0
    (fun x => { x with clk := { x.clk with ticked := true } })
  h.wrLE (h.rtab 0 + 0x20 + 12) 0x00010000 4

theorem witness_autorange_changes_down :
    (stOf downOf).on ∧ isUnit 0 = true ∧ downOf.runs 0 = true ∧ downOf.headOf 0 = 0 ∧ (downOf.unit 0).clk.ticked = true ∧ (downOf.unit 0).tail = false ∧ downOf.downDue 0 = true := by
  decide
/-- Port 0 of a link mode, its link in a state, the port as `f` makes it; further fields. -/
def portOf (mode link : Nat) (l : List (Fld × Nat × Nat)) (f : PortS → PortS) : Hw := (hwOf ([(TW_PORT_CFG_MODE, 0, mode), (TW_PORT_STAT_LINK, 0, link)] ++ l)).modP 0 f

theorem witness_PortsTrainSendAndResend :
    (State.reset.on ∧ 3 < 4 ∧ State.reset.hw.now ≤ 0 ∧ State.reset.hw.servesMaster .spi = true ∧ State.reset.hw.get TW_PORT_CFG_MODE 0 ≠ 0 ∧ State.reset.hw.get TW_PORT_CFG_MODE 0 = 1) ∧
    ((portOf 2 1 [] (fun x => x)).portMode 0 = 2 ∧ (portOf 2 1 [] (fun x => x)).get TW_PORT_STAT_LINK 0 ≠ 2) ∧
    ((portOf 1 1 [] (fun x => { x with words := 63 })).portMode 0 = 1 ∧ ((portOf 1 1 [] (fun x => { x with words := 63 })).port 0).words < 64) ∧
    ((portOf 1 1 [] (fun x => x)).get TW_PORT_STAT_LINK 0 ≠ 0 ∧ (portOf 1 0 [] (fun x => x)).get TW_PORT_STAT_LINK 0 = 0) ∧
    ((portOf 1 1 [] (fun x => x)).get TW_PORT_STAT_LINK 0 = 1) ∧ ((portOf 1 2 [] (fun x => x)).get TW_PORT_STAT_LINK 0 = 2 ∧ 63 < 64) ∧
    (let h := portOf 1 2 [] (fun x => { x with unack := [fr 3 0] })
     h.tweedUp 0 = true ∧ 2 ≤ 3 ∧ (h.port 0).unack.filter (fun (f : Frame) => f.lane == 3) ≠ [] ∧ tget (h.port 0).ackAt 3 0 + ticksOfUs 2 ≤ ticksOfUs 2) ∧
    (let h := portOf 1 2 [] (fun x => { x with dup := some (fr 1 0) }); h.tweedUp 0 = true ∧ (h.port 0).dup = some (fr 1 0)) ∧
    (let h := portOf 1 2 [] (fun x => { x with q := [(fr 0 0, none)] }); (h.port 0).dup = none ∧ (h.port 0).ready 0 = some (Frame.size (fr 0 0), some 0)) ∧
    (let h := portOf 1 2 [] (fun x => { x with q := [(fr 1 0, none)], cred := [(1, 1)] })
     (h.port 0).dup = none ∧ (h.port 0).ready 0 = none ∧ (h.port 0).ctrlOk 0 = true ∧ (h.port 0).ready 1 = some (Frame.size (fr 1 0), some 0)) ∧
    (let h := portOf 1 2 [] (fun x => x)
     (h.port 0).dup = none ∧ (h.port 0).ready 0 = none ∧ (h.port 0).ready 1 = none ∧ (h.port 0).ready 2 = none ∧ (h.port 0).ready 3 = none) := by
  and_intros <;> decide

/-- A Tweed port 0 that is UP. -/
def upPort : Hw := portOf 1 2 [(STN_BOOT_STEP, 0, 3)] (fun x => x)

theorem witness_FramesActByTheirKind :
    ((stOf upPort).on ∧ upPort.tweedUp 0 = true ∧ upPort.now ≤ 0) ∧ ((upPort.port 0).takes (fr 0 2) = true) ∧
    (let f := { fr 1 2 with seq := 65535 }; (upPort.port 0).takes f = true ∧ f.lane = 1) ∧
    (let f := { fr 2 8 with seq := 1 }; (upPort.port 0).takes f = true ∧ (f.lane = 2 ∨ f.lane = 3)) ∧
    (let f := { fr 2 15 with seq := 1 }; (upPort.port 0).takes f = true ∧ f.lane = 2 ∧ 8 < f.ty) ∧
    (let f := { fr 3 3 with seq := 1 }; (upPort.port 0).takes f = true ∧ (f.lane = 2 ∨ f.lane = 3) ∧ f.ty = 3) ∧
    (let f := { fr 2 4 with seq := 2 }; (upPort.port 0).takes f = false ∧ f.lane = 2 ∧ f.ty = 4) ∧
    (let f := { fr 1 2 with seq := 1 }; let r : Reported := { frame := f, st := 1 }; (upPort.port 0).takes f = true ∧ f.lane = 1 ∧ f.ty = 2 ∧ r.frame = f) ∧
    (tget (upPort.port 0).rxSeq 1 0 ≠ 1 ∧ (upPort.port 0).badCtrl ≠ some 1 ∧ ((upPort.modP 0 (fun x => { x with badCtrl := some 1 })).port 0).badCtrl = some 1) := by
  decide

theorem witness_FramesAreDeliveredOrDropped :
    ((hwOf [(STN_BOOT_STEP, 0, 2)]).get STN_BOOT_STEP 0 < 3) ∧ ({ fr 2 0 with loc := false }.loc = false ∧ (hwOf [(TW_LINE_CFG_EN, 0, 0)]).flag TW_LINE_CFG_EN 0 = false) ∧
    (3 ≤ upPort.get STN_BOOT_STEP 0 ∧ (fr 2 4).loc = true ∧ (fr 2 4).group = false ∧ (fr 2 4).bcast = false) ∧
    (let h := hwOf [(STN_BOOT_STEP, 0, 3), (TW_LINE_CFG_EN, 0, 1), (TW_LINE_STAT_NUM_VALID, 0, 1), (TW_LINE_STAT_NUM, 0, 5)]
     let f := { fr 2 0 with loc := false, dest := 5 }; let g := { fr 2 0 with loc := false, dest := 6, hops := 0 }; let k := { fr 2 0 with loc := false, dest := 6, hops := 31 }
     3 ≤ h.get STN_BOOT_STEP 0 ∧ h.flag TW_LINE_CFG_EN 0 = true ∧ h.flag TW_LINE_STAT_NUM_VALID 0 = true ∧ f.dest = h.ownNum ∧ (g.dest ≠ h.ownNum ∧ g.hops = 0) ∧
       (k.dest ≠ h.ownNum ∧ k.hops ≠ 0 ∧ h.outPorts k (some 0) = [])) := by
  decide

/-- A station of the Line that hears SYNC at port 0, with further fields and the Line as `f` makes it. -/
def lineOf (l : List (Fld × Nat × Nat)) (f : LineS → LineS) : Hw :=
  let h := portOf 1 2 ([(STN_STATE_STATE, 0, 3), (STN_BOOT_STEP, 0, 10), (TW_LINE_CFG_EN, 0, 1)] ++ l) (fun x => { x with sync := some (1, 0, 0) })
  { h with line := f h.line }

theorem witness_LineIsTimedAndJoined :
    (let h := lineOf [(TW_LINE_STAT_IS_MASTER, 0, 1)] (fun x => x)
     (stOf h).on ∧ h.now ≤ 4096 ∧ 4096 % 4096 = 0 ∧ h.flag TW_LINE_CFG_EN 0 = true ∧ h.flag TW_LINE_STAT_IS_MASTER 0 = true ∧ h.line.sentAt ≠ some 4096 ∧ 4095 % 4096 ≠ 0) ∧
    (let h := lineOf [] (fun x => x); h.tweedUp 0 = true ∧ (h.port 0).reqAt = none) ∧
    (let h := lineOf [(STN_STATE_DARK_B, 0, 1)] (fun x => x); 4096 % 4096 = 0 ∧ h.maySync 4096 = true) ∧
    (let h := lineOf [(TW_LINE_STAT_IS_MASTER, 0, 0), (TW_LINE_STAT_LOCKED, 0, 0)] (fun x => { x with okRun := 16 })
     h.serves = true ∧ h.flag TW_LINE_STAT_IS_MASTER 0 = false ∧ h.flag TW_LINE_STAT_LOCKED 0 = false ∧ 16 ≤ h.line.okRun ∧ (h.upstream h.now).isSome = true) ∧
    (State.reset.hw.line.okRun < 16) ∧
    (let h := lineOf [(TW_LINE_STAT_LOCKED, 0, 1), (TW_LINE_STAT_IS_MASTER, 0, 0)] (fun x => x)
     h.flag TW_LINE_STAT_LOCKED 0 = true ∧ h.flag TW_LINE_STAT_IS_MASTER 0 = false ∧ h.line.syncAt = none) ∧ ((hwOf [(TW_LINE_CFG_MASTER, 0, 0)]).flag TW_LINE_CFG_MASTER 0 = false) ∧
    (let h := lineOf [(TW_LINE_CFG_MASTER, 0, 1), (STN_BIND_BOUND, 0, 1), (TW_LINE_STAT_LOCKED, 0, 1)] (fun x => x)
     h.serves = true ∧ h.flag TW_LINE_CFG_MASTER 0 = true ∧ h.flag STN_BIND_BOUND 0 = true ∧ h.line.lowAt = none ∧ h.line.appliedAt = none) ∧
    (let h := lineOf [(TW_LINE_STAT_ANNOUNCED, 0, 0), (TW_LINE_STAT_IS_MASTER, 0, 0)] (fun x => x)
     3 ≤ h.get STN_BOOT_STEP 0 ∧ h.flag TW_LINE_CFG_EN 0 = true ∧ h.flag TW_LINE_STAT_ANNOUNCED 0 = false ∧ h.flag TW_LINE_STAT_IS_MASTER 0 = false ∧ h.line.stopped = false ∧ h.line.annAt = none) ∧
    (let h := lineOf [(TW_LINE_STAT_ANNOUNCED, 0, 1)] (fun x => { x with helloAt := some 0 })
     h.flag TW_LINE_STAT_ANNOUNCED 0 = true ∧ h.line.helloAt = some 0 ∧ 0 + t1ms ≤ t1ms ∧ t1ms - 1 < 0 + t1ms) ∧
    (let h := lineOf [(TW_LINE_STAT_IS_MASTER, 0, 1)] (fun x => { x with hello := [(4095, 0)] })
     tfind h.line.hello 4095 = some 0 ∧ h.flag TW_LINE_STAT_IS_MASTER 0 = true ∧ 0 + 3 * t1ms ≤ 3 * t1ms ∧ 3 * t1ms - 1 < 0 + 3 * t1ms) ∧
    (let r : LineReq := { m := .spi, tag := 7, write := true, at_ := 0, stn := 5 }
     let h := lineOf [] (fun x => { x with reqs := [r] })
     h.line.reqs.find? (fun q => q.tag == 7) = some r ∧ r.at_ + 2 * t1ms ≤ 2 * t1ms ∧ 2 * t1ms - 1 < r.at_ + 2 * t1ms) := by
  and_intros <;> decide

/-- Ethernet port 0 UP, with session 3 as given. -/
def ethOf (l : List (Fld × Nat × Nat)) (x : SessS) : Hw := { portOf 2 2 ([(STN_BOOT_STEP, 0, 3), (ETH_IP_ADDR, 0, 7)] ++ l) (fun x => x) with sess := [(3, x)] }

theorem witness_EthernetServesItsSessions :
    (let h := { ethOf [] {} with sess := [] }; (stOf h).on ∧ h.ethUp 0 = true ∧ h.get ETH_IP_ADDR 0 ≠ 0 ∧ 3 < 4 ∧ h.now ≤ 0 ∧ h.session (0 * 4 + 3) = {}) ∧
    (let o : Src := { ip := 1, port := 1 }; let h := ethOf [] { owner := some o }
     (h.session 3).owner = some o ∧ o ≠ { ip := 1, port := 2 } ∧ (h.session 3).idle = false ∧ (h.session 3).last = none ∧ (h.session 3).wait = none) ∧
    (8192 < 8193 ∧ 8192 ≤ 8192 ∧ State.reset.hw.isOwn (some (0 / 2 ^ 40 % 2 ^ 12)) = true ∧ State.reset.hw.isOwn (some (4095 * 2 ^ 40 / 2 ^ 40 % 2 ^ 12)) = false) ∧
    ((List.replicate 1 0).length ≤ 8192 ∧ (let h := ethOf [] { owner := some { ip := 1, port := 1 }, at_ := 0 }; (h.session 3).at_ + 10000 * t1ms ≤ 10000 * t1ms)) ∧
    ((ethOf [(ETH_IP_ADDR, 0, 5)] {}).get ETH_IP_ADDR 0 = 5 ∧ 5 ≠ 0 ∧ tget (ethOf [] {}).line.arp 0 [] = [] ∧ (ethOf [(ETH_IP_ADDR, 0, 5)] {}).get ETH_IP_ADDR 0 ≠ 6) ∧
    ((ethOf [(ETH_PTP_EN, 0, 1)] {}).flag ETH_PTP_EN 0 = true ∧ (ethOf [(ETH_PTP_EN, 0, 0)] {}).flag ETH_PTP_EN 0 = false) := by
  and_intros <;> decide

theorem witness_HostCommandsToAUnitChangeOnlyThatUnit :
    State.reset.hears .spi ∧ State.reset.hw.reaches 271 = true ∧ State.reset.hw.passGuard 271 = State.reset.hw ∧ State.reset.sound ∧ State.reset.quiet ∧ State.reset.hw.runs 271 = true ∧
    unitCommand .spi 271 (.loopClose .spi 271 1 3) = true ∧ exec (.loopClose .spi 271 1 3) State.reset = .next (after (.loopClose .spi 271 1 3) State.reset) ∧
    (∀ g, g ∈ unitCommandFields → U_STATE_LOOP.key 271 0 ≠ g.key 271 0) := by
  and_intros <;> first | decide | rfl

theorem witness_MemoryFramesOfStoresAndOfTheRest :
    (State.reset.sound ∧ storesNothing .spiCsRise = true ∧ exec .spiCsRise State.reset = .next (after .spiCsRise State.reset)) ∧
    (State.reset.hears .spi ∧ State.reset.quiet ∧ State.reset.sound ∧ State.reset.hw.place 0x10007FFFC 4 = .mem ∧ (∀ e, e < 64 → State.reset.hw.ringHit e 0x10007FFFC 4 = false) ∧
      ddrChan 0x10007FFFC = none ∧
      exec (.registerWrite .spi none 0x10007FFFC 4 5) State.reset = .next (after (.registerWrite .spi none 0x10007FFFC 4 5) State.reset)) ∧
    (let h := ddrOf {}; let r : Res := .twill (h.twDie .spi) 0
     (stOf h).hears .spi ∧ (stOf h).quiet ∧ h.place 0x1000000000 4 = .mem ∧ ddrChan 0x1000000000 = some 0 ∧ (h.twAsk r (twHost .spi) 6).holds r (twHost .spi) = true) ∧
    ((0x10007FFFB < 0x10007FFFC ∨ 0x10007FFFC + 4 ≤ 0x10007FFFB) ∧ (0x100080000 < 0x10007FFFC ∨ 0x10007FFFC + 4 ≤ 0x100080000)) := by
  and_intros <;> first | decide | rfl

/-- Unit 0 with a slewed reference and a target. -/
def slew0 (r t : Nat) (l : List (Fld × Nat × Nat)) (f : UnitS → UnitS) : Hw := (hwOf ([(U_REF_SLEWED_CODE, 0, r), (U_REF_TARGET_CODE, 0, t)] ++ l)).modU 0 f

theorem witness_SlewedReferenceMovesTowardTheTarget :
    (let h := slew0 0x80000000 0x7FFFFFFF [] (fun x => x); 0 < h.code U_REF_TARGET_CODE 0 - h.code U_REF_SLEWED_CODE 0 ∧ h.code U_REF_SLEWED_CODE 0 ≤ h.code U_REF_TARGET_CODE 0) ∧
    (let h := slew0 0x7FFFFFFF 0x80000000 [] (fun x => x); h.code U_REF_TARGET_CODE 0 - h.code U_REF_SLEWED_CODE 0 < 0 ∧ h.code U_REF_TARGET_CODE 0 ≤ h.code U_REF_SLEWED_CODE 0) ∧
    (let h := slew0 5 5 [] (fun x => x); h.code U_REF_TARGET_CODE 0 = h.code U_REF_SLEWED_CODE 0) ∧
    (let h := slew0 0 0 [] (fun x => { x with safe := { x.safe with ramp := true } }); (h.unit 0).safe.ramp = true) ∧
    (let h := slew0 0 0 [] (fun x => { x with ref := { x.ref with ovr := some 9 } }); (h.unit 0).safe.ramp = false ∧ (h.unit 0).ref.ovr = some 9) ∧
    (let h := slew0 0 0 [] (fun x => x); (h.unit 0).safe.ramp = false ∧ (h.unit 0).ref.ovr = none) ∧
    (let h := slew0 0 0 [(U_SLEW_RISE_RATE, 0, 0), (U_SLEW_FALL_RATE, 0, 0)] (fun x => x); h.rates 0 = (0, 0)) ∧
    (let h := slew0 0 0 [(U_SLEW_RISE_RATE, 0, 0xFFFFFFFF), (U_SLEW_FALL_RATE, 0, 0xFFFFFFFF), (U_SLEW_CAP_RATE, 0, 0xFFFFFFFF)] (fun x => x); h.rates 0 = (0xFFFFFFFF, 0xFFFFFFFF)) := by
  decide

theorem witness_RoundingIsHalfAwayFromZero :
    0 < 2 ∧ 2 * (((2 : Nat) : Int) * rdiv (-3) 2 - (-3)).natAbs = 2 ∧ 2 * (((1 : Nat) : Int) * rdiv 3 1 - 3).natAbs ≠ 1 := by decide

/-! ### The effect of some commands -/

theorem test_word_reads_back_as_written : ((after (.registerWrite .spi none 0x100000000 4 0x12345678) State.reset).hw.byte 0x100000001) = 0x56#8 := by decide
theorem test_reference_is_pushed_as_signed : (((after (.refPush .spi 0 0xFFFFFFFF) State.reset).hw.unit 0).ref.q.map (fun x => x.value)) = [-1] := by decide
theorem test_reference_that_finds_the_queue_full_is_counted : ((refs 32).refPush 0 1).get U_REF_DROP_COUNT 0 = 1 := by decide
theorem test_source_lost_holds_over : (after .metroSourceLost State.reset).hw.flag STN_METRO_STAT_HOLDOVER 0 = true := by decide
theorem test_reset_release_keeps_the_flash :
    (after (.powerOnResetRelease false false 0 0) (stOf { hwOf [] with cold := true, mem := [(5, 7), (2 ^ 40, 9)] })).hw.mem = [(2 ^ 40, 9)] := by decide
theorem test_event_with_a_lead_of_16_ticks_waits : (after (.eventSchedule 63 16 0) State.reset).hw.evs = [(63, 16)] := by decide
theorem test_dwell_word_of_the_table : decodeIns 0x1800000000000005 = (0, .dwell 5) := by decide
theorem test_close_word_of_the_table : decodeIns 0x200000000000000F = (0, .closeB 15) := by decide
theorem test_opcode_out_of_the_table : decodeIns 0x5C00000000000000 = (1, .halt) := by decide
theorem test_reserved_bit_of_a_word : decodeIns 0x0000000000000001 = (2, .halt) := by decide
theorem test_disagreeing_contacts_are_shown :
    (after (.ilkDiscrepancy (100 * t1ms) true) (stOf (panelOf []))).hw.flag STN_PANEL_DISC 0 = true := by decide
/-- FIPS 180-4's example of one block, the bytes of "abc": cb00753f 45a35e8b … a7. -/
theorem test_sha384_of_abc :
    sha384 [0x61, 0x62, 0x63] % 2 ^ 64 = 0x8b5ea3453f7500cb ∧ sha384 [0x61, 0x62, 0x63] / 2 ^ 376 = 0xa7 := by decide +kernel
/-- The check values of CRC-32C and of CRC-16 with the rule's polynomial and initial value, over the ASCII digits 1 to 9. -/
theorem test_crcs_of_the_digits :
    crc32c [0x31, 0x32, 0x33, 0x34, 0x35, 0x36, 0x37, 0x38, 0x39] = 0xE3069283 ∧ crc16 [0x31, 0x32, 0x33, 0x34, 0x35, 0x36, 0x37, 0x38, 0x39] = 0x29B1 := by
  decide +kernel
theorem test_half_a_modulator_code_rounds_away_from_zero : (hwOf []).dacOf 0 0x80 = 1 ∧ (hwOf []).dacOf 0 (-0x80) = -1 ∧ (hwOf []).dacOf 0 0x7F = 0 := by decide
theorem test_modulator_input_saturates_and_follows_polarity :
    (hwOf []).dacOf 0 0x7FFFFFFF = 0x7FFFFF ∧ (hwOf [(U_MODE_POL, 0, 1)]).dacOf 0 0x7FFFFFFF = -0x7FFFFF := by decide
theorem test_sinc3_of_ratio_2 : sincH 3 2 = [1, 3, 3, 1] ∧ filterSum (sincH 2 2) [15, -1, 3] = 16 := by decide
theorem test_post_fir_gain : (filterH 1 8 true).foldl (· + ·) 0 = ({ d := 8, n := 1, fir := true } : MdecS).dcGain := by decide
theorem test_idle_step_counts : (match step State.reset with | .next t => t.hw.now | _ => 0) = 1 := by decide

end Sys2Proof.Tests
end

section
/-! What a command stores and what a register write does, byte by byte and bit by bit (R8, R10, R11). -/

namespace Sys2Proof.Machine

/-! ### Bytes that a command writes (R8) -/

/-- The bytes of a command, entered in canonical memory: each address reads its newest byte, every other one as before. -/
theorem memRead_memApply (m w : List Host.Cell) (a : Nat) (hm : memWf m = true) :
    memRead (memApply m w) a = (wrqFind w a).getD (memRead m a) := by
  induction w with
  | nil => rfl
  | cons p r ih =>
    obtain ⟨c, b⟩ := p
    have newest : memRead (memApply m ((c, b) :: r)) a = if a = c then b else memRead (memApply m r) a :=
      memRead_memWrite (memApply m r) c b a (memApply_wf m r hm)
    rw [newest, ih]
    by_cases hc : a = c <;> simp [wrqFind, hc]

/-- A store changes nothing but the bytes that wait to enter memory. -/
theorem Hw.wrLE_eq (h : Hw) (a v n : Nat) : h.wrLE a v n = { h with wrq := (h.wrLE a v n).wrq } := by
  induction n generalizing h a v with
  | zero => rfl
  | succ n ih => exact ih (h.wrByte a (v % 256)) (a + 1) (v / 256)

theorem Hw.byte_wrLE_outside (h : Hw) (a v n j : Nat) (hj : j < a ∨ a + n ≤ j) : (h.wrLE a v n).byte j = h.byte j := by
  induction n generalizing h a v with
  | zero => rfl
  | succ n ih =>
    have rest := ih (h.wrByte a (v % 256)) (a + 1) (v / 256) (by omega)
    exact rest.trans (Hw.byte_wrByte_ne h a (v % 256) j (by omega))

theorem Hw.byte_wrLE_inside (h : Hw) (a v n i : Nat) (hi : i < n) :
    (h.wrLE a v n).byte (a + i) = BitVec.ofNat 8 (v / 256 ^ i) := by
  induction n generalizing h a v i with
  | zero => omega
  | succ n ih =>
    cases i with
    | zero =>
      have first := Hw.byte_wrLE_outside (h.wrByte a (v % 256)) (a + 1) (v / 256) n a (by omega)
      refine first.trans ((Hw.byte_wrByte_self h a (v % 256)).trans ?_)
      apply BitVec.eq_of_toNat_eq
      simp
    | succ i =>
      have rest := ih (h.wrByte a (v % 256)) (a + 1) (v / 256) i (by omega)
      rw [Nat.div_div_eq_div_mul, ← Nat.pow_succ', Nat.add_right_comm, Nat.add_assoc] at rest
      exact rest

/-- A little-endian read of bytes that hold a number's. -/
theorem Hw.rdLE_of_bytes (h : Hw) (a v n : Nat) (hb : ∀ i, i < n → h.byte (a + i) = BitVec.ofNat 8 (v / 256 ^ i)) :
    h.rdLE a n = v % 256 ^ n := by
  induction n generalizing a v with
  | zero => simp [Hw.rdLE, Nat.mod_one]
  | succ n ih =>
    have first : (h.byte a).toNat = v % 256 := by simpa using congrArg BitVec.toNat (hb 0 (by omega))
    have rest : h.rdLE (a + 1) n = v / 256 % 256 ^ n := by
      refine ih (a + 1) (v / 256) fun i hi => ?_
      rw [Nat.div_div_eq_div_mul, ← Nat.pow_succ', Nat.add_right_comm, Nat.add_assoc]
      exact hb (i + 1) (by omega)
    rw [Hw.rdLE, first, rest, Nat.pow_succ', Nat.mod_mul]

/-- Between commands a byte reads as the last command left it. -/
theorem State.commit_byte (s : State) (h : Hw) (a : Nat) (hs : s.sound) :
    (s.commit h).hw.byte a = (wrqFind h.wrq a).getD (s.hw.byte a) := by
  obtain ⟨hm, hw, _⟩ := hs
  simp [Hw.byte, memRead_memApply s.hw.mem h.wrq a hm, hw, wrqFind]

/-- Settles O9: the bytes of a store by induction on its width, the load from the bytes, and the commit from canonical memory. -/
theorem memoryReadsBackWhatIsStored : Obligations.MemoryReadsBackWhatIsStored := by
  refine ⟨fun h a v n => ⟨?bytes, ?others, ?regs, ?mem⟩, fun h a v n => ?load, fun s h a hs => ⟨?commit, ?canonical⟩⟩
  case bytes => exact fun i hi => h.byte_wrLE_inside a v n i hi
  case others => exact fun j hj => h.byte_wrLE_outside a v n j hj
  case regs => rw [h.wrLE_eq a v n]
  case mem => rw [h.wrLE_eq a v n]
  case load => exact (h.wrLE a v n).rdLE_of_bytes a v n fun i hi => h.byte_wrLE_inside a v n i hi
  case commit => exact s.commit_byte h a hs
  case canonical => exact memApply_wf s.hw.mem h.wrq hs.1

/-! ### Fields and bits (R8, R10, R11) -/

/-- Settles O10, by what a table reads after a key is set: fields of different places have different keys. -/
theorem fieldsHoldWhatIsSet : Obligations.FieldsHoldWhatIsSet := by
  intro h f g i j v k l
  exact ⟨h.get_put_self f i v k, h.get_put_ne f i v k g j l, rfl, rfl, rfl⟩

theorem bit_eq_testBit (n i : Nat) : bit n i = n.testBit i := by
  rw [Nat.testBit_eq_decide_div_mod_eq, bit]
  by_cases hb : n / 2 ^ i % 2 = 1 <;> simp only [hb, beq_self_eq_true, decide_true, decide_false, beq_eq_false_iff_ne, ne_eq, not_false_eq_true]

/-- A number laid out as a high part, `n` bits and `f` low bits. -/
theorem testBit_parts (f n high mid low k : Nat) (hm : mid < 2 ^ n) (hl : low < 2 ^ f) :
    (2 ^ (f + n) * high + (2 ^ f * mid + low)).testBit k =
      if k < f then low.testBit k else if k < f + n then mid.testBit (k - f) else high.testBit (k - (f + n)) := by
  have inner : 2 ^ f * mid + low < 2 ^ (f + n) := by
    have top : 2 ^ f * (mid + 1) ≤ 2 ^ f * 2 ^ n := Nat.mul_le_mul_left (2 ^ f) hm
    rw [Nat.mul_add, Nat.mul_one] at top
    rw [Nat.pow_add]
    omega
  rw [Nat.testBit_two_pow_mul_add _ inner, Nat.testBit_two_pow_mul_add _ hl]
  by_cases h1 : k < f
  · have h2 : k < f + n := by omega
    simp [h1, h2]
  · by_cases h2 : k < f + n <;> simp [h1, h2]

/-- The parts of a number. -/
theorem parts_of (o f n : Nat) : o = 2 ^ (f + n) * (o / 2 ^ (f + n)) + (2 ^ f * (o / 2 ^ f % 2 ^ n) + o % 2 ^ f) := by
  rw [Nat.add_comm (2 ^ f * _), ← Nat.mod_mul, ← Nat.pow_add, Nat.div_add_mod]

/-- `n` bits of a number, from bit `f` on, replaced. -/
theorem testBit_replace (o f n p k : Nat) (hp : p < 2 ^ n) :
    (o - o / 2 ^ f % 2 ^ n * 2 ^ f + p * 2 ^ f).testBit k = if f ≤ k ∧ k < f + n then p.testBit (k - f) else o.testBit k := by
  have layout : o - o / 2 ^ f % 2 ^ n * 2 ^ f + p * 2 ^ f = 2 ^ (f + n) * (o / 2 ^ (f + n)) + (2 ^ f * p + o % 2 ^ f) := by
    have h := parts_of o f n
    rw [Nat.mul_comm _ (2 ^ f), Nat.mul_comm p]
    omega
  rw [layout, testBit_parts f n _ p _ k hp (Nat.mod_lt _ (Nat.two_pow_pos f)), Nat.testBit_mod_two_pow, Nat.testBit_div_two_pow]
  by_cases h1 : k < f
  · have h2 : ¬ f ≤ k := by omega
    simp [h1, h2]
  · by_cases h2 : k < f + n
    · simp [h1, h2, Nat.le_of_not_lt h1]
    · have h3 : k - (f + n) + (f + n) = k := by omega
      simp [h1, h2, h3]

/-- A merge of a written word's bits into a field (R8, R10). -/
theorem Hit.bit_merge (x : Hit) (old val k : Nat) :
    bit (x.merge old val) k = if x.from_ ≤ k ∧ k < x.from_ + x.n then bit val (x.at_ + (k - x.from_)) else bit old k := by
  simp only [bit_eq_testBit, Hit.merge, Hit.part]
  rw [testBit_replace old x.from_ x.n _ k (Nat.mod_lt _ (Nat.two_pow_pos x.n))]
  split
  next hk =>
    have hn : k - x.from_ < x.n := by omega
    simp [Nat.testBit_mod_two_pow, Nat.testBit_div_two_pow, hn, Nat.add_comm]
  next => rfl

theorem bit_clrBit (o j k : Nat) : bit (clrBit o j) k = (bit o k && decide (k ≠ j)) := by
  have cut : clrBit o j = o - o / 2 ^ j % 2 ^ 1 * 2 ^ j + 0 * 2 ^ j := by
    rcases Nat.mod_two_eq_zero_or_one (o / 2 ^ j) with h | h <;> simp [clrBit, bit, h]
  rw [cut, bit_eq_testBit, bit_eq_testBit, testBit_replace o j 1 0 k (by decide)]
  by_cases hk : k = j
  · simp [hk]
  · have hne : ¬ (j ≤ k ∧ k < j + 1) := by omega
    simp only [hne, if_false, hk, ne_eq, not_false_eq_true, decide_true, Bool.and_true]

/-- A clear of the bits written as 1 in a field (R11). -/
theorem Hit.bit_clear (x : Hit) (old val k : Nat) :
    bit (x.clear old val) k =
      (bit old k && !(decide (x.from_ ≤ k) && decide (k < x.from_ + x.n) && bit val (x.at_ + (k - x.from_)))) := by
  obtain ⟨f, i, at_, lo, n⟩ := x
  simp only [Hit.clear]
  induction n with
  | zero =>
    have hk : ¬ (lo ≤ k ∧ k < lo) := by omega
    by_cases h : lo ≤ k <;> simp_all
  | succ n ih =>
    rw [List.range_succ, List.foldl_append, List.foldl_cons, List.foldl_nil]
    by_cases hk : k = lo + n
    · subst hk
      cases hv : bit val (at_ + n) <;> simp [hv, bit_clrBit, ih]
    · have hlt : k < lo + (n + 1) ↔ k < lo + n := by omega
      cases hv : bit val (at_ + n) <;> simp [bit_clrBit, ih, hk, hlt]

/-- Settles O11, bit by bit: a clear by induction on the bits of the hit, a merge by the parts of the field below, in and above it. -/
theorem registerWritesActBitByBit : Obligations.RegisterWritesActBitByBit :=
  ⟨fun x old val k => x.bit_clear old val k, fun x old val k => x.bit_merge old val k⟩

end Sys2Proof.Machine
end

section
/-! Every command answers a next state, and a sound one of a sound one (R8, R9). -/

namespace Sys2Proof.Machine

/-! ### Operations that store nothing (R8, R9) -/

/-- `g` differs from `h` in no byte, stored or waiting, no finding of error correction, no queue beside its registers, nothing that NVM holds
and no engine's program counter. -/
structure Hw.Keeps (h g : Hw) : Prop where
  mem : g.mem = h.mem
  wrq : g.wrq = h.wrq
  ecc : g.ecc = h.ecc
  ques : g.ques = h.ques
  nv : g.nv = h.nv
  pc : ∀ e, g.get TT_PC_ADDR e = h.get TT_PC_ADDR e

namespace Hw.Keeps

variable {h g : Hw}

theorem refl (h : Hw) : Keeps h h := ⟨rfl, rfl, rfl, rfl, rfl, fun _ => rfl⟩

theorem trans {k : Hw} (a : Keeps h g) (b : Keeps g k) : Keeps h k :=
  ⟨b.mem.trans a.mem, b.wrq.trans a.wrq, b.ecc.trans a.ecc, b.ques.trans a.ques, b.nv.trans a.nv, fun e => (b.pc e).trans (a.pc e)⟩

/-- No field of a block other than an engine's is a program counter. -/
theorem put (k : Keeps h g) {f : Fld} {i v n : Nat} (hf : f.blk ≠ .eng := by decide) : Keeps h (g.put f i v n) := by
  refine k.trans ⟨rfl, rfl, rfl, rfl, rfl, fun e => Hw.get_put_ne _ _ _ _ _ _ _ _ fun same => hf ?_⟩
  exact (congrArg RegKey.blk same).symm

theorem putB (k : Keeps h g) {f : Fld} {i n : Nat} {b : Bool} (hf : f.blk ≠ .eng := by decide) : Keeps h (g.putB f i b n) := k.put hf

theorem putC (k : Keeps h g) {f : Fld} {i n : Nat} {x : Int} (hf : f.blk ≠ .eng := by decide) : Keeps h (g.putC f i x n) := k.put hf

theorem inc (k : Keeps h g) {f : Fld} {i n : Nat} (hf : f.blk ≠ .eng := by decide) : Keeps h (g.inc f i n) := k.put hf

theorem incSat (k : Keeps h g) {f : Fld} {i n : Nat} (hf : f.blk ≠ .eng := by decide) : Keeps h (g.incSat f i n) := k.put hf

theorem modU (k : Keeps h g) {u : Nat} {f : UnitS → UnitS} : Keeps h (g.modU u f) := k.trans ⟨rfl, rfl, rfl, rfl, rfl, fun _ => rfl⟩

theorem modE (k : Keeps h g) {e : Nat} {f : EngS → EngS} : Keeps h (g.modE e f) := k.trans ⟨rfl, rfl, rfl, rfl, rfl, fun _ => rfl⟩

theorem modD (k : Keeps h g) {d : Nat} {f : DieS → DieS} : Keeps h (g.modD d f) := k.trans ⟨rfl, rfl, rfl, rfl, rfl, fun _ => rfl⟩

theorem modC (k : Keeps h g) {c : Nat} {f : CapS → CapS} : Keeps h (g.modC c f) := k.trans ⟨rfl, rfl, rfl, rfl, rfl, fun _ => rfl⟩

/-- A change of anything else. -/
theorem other (k : Keeps h g) {x : Hw} (hregs : x.regs = g.regs := by rfl) (hmem : x.mem = g.mem := by rfl) (hwrq : x.wrq = g.wrq := by rfl)
    (hecc : x.ecc = g.ecc := by rfl) (hques : x.ques = g.ques := by rfl) (hnv : x.nv = g.nv := by rfl) : Keeps h x :=
  k.trans ⟨hmem, hwrq, hecc, hques, hnv, fun _ => by simp only [Hw.get, hregs]⟩

theorem each {α : Type} (k : Keeps h g) {l : List α} {f : Hw → α → Hw} (hf : ∀ x a, Keeps h x → Keeps h (f x a)) : Keeps h (g.each l f) := by
  induction l generalizing g with
  | nil => exact k
  | cons a l ih => exact ih (hf g a k)

theorem ite {k : Hw} {c : Prop} [Decidable c] (a : Keeps h g) (b : Keeps h k) : Keeps h (if c then g else k) := by
  split
  · exact a
  · exact b

/-! The station's state and the head dies' lines (R69, R320). -/

theorem setStn (k : Keeps h g) {n : Nat} : Keeps h (g.setStn n) := by
  unfold Hw.setStn
  exact k.ite k.put.put

theorem lines (k : Keeps h g) : Keeps h g.lines := by
  unfold Hw.lines
  refine Keeps.ite (Keeps.setStn ?_) ?_ <;> exact k.putB.each fun _ _ kx => kx.putB.putB

theorem abortLine (k : Keeps h g) {b : Bool} : Keeps h (g.abortLine b) := (k.each fun _ _ kx => kx.modD).lines

/-! Tokens and audit entries (R35, R382). -/

theorem auxWait (k : Keeps h g) {r : Res} {l : List Req} : Keeps h (g.auxWait r l) := by
  cases r with
  | aux d => exact k.put
  | _ => exact k

theorem setArb (k : Keeps h g) {r : Res} {a : ArbS} : Keeps h (g.setArb r a) := by
  unfold Hw.setArb
  split
  · exact k.modD.auxWait.modD
  · exact k.modD.auxWait

theorem tokReq_nvm (k : Keeps h g) {d : Nat} {q : Req} : Keeps h (g.tokReq (.nvm d) q) := by
  unfold Hw.tokReq
  exact k.setArb

theorem audAsk (k : Keeps h g) : Keeps h g.audAsk := by
  unfold Hw.audAsk
  exact k.ite k.tokReq_nvm

theorem audShow (k : Keeps h g) : Keeps h g.audShow := by
  unfold Hw.audShow
  exact k.put.put.put.put

theorem audit (k : Keeps h g) {kind die arg : Nat} {ext : List Nat} : Keeps h (g.audit kind die arg ext) := by
  unfold Hw.audit
  exact ((k.inc (f := STN_AUD_LOST_COUNT)).other).ite k.other.audAsk.audShow

/-! Start-up (R356, R380). -/

theorem keyShown (k : Keeps h g) : Keeps h g.keyShown := (k.put.putB.putB).each fun _ _ kx => kx.put

theorem hold (k : Keeps h g) {cause : Nat} : Keeps h (g.hold cause) := k.other.put.put.setStn.audit

end Hw.Keeps

/-! ### Every command, whatever it does (R9) -/

/-- The hardware as the release of power-on reset finds it: what NVM and flash hold, and the registers that OTP gives. -/
def Hw.afterLoss (h : Hw) : Hw :=
  { free := h.burnCut.free, regs := h.burnCut.regs.filter (fun p => otpKeeps p.1),
    mem := h.burnCut.mem.filter (fun p => decide (2 ^ 40 ≤ p.1)), nv := h.burnCut.nv }

theorem Hw.burnCut_mem (h : Hw) : h.burnCut.mem = h.mem := by
  unfold Hw.burnCut
  split
  · split <;> rfl
  · rfl

/-- The release of reset shows straps, keys and step 2, and stores nothing (R356, R357, R421). -/
theorem Hw.powerUp_keeps (h : Hw) (b n : Bool) (f g : Nat) : h.afterLoss.Keeps (h.powerUp b n f g) := by
  refine Hw.Keeps.ite (Hw.Keeps.hold ?_) ?_ <;>
    exact (((Hw.Keeps.refl h.afterLoss).putB.putB.putB.each fun _ _ k => k.put.put.put).each fun _ _ k => k.put).keyShown.put

/-- A command's meaning is an operation on the hardware, but for the release of power-on reset. -/
theorem exec_run (c : Instr) (s : State) (hc : ∀ b n f g, c ≠ .powerOnResetRelease b n f g) : ∃ f, exec c s = s.run f := by
  cases c
  case powerOnResetRelease b n f g => exact absurd rfl (hc b n f g)
  all_goals
    clear hc
    dsimp only [exec]
    exact ⟨_, rfl⟩

theorem exec_powerOnResetRelease (b n : Bool) (f g : Nat) (s : State) :
    exec (.powerOnResetRelease b n f g) s = .next (if s.hw.cold then { s with hw := s.hw.powerUp b n f g } else s) := rfl

/-- Every command answers a next state whose queue stands, and a sound state with a sound one. -/
theorem exec_next (c : Instr) (s : State) : ∃ t, exec c s = .next t ∧ t.pending = s.pending ∧ (s.sound → t.sound) := by
  by_cases hc : ∃ b n f g, c = .powerOnResetRelease b n f g
  · obtain ⟨b, n, f, g, rfl⟩ := hc
    refine ⟨_, exec_powerOnResetRelease b n f g s, ?_⟩
    split
    · obtain ⟨hm, hw, he, -, -, -⟩ := s.hw.powerUp_keeps b n f g
      refine ⟨rfl, fun hs => ⟨?_, hw, he⟩⟩
      rw [hm]
      exact memFilter_wf _ _ (s.hw.burnCut_mem ▸ hs.1)
    · exact ⟨rfl, id⟩
  · obtain ⟨f, hf⟩ := exec_run c s fun b n f g e => hc ⟨b, n, f, g, e⟩
    obtain ⟨t, ht, hp, hcase⟩ := State.run_cases s f
    refine ⟨t, hf.trans ht, hp, fun hs => ?_⟩
    obtain rfl | ⟨hm, hw, he⟩ := hcase
    · exact hs
    · exact ⟨hm ▸ memApply_wf _ _ hs.1, hw, he⟩

/-- Settles O3, by the form that every command's meaning has. -/
theorem everyCommandAnswersANextState : Obligations.EveryCommandAnswersANextState := by
  intro c s
  obtain ⟨t, ht, hp, -⟩ := exec_next c s
  exact ⟨t, ht, hp⟩

/-- A metronome tick without a command keeps a state sound. -/
theorem State.idle_sound (s : State) (hs : s.sound) : s.idle.sound := by
  unfold State.idle
  split <;> exact hs

/-- Settles O4, by the step's two cases: a tick without a command, and a command, which commits its bytes to canonical memory. -/
theorem everyStepKeepsSound : Obligations.EveryStepKeepsSound := by
  intro s t hs ht
  cases hp : s.pending with
  | nil =>
    rw [step_nil s hp] at ht
    cases ht
    exact s.idle_sound hs
  | cons c r =>
    rw [step_cons s c r hp] at ht
    obtain ⟨t', ht', -, hsound⟩ := exec_next c { s with pending := r }
    cases ht'.symm.trans ht
    exact hsound hs

end Sys2Proof.Machine
end

section
/-! The commands of pins, clock and timers that store nothing keep what is stored. -/

namespace Sys2Proof.Machine

/-! ### Commands of pins, clock and timers store nothing -/

namespace Hw.Keeps

variable {h g : Hw}

theorem takeSrc (k : Keeps h g) {n : Nat} {auto : Bool} : Keeps h (g.takeSrc n auto) := by
  unfold Hw.takeSrc
  refine Keeps.ite (Keeps.put ?_) ?_ <;> exact k.put.put.put.incSat.ite k.put.put.put

theorem srcLost (k : Keeps h g) : Keeps h g.srcLost := by
  unfold Hw.srcLost
  exact (Keeps.ite k.other.put k.other).put.put.put

theorem srcSwitch (k : Keeps h g) : Keeps h g.srcSwitch := by
  unfold Hw.srcSwitch
  refine Keeps.ite ?_ k
  split
  · exact k.ite k.takeSrc
  · exact k

theorem srcReturn (k : Keeps h g) : Keeps h g.srcReturn := by
  unfold Hw.srcReturn
  exact ((Keeps.ite k.other.put k.other).takeSrc).ite k

theorem refClass (k : Keeps h g) {c : Nat} : Keeps h (g.refClass c) := by
  unfold Hw.refClass
  exact (k.other.put.put).ite (k.put.srcLost.ite k.put)

theorem otShow (k : Keeps h g) {m : Nat} : Keeps h (g.otShow m) := by
  unfold Hw.otShow
  exact k.putB.put.ite k.putB

theorem drvOtTrip (k : Keeps h g) {u : Nat} : Keeps h (g.drvOtTrip u) := by
  unfold Hw.drvOtTrip
  exact k.ite k.modU.otShow.otShow.modU

theorem drvOtRelease (k : Keeps h g) {u : Nat} : Keeps h (g.drvOtRelease u) := by
  unfold Hw.drvOtRelease
  exact k.modU.otShow.otShow.ite k

theorem capDone (k : Keeps h g) {c : Nat} : Keeps h (g.capDone c) := by
  unfold Hw.capDone
  exact k.put.ite k

theorem trigOut (k : Keeps h g) {ev t : Nat} : Keeps h (g.trigOut ev t) := by
  unfold Hw.trigOut Hw.setTrig
  refine k.each fun x p kx => Keeps.ite ?_ kx
  exact (kx.put (f := STN_TRIG_STAT_LEVEL)).other

theorem evAct (k : Keeps h g) {ev due : Nat} : Keeps h (g.evAct ev due) := by
  unfold Hw.evAct
  refine k.ite (k.other.ite ?_)
  exact ((Keeps.ite k.other.put.trigOut k.other.put).each fun _ _ kx => kx.modC.ite kx).each fun _ _ kx => kx.modE.ite kx

theorem trigPulseEnd (k : Keeps h g) {p t : Nat} : Keeps h (g.trigPulseEnd p t) := by
  unfold Hw.trigPulseEnd
  split
  · exact k
  · exact k.other.put.ite k

theorem ilkDiscrepancy (k : Keeps h g) {t : Nat} {i : Bool} : Keeps h (g.ilkDiscrepancy t i) := by
  unfold Hw.ilkDiscrepancy
  exact k.ite k.other.putB.putB.put

theorem keyRelease (k : Keeps h g) {p t : Nat} : Keeps h (g.keyRelease p t) := by
  unfold Hw.keyRelease Hw.keyShow
  exact k.ite (k.other.putB.ite k.other.put)

theorem abortRelease (k : Keeps h g) {t : Nat} : Keeps h (g.abortRelease t) := by
  unfold Hw.abortRelease
  exact k.ite k.other.put.abortLine

theorem fixPresent (k : Keeps h g) {p t : Nat} : Keeps h (g.fixPresent p t) := by
  unfold Hw.fixPresent
  exact k.ite k.other.put

theorem ethIdle (k : Keeps h g) {p n t : Nat} : Keeps h (g.ethIdle p n t) := by
  unfold Hw.ethIdle
  exact k.other.ite k

theorem oscApply (k : Keeps h g) {t : Nat} : Keeps h (g.oscApply t) := by
  simp only [Hw.oscApply]
  split
  · exact k
  · exact k.other.putC.modD.ite k

end Hw.Keeps

/-- A command that stores nothing is an operation on the hardware that keeps what is stored. -/
theorem exec_keeps (c : Instr) (s : State) (hc : storesNothing c = true) : ∃ f, exec c s = s.run f ∧ ∀ h : Hw, h.Keeps (f h) := by
  cases c
  case metroSourceLost => exact ⟨fun h => h.srcLost, rfl, fun h => (Hw.Keeps.refl h).srcLost⟩
  case metroSourceSwitch => exact ⟨fun h => h.srcSwitch, rfl, fun h => (Hw.Keeps.refl h).srcSwitch⟩
  case metroSourceReturn => exact ⟨fun h => h.srcReturn, rfl, fun h => (Hw.Keeps.refl h).srcReturn⟩
  case refclkClassify cls => exact ⟨fun h => h.refClass cls, rfl, fun h => (Hw.Keeps.refl h).refClass⟩
  case drvOtTrip u => exact ⟨fun h => h.drvOtTrip u, rfl, fun h => (Hw.Keeps.refl h).drvOtTrip⟩
  case drvOtRelease u => exact ⟨fun h => h.drvOtRelease u, rfl, fun h => (Hw.Keeps.refl h).drvOtRelease⟩
  case captureDone n => exact ⟨fun h => h.capDone n, rfl, fun h => (Hw.Keeps.refl h).capDone⟩
  case eventAct ev due => exact ⟨fun h => h.evAct ev due, rfl, fun h => (Hw.Keeps.refl h).evAct⟩
  case trigPulseEnd k t => exact ⟨fun h => h.trigPulseEnd k t, rfl, fun h => (Hw.Keeps.refl h).trigPulseEnd⟩
  case ilkDiscrepancy t i => exact ⟨fun h => h.ilkDiscrepancy t i, rfl, fun h => (Hw.Keeps.refl h).ilkDiscrepancy⟩
  case keyRelease k t => exact ⟨fun h => h.keyRelease k t, rfl, fun h => (Hw.Keeps.refl h).keyRelease⟩
  case abortRelease t => exact ⟨fun h => h.abortRelease t, rfl, fun h => (Hw.Keeps.refl h).abortRelease⟩
  case fixPresent k t => exact ⟨fun h => h.fixPresent k t, rfl, fun h => (Hw.Keeps.refl h).fixPresent⟩
  case ethSessionIdle p n t => exact ⟨fun h => h.ethIdle p n t, rfl, fun h => (Hw.Keeps.refl h).ethIdle⟩
  case spiCsRise => exact ⟨fun h => h.spiEnd, rfl, fun h => (Hw.Keeps.refl h).other⟩
  case oscCompApply t => exact ⟨fun h => h.oscApply t, rfl, fun h => (Hw.Keeps.refl h).oscApply⟩
  all_goals exact absurd hc Bool.false_ne_true

/-- What a command that keeps what is stored leaves, its bytes entered in memory. -/
theorem State.commit_keeps {s : State} {g : Hw} (hs : s.sound) (k : s.hw.Keeps g) :
    (∀ a, (s.commit g).hw.byte a = s.hw.byte a) ∧ (s.commit g).hw.ques = s.hw.ques ∧ (s.commit g).hw.nv = s.hw.nv ∧
      ∀ e, (s.commit g).hw.get TT_PC_ADDR e = s.hw.get TT_PC_ADDR e := by
  refine ⟨fun a => ?_, k.ques, k.nv, k.pc⟩
  rw [s.commit_byte g a hs, k.wrq, hs.2.1]
  rfl

theorem storesNothing_frame {s t : State} {c : Instr} (hs : s.sound) (hc : storesNothing c = true) (ht : exec c s = .next t) :
    (∀ a, t.hw.byte a = s.hw.byte a) ∧ t.hw.ques = s.hw.ques ∧ t.hw.nv = s.hw.nv ∧ ∀ e, t.hw.get TT_PC_ADDR e = s.hw.get TT_PC_ADDR e := by
  obtain ⟨f, hf, hk⟩ := exec_keeps c s hc
  rw [State.run_next (hf.symm.trans ht)]
  split
  · exact ⟨fun _ => rfl, rfl, rfl, fun _ => rfl⟩
  · exact State.commit_keeps hs (hk s.hw)

end Sys2Proof.Machine
end

section
/-! Where a master's write goes, and what a store of a master leaves alone (R8, R9, R35, R58 to R61). -/

namespace Sys2Proof.Machine

/-! ### What the way to memory leaves alone (R18, R35) -/

/-- `g` has the registers, units, queues, engines and stored bytes of `h`, its waiting accesses and its fences: a change between the two is in
the arbiters, in what is told of an access, or in the bytes that the command in course writes. -/
structure Hw.SameRest (h g : Hw) : Prop where
  regs : g.regs = h.regs
  units : g.units = h.units
  ques : g.ques = h.ques
  engs : g.engs = h.engs
  mem : g.mem = h.mem
  jobs : g.jobs = h.jobs
  memQ : g.memQ = h.memQ
  remote : g.boot.remote = h.boot.remote
  fenced : ∀ d, (g.die d).fenced = (h.die d).fenced
  snapWait : ∀ d, (g.die d).snapWait = (h.die d).snapWait

namespace Hw.SameRest

variable {h g : Hw}

theorem refl (h : Hw) : SameRest h h := ⟨rfl, rfl, rfl, rfl, rfl, rfl, rfl, rfl, fun _ => rfl, fun _ => rfl⟩

theorem trans {k : Hw} (a : SameRest h g) (b : SameRest g k) : SameRest h k :=
  ⟨b.regs.trans a.regs, b.units.trans a.units, b.ques.trans a.ques, b.engs.trans a.engs, b.mem.trans a.mem, b.jobs.trans a.jobs,
    b.memQ.trans a.memQ, b.remote.trans a.remote, fun d => (b.fenced d).trans (a.fenced d), fun d => (b.snapWait d).trans (a.snapWait d)⟩

theorem get (k : SameRest h g) : @Hw.get g = @Hw.get h := by
  funext f i n
  simp only [Hw.get, k.regs]

theorem flag (k : SameRest h g) : @Hw.flag g = @Hw.flag h := by
  funext f i n
  simp only [Hw.flag, k.get]

theorem eng (k : SameRest h g) : g.eng = h.eng := by
  funext e
  simp only [Hw.eng, k.engs]

theorem dieUp (k : SameRest h g) : g.dieUp = h.dieUp := by
  funext d
  simp only [Hw.dieUp, k.get, k.fenced]

theorem place (k : SameRest h g) (a n : Nat) : g.place a n = h.place a n := by
  unfold Hw.place Hw.placeReg Hw.ddrCap
  rw [k.dieUp, k.get]

theorem ringHit (k : SameRest h g) (e a n : Nat) : g.ringHit e a n = h.ringHit e a n := by
  unfold Hw.ringHit Hw.ringMark Hw.ringSize
  rw [k.get, k.flag, k.eng]

theorem wrLE (h : Hw) (a v n : Nat) : SameRest h (h.wrLE a v n) := by
  rw [h.wrLE_eq a v n]
  exact ⟨rfl, rfl, rfl, rfl, rfl, rfl, rfl, rfl, fun _ => rfl, fun _ => rfl⟩

theorem answer (h : Hw) (m : Master) (st : Nat) (l : List Nat) : SameRest h (h.answer m st l) :=
  ⟨rfl, rfl, rfl, rfl, rfl, rfl, rfl, rfl, fun _ => rfl, fun _ => rfl⟩

theorem srcTouch (h : Hw) (a n : Nat) : SameRest h (h.srcTouch a n) := by
  unfold Hw.srcTouch
  split
  · exact ⟨rfl, rfl, rfl, rfl, rfl, rfl, rfl, rfl, fun _ => rfl, fun _ => rfl⟩
  · exact refl h

/-- A change of a die's arbiters. -/
theorem modD (h : Hw) (d : Nat) (f : DieS → DieS) (hf : ∀ x, (f x).fenced = x.fenced ∧ (f x).snapWait = x.snapWait) : SameRest h (h.modD d f) := by
  refine ⟨rfl, rfl, rfl, rfl, rfl, rfl, rfl, rfl, fun j => ?_, fun j => ?_⟩ <;>
  · by_cases hj : j = d
    · subst hj; simp [hf]
    · rw [h.modD_die_ne d f j hj]

theorem setArb_twill (h : Hw) (d c : Nat) (a : ArbS) : SameRest h (h.setArb (.twill d c) a) := by
  refine modD h d (fun x => x.setArb (.twill d c) a) fun x => ?_
  simp only [DieS.setArb]
  split <;> exact ⟨rfl, rfl⟩

theorem twAsk (h : Hw) (d c who rank : Nat) : SameRest h (h.twAsk (.twill d c) who rank) := by
  unfold Hw.twAsk
  split
  · exact refl h
  · exact setArb_twill h d c _

theorem tokRel (h : Hw) (d c who : Nat) : SameRest h (h.tokRel (.twill d c) who) := setArb_twill h d c _

end Hw.SameRest

theorem Hw.srcTouch_wrq (h : Hw) (a n : Nat) : (h.srcTouch a n).wrq = h.wrq := by
  unfold Hw.srcTouch
  split <;> rfl

theorem Hw.twAsk_wrq (h : Hw) (d c who rank : Nat) : (h.twAsk (.twill d c) who rank).wrq = h.wrq := by
  unfold Hw.twAsk
  split <;> rfl

/-- A touched source is shown in the start-up sequence alone. -/
theorem Hw.srcTouch_eq (h : Hw) (a n : Nat) : h.srcTouch a n = { h with boot := (h.srcTouch a n).boot } := by
  unfold Hw.srcTouch
  split <;> rfl

/-- The Twill path's arbiter knows nothing of the start-up sequence. -/
theorem Hw.twAsk_holds_boot (h : Hw) (b : BootS) (d c who rank : Nat) :
    (({ h with boot := b } : Hw).twAsk (.twill d c) who rank).holds (.twill d c) who = (h.twAsk (.twill d c) who rank).holds (.twill d c) who := by
  unfold Hw.twAsk
  rw [apply_ite (fun g : Hw => g.holds (.twill d c) who), apply_ite (fun g : Hw => g.holds (.twill d c) who)]
  rfl

theorem Hw.srcTouch_twAsk_holds (h : Hw) (a n d c who rank : Nat) :
    ((h.srcTouch a n).twAsk (.twill d c) who rank).holds (.twill d c) who = (h.twAsk (.twill d c) who rank).holds (.twill d c) who := by
  rw [h.srcTouch_eq a n, Hw.twAsk_holds_boot]

theorem Hw.srcTouch_twDie (h : Hw) (a n : Nat) (m : Master) : (h.srcTouch a n).twDie m = h.twDie m := by
  cases m with
  | spi => simp only [Hw.twDie, Hw.bootDie, (Hw.SameRest.srcTouch h a n).get]
  | _ => rfl

/-- A store outside the rings that an engine plays writes its bytes (R267). -/
theorem Hw.memStore_of_no_ring (h : Hw) (a n v : Nat) (hr : ∀ e, e < 64 → h.ringHit e a n = false) : h.memStore a n v = h.wrLE a v n := by
  have none : (List.range 64).filter (fun e => h.ringHit e a n) = [] := by
    simpa [List.filter_eq_nil_iff] using hr
  simp [Hw.memStore, Hw.ringGuard, none]

/-- Where nothing waits and start-up is not about to reach a step, nothing follows an access. -/
theorem State.quiet.settle {s : State} (hq : s.quiet) : s.hw.settle = s.hw := by
  obtain ⟨hj, hm, hw, hr, hb⟩ := hq
  have mem : s.hw.memNext = none := by simp [Hw.memNext, hm]
  have head : s.hw.headNext = none := by
    simp only [Hw.headNext, List.find?_eq_none, List.mem_range]
    intro d hd
    simp [hw d hd]
  have jobs : s.hw.resumeJobs 64 = s.hw := by simp only [Hw.resumeJobs, mem, head, hj]
  simp [Hw.settle, jobs, Hw.enterRun, hb, hr]

theorem State.quiet.congr {s : State} {g : Hw} (hq : s.quiet) (k : s.hw.SameRest g) : State.quiet { s with hw := g } := by
  obtain ⟨hj, hm, hw, hr, hb⟩ := hq
  exact ⟨k.jobs.trans hj, k.memQ.trans hm, fun d hd => (k.snapWait d).trans (hw d hd), k.remote.trans hr, by rw [k.get]; exact hb⟩

/-! ### Where a master's write goes (R9, R58 to R61) -/

theorem exec_registerWrite {s : State} (hs : s.on) (m : Master) (stn : Option Nat) (a n v : Nat) :
    exec (.registerWrite m stn a n v) s = s.to (s.hw.accessWrite m stn a n v) :=
  State.run_live s (fun h => h.accessWrite m stn a n v) hs

/-- A write within the station that has been made with STATUS `st`. -/
theorem exec_registerWrite_done {s : State} {m : Master} {stn : Option Nat} {a n v st : Nat} {g : Hw} (hs : s.hears m)
    (hown : s.hw.isOwn stn = true) (hw : s.hw.masterWrite m a n v = (some st, g)) :
    exec (.registerWrite m stn a n v) s = s.to ((g.answer m st []).settle) := by
  rw [exec_registerWrite hs.1, Hw.accessWrite, if_pos hown, Hw.writeCmd, if_pos hs.2, hw]

/-- A write within the station that waits. -/
theorem exec_registerWrite_waits {s : State} {m : Master} {stn : Option Nat} {a n v : Nat} {g : Hw} (hs : s.hears m)
    (hown : s.hw.isOwn stn = true) (hw : s.hw.masterWrite m a n v = (none, g)) : exec (.registerWrite m stn a n v) s = s.to g.settle := by
  rw [exec_registerWrite hs.1, Hw.accessWrite, if_pos hown, Hw.writeCmd, if_pos hs.2, hw]

section
variable {h : Hw} {m : Master} {a n v : Nat}

theorem Hw.masterWrite_reg {b : Blk} {i o : Nat} (hp : h.place a n = .reg b i o) : h.masterWrite m a n v = (some 0, h.regWrite m b i o v) := by
  simp only [Hw.masterWrite, hp]

theorem Hw.masterWrite_hole (hp : h.place a n = .hole) : h.masterWrite m a n v = (some 0, h) := by simp only [Hw.masterWrite, hp]

theorem Hw.masterWrite_bad (hp : h.place a n = .bad) : h.masterWrite m a n v = (some 1, h) := by simp only [Hw.masterWrite, hp]

/-- A write to memory outside DDR5. -/
theorem Hw.masterWrite_mem (hp : h.place a n = .mem) (hc : ddrChan a = none) :
    h.masterWrite m a n v = (some 0, (h.srcTouch a n).memStore a n v) := by
  have place := (SameRest.srcTouch h a n).place a n
  simp only [Hw.masterWrite, hp, Hw.memAccess, Hw.memTok, hc, Option.map_none, Hw.memDo, place, Option.map_some]

/-- A write to DDR5 under the Twill path's token. -/
theorem Hw.masterWrite_ddr {c : Nat} (hp : h.place a n = .mem) (hc : ddrChan a = some c)
    (ht : ((h.srcTouch a n).twAsk (.twill (h.twDie m) c) (twHost m) 6).holds (.twill (h.twDie m) c) (twHost m) = true) :
    h.masterWrite m a n v = (some 0,
      (((h.srcTouch a n).twAsk (.twill (h.twDie m) c) (twHost m) 6).memStore a n v).tokRel (.twill (h.twDie m) c) (twHost m)) := by
  have place := ((SameRest.srcTouch h a n).trans (.twAsk _ (h.twDie m) c (twHost m) 6)).place a n
  simp only [Hw.masterWrite, hp, Hw.memAccess, Hw.memTok, hc, Option.map_some, Hw.srcTouch_twDie, ht, if_true, Hw.memDo, place]

/-- A write to DDR5 that does not get the token. -/
theorem Hw.masterWrite_ddr_waits {c : Nat} (hp : h.place a n = .mem) (hc : ddrChan a = some c)
    (ht : ((h.srcTouch a n).twAsk (.twill (h.twDie m) c) (twHost m) 6).holds (.twill (h.twDie m) c) (twHost m) = false) :
    let g := (h.srcTouch a n).twAsk (.twill (h.twDie m) c) (twHost m) 6
    h.masterWrite m a n v = (none, { g with memQ := g.memQ ++ [{ m := m, addr := a, n := n, val := some v, ecc := g.ecc }] }) := by
  simp only [Hw.masterWrite, hp, Hw.memAccess, Hw.memTok, hc, Option.map_some, Hw.srcTouch_twDie, ht, Bool.false_eq_true, if_false, Option.map_none]

end

theorem exec_accessError {s : State} {m : Master} {a n : Nat} (hs : s.hears m) (hp : s.hw.place a n = .bad) :
    exec (.accessError m a n) s = s.to (s.hw.answer m 1 []) := by
  have run := State.run_live s (fun h => h.accessError m a n) hs.1
  simp only [Hw.accessError, hp, hs.2, if_true] at run
  exact run

/-- Settles O13, by where the address leads. -/
theorem writesGoWhereTheAddressLeads : Obligations.WritesGoWhereTheAddressLeads := by
  intro s m stn a n v hs
  refine ⟨fun b i o hown hp => ?reg, fun hown hp hc => ?mem, fun c hown hp hc => ⟨fun ht => ?ddr, fun ht => ?waits⟩, fun hown hp => ?hole,
    fun hown hp => ⟨?bad, exec_accessError hs hp⟩, fun k hown hk hm => ?sent⟩
  case reg => exact exec_registerWrite_done hs hown (Hw.masterWrite_reg hp)
  case mem => exact exec_registerWrite_done hs hown (Hw.masterWrite_mem hp hc)
  case ddr => exact exec_registerWrite_done hs hown (Hw.masterWrite_ddr hp hc ht)
  case waits => exact exec_registerWrite_waits hs hown (Hw.masterWrite_ddr_waits hp hc ht)
  case hole => exact exec_registerWrite_done hs hown (Hw.masterWrite_hole hp)
  case bad => exact exec_registerWrite_done hs hown (Hw.masterWrite_bad hp)
  case sent =>
    subst hk
    rw [exec_registerWrite hs.1, Hw.accessWrite, if_neg (by simp [hown]), if_neg (by simp [hm, hs.2])]
    rfl

/-- Settles O12: the register region's test and the arithmetic of the apertures. -/
theorem registerRegionTakesAlignedWords : Obligations.RegisterRegionTakesAlignedWords := by
  refine ⟨fun s m a n v hs ha hal => ?region, fun h d k o n hd hk1 hk6 hn ho => ?sram, fun h c o n hc ho hn => ?ddr⟩
  case region =>
    have bad : s.hw.place a n = .bad := by rw [Hw.place, if_pos ha, if_neg hal]
    exact ⟨exec_accessError hs bad, exec_registerWrite_done hs rfl (Hw.masterWrite_bad bad)⟩
  case sram =>
    have hd8 : d < 8 := by simp only [Hw.dieUp, Bool.and_eq_true, decide_eq_true_eq] at hd; exact hd.1.1
    have aperture : (k * 0x100000000 + d * 0x100000 + o) / 0x100000000 = k := by omega
    have die : (k * 0x100000000 + d * 0x100000 + o) % 0x100000000 / 0x100000 = d := by omega
    have offset : (k * 0x100000000 + d * 0x100000 + o) % 0x100000000 % 0x100000 = o := by omega
    simp only [Hw.place, aperture, die, offset]
    rw [if_neg (by omega), if_pos (by omega), if_pos ⟨hk1, hk6, hd8⟩, if_pos hn, if_pos hd]
  case ddr =>
    obtain rfl | rfl : c = 0 ∨ c = 1 := by omega
    · rw [Hw.place, if_neg (by omega), if_neg (by omega), if_pos (by omega), if_pos (by omega)]
    · rw [Hw.place, if_neg (by omega), if_neg (by omega), if_neg (by omega), if_pos (by omega), if_pos (by omega)]

/-! ### A master's store (R8, R35) -/

/-- The store that a master's write to memory makes: before and after its bytes only arbiters and what is told of the access change. -/
theorem Hw.masterWrite_stores {h : Hw} {m : Master} {a n v : Nat} (hp : h.place a n = .mem)
    (ht : ∀ c, ddrChan a = some c → (h.twAsk (.twill (h.twDie m) c) (twHost m) 6).holds (.twill (h.twDie m) c) (twHost m) = true)
    (hr : ∀ e, e < 64 → h.ringHit e a n = false) :
    ∃ g k, h.SameRest g ∧ g.wrq = h.wrq ∧ (g.wrLE a v n).SameRest k ∧ k.wrq = (g.wrLE a v n).wrq ∧ h.masterWrite m a n v = (some 0, k) := by
  have touched := SameRest.srcTouch h a n
  cases hc : ddrChan a with
  | none =>
    have store := (h.srcTouch a n).memStore_of_no_ring a n v fun e he => (touched.ringHit e a n).trans (hr e he)
    exact ⟨_, _, touched, h.srcTouch_wrq a n, .refl _, rfl, (masterWrite_mem hp hc).trans (by rw [store])⟩
  | some c =>
    have asked := touched.trans (.twAsk _ (h.twDie m) c (twHost m) 6)
    have held := (h.srcTouch_twAsk_holds a n (h.twDie m) c (twHost m) 6).trans (ht c hc)
    have store := Hw.memStore_of_no_ring _ a n v fun e he => (asked.ringHit e a n).trans (hr e he)
    refine ⟨_, _, asked, (Hw.twAsk_wrq _ _ _ _ _).trans (h.srcTouch_wrq a n), .tokRel _ (h.twDie m) c (twHost m), rfl, ?_⟩
    exact (masterWrite_ddr hp hc held).trans (by rw [store])

/-- A commit of hardware whose stored bytes are still the state's. -/
theorem State.commit_byte_eq {s : State} {h : Hw} (hs : s.sound) (hm : h.mem = s.hw.mem) (a : Nat) : (s.commit h).hw.byte a = h.byte a := by
  rw [s.commit_byte h a hs]
  simp [Hw.byte, hm, hs.2.1, wrqFind]

theorem registerWrite_stores {s t : State} {m : Master} {a n v : Nat} (hears : s.hears m) (hs : s.sound) (hq : s.quiet)
    (hp : s.hw.place a n = .mem)
    (ht : ∀ c, ddrChan a = some c → (s.hw.twAsk (.twill (s.hw.twDie m) c) (twHost m) 6).holds (.twill (s.hw.twDie m) c) (twHost m) = true)
    (hr : ∀ e, e < 64 → s.hw.ringHit e a n = false) (hx : exec (.registerWrite m none a n v) s = .next t) :
    (∀ i, i < n → t.hw.byte (a + i) = BitVec.ofNat 8 (v / 256 ^ i)) ∧ (∀ b, b < a ∨ a + n ≤ b → t.hw.byte b = s.hw.byte b) ∧
    t.hw.regs = s.hw.regs ∧ t.hw.units = s.hw.units ∧ t.hw.ques = s.hw.ques ∧ t.hw.engs = s.hw.engs ∧ t.pending = s.pending := by
  obtain ⟨g, k, before, hg, after, hk, hw⟩ := Hw.masterWrite_stores (v := v) hp ht hr
  have written := before.trans (.wrLE g a v n)
  have all : s.hw.SameRest (k.answer m 0 []) := (written.trans after).trans (.answer k m 0 [])
  have done := exec_registerWrite_done hears (stn := none) rfl hw
  rw [(hq.congr all).settle] at done
  obtain rfl : s.commit (k.answer m 0 []) = t := Host.Outcome.next.inj (done.symm.trans hx)
  have bytes : ∀ b, (s.commit (k.answer m 0 [])).hw.byte b = (g.wrLE a v n).byte b := fun b => by
    rw [State.commit_byte_eq hs all.mem]
    simp only [Hw.byte, Hw.answer, hk, after.mem]
  have old : ∀ b, g.byte b = s.hw.byte b := fun b => by simp only [Hw.byte, hg, before.mem]
  exact ⟨fun i hi => (bytes _).trans (g.byte_wrLE_inside a v n i hi),
    fun b hb => ((bytes b).trans (g.byte_wrLE_outside a v n b hb)).trans (old b), all.regs, all.units, all.ques, all.engs, rfl⟩

/-- Settles O58, by what each of the commands keeps, and by the way a master's store takes to memory. -/
theorem memoryFramesOfStoresAndOfTheRest : Obligations.MemoryFramesOfStoresAndOfTheRest :=
  ⟨fun _ _ _ hs hc ht => storesNothing_frame hs hc ht,
    fun _ _ _ _ _ _ hears hs hq hp ht hr hx => registerWrite_stores hears hs hq hp ht hr hx⟩

end Sys2Proof.Machine
end

section
/-! Counted settings: what a write of one does, and what it consumes (R11, R341, R359, R378 to R380). -/

namespace Sys2Proof.Machine

/-! ### Writes of counted settings (R378) -/

/-- A write through a master's transport that reaches its register (R39, R446). -/
theorem State.run_byHost {s : State} {m : Master} (hs : s.hears m) (reached : Hw → Bool) (f : Hw → Hw) (hr : reached s.hw = true) :
    s.run (fun h => h.byHost m (reached h) f) = s.wrote m (f s.hw) := by
  rw [State.run_live s _ hs.1, Hw.byHost, if_pos hs.2, if_pos hr]
  rfl

theorem exec_bindWrite {s : State} {m : Master} (hs : s.hears m) (v : Nat) : exec (.bindWrite m v) s = s.wrote m (s.hw.cntWrite (.bind v)) :=
  State.run_byHost hs (fun _ => true) (fun h => h.stnWrite 0x100 v) rfl

theorem exec_reliefWrite {s : State} {m : Master} (hs : s.hears m) (v : Nat) :
    exec (.reliefWrite m v) s = s.wrote m (s.hw.cntWrite (.relief (v % 2))) := by
  have run := State.run_byHost hs (fun _ => true) (fun h => h.stnWrite 0x104 v) rfl
  have word : s.hw.stnWrite 0x104 v = s.hw.cntWrite (.relief (bits v 0 0)) := rfl
  rw [word, show bits v 0 0 = v % 2 by simp [bits]] at run
  exact run

theorem Hw.stnWrite_key (h : Hw) {op k : Nat} (hop : op = 1 ∨ op = 2) (hk : k < 4) : h.stnWrite 0x10C (op + k % 4 * 4) = h.keyCmd op k := by
  have command : bits (op + k % 4 * 4) 1 0 = op := by simp only [bits]; omega
  have slot : bits (op + k % 4 * 4) 3 2 = k := by simp only [bits]; omega
  have word : h.stnWrite 0x10C (op + k % 4 * 4) = h.keyWrite (op + k % 4 * 4) := rfl
  rw [word, Hw.keyWrite, command, slot, if_pos hop]

theorem exec_keyProgram {s : State} {m : Master} (hs : s.hears m) {k : Nat} (hk : k < 4) :
    exec (.keyProgram m k) s = s.wrote m (s.hw.keyCmd 1 k) := by
  rw [← s.hw.stnWrite_key (.inl rfl) hk]
  exact State.run_byHost hs (fun _ => true) (fun h => h.stnWrite 0x10C (1 + k % 4 * 4)) rfl

theorem exec_keyRevoke {s : State} {m : Master} (hs : s.hears m) {k : Nat} (hk : k < 4) :
    exec (.keyRevoke m k) s = s.wrote m (s.hw.keyCmd 2 k) := by
  rw [← s.hw.stnWrite_key (.inr rfl) hk]
  exact State.run_byHost hs (fun _ => true) (fun h => h.stnWrite 0x10C (2 + k % 4 * 4)) rfl

theorem Hw.dieWrite_ceil (h : Hw) (d : Nat) {g : Nat} (hg : g < 16) :
    h.dieWrite d 0x70008 (g % 16) = (h.writeFields .die d 0x70008 g (fun _ => true)).cntWrite (.ceil d g) := by
  have gen : bits g 3 0 = g := by simp only [bits]; omega
  have word : h.dieWrite d 0x70008 g = (h.writeFields .die d 0x70008 g (fun _ => true)).cntWrite (.ceil d (bits g 3 0)) := rfl
  rw [Nat.mod_eq_of_lt hg, word, gen]

theorem exec_ceilCommit {s : State} {m : Master} (hs : s.hears m) {d g : Nat} (hd : s.hw.dieUp d = true) (hg : g < 16) :
    exec (.ceilCommit m d g) s = s.wrote m ((s.hw.writeFields .die d 0x70008 g (fun _ => true)).cntWrite (.ceil d g)) := by
  rw [← s.hw.dieWrite_ceil d hg]
  exact State.run_byHost hs (fun h => h.dieUp d) (fun h => h.dieWrite d 0x70008 (g % 16)) hd

theorem Hw.cntWrite_free {h : Hw} {c : HeldCnt} (hc : h.cntBlocked c = false) : h.cntWrite c = h.cntDo c := by
  rw [Hw.cntWrite, hc]
  rfl

theorem Hw.cntWrite_held {h : Hw} {c : HeldCnt} (hc : h.cntBlocked c = true) : h.cntWrite c = { h with heldCnt := h.heldCnt ++ [c] } := by
  rw [Hw.cntWrite, hc]
  rfl

/-! ### Binding, relief and ceilings consume their counts (R341, R359, R379) -/

theorem Hw.bindDo_frozen {h : Hw} (v : Nat) (hl : h.get STN_BIND_LEFT 0 = 0) : h.bindDo v = h := by
  rw [Hw.bindDo, if_pos (by simp [hl])]

theorem Hw.bindDo_changes {h : Hw} {v : Nat} (hl : h.get STN_BIND_LEFT 0 ≠ 0)
    (hc : h.flag STN_BIND_BOUND 0 ≠ bit v 12 ∨ h.get STN_BIND_NUM 0 ≠ if bit v 12 then v % 2 ^ 12 else 0) :
    h.bindDo v =
      (let b := bit v 12
       let n := if b then v % 2 ^ 12 else 0
       let left := h.get STN_BIND_LEFT 0 - 1
       let g := (((h.burnMark.put STN_BIND_LEFT 0 left).putB STN_BIND_BOUND 0 b).put STN_BIND_NUM 0 n).cntChange 0 0 left n
       if b then g.boundNum else (((g.put TW_LINE_STAT_NUM 0 0).put TW_LINE_STAT_NUM_VALID 0 0).put TW_LINE_STAT_ANNOUNCED 0 0).candidacy) := by
  have same : ¬ ((h.flag STN_BIND_BOUND 0 == bit v 12 && h.get STN_BIND_NUM 0 == if bit v 12 then v % 2 ^ 12 else 0) ||
      h.get STN_BIND_LEFT 0 == 0) = true := by
    simp only [Bool.or_eq_true, Bool.and_eq_true, beq_iff_eq]
    rintro (⟨bound, num⟩ | left)
    · exact hc.elim (fun b => b bound) (fun n => n num)
    · exact hl left
  rw [Hw.bindDo]
  exact if_neg same

theorem Hw.reliefDo_frozen {h : Hw} (v : Nat) (hl : h.get STN_RELIEF_LEFT 0 = 0) : h.reliefDo v = h := by
  rw [Hw.reliefDo, if_pos (by simp [hl])]

theorem Hw.reliefDo_changes {h : Hw} {v : Nat} (hd : h.dieUp 1 = true) (hv : h.get STN_RELIEF_EN 0 ≠ v % 2) (hl : h.get STN_RELIEF_LEFT 0 ≠ 0) :
    h.reliefDo v = ((h.burnMark.put STN_RELIEF_LEFT 0 (h.get STN_RELIEF_LEFT 0 - 1)).put STN_RELIEF_EN 0 (v % 2)).cntChange 3 1
      (h.get STN_RELIEF_LEFT 0 - 1) (v % 2) := by
  rw [Hw.reliefDo, if_neg (by simp [hd, hv, hl])]

section
variable {h : Hw} {d g : Nat}

theorem Hw.ceilDo_same (hg : g < 16) (hs : h.get ILK_CEIL_GEN_GEN d = g) : h.ceilDo d g = h := by
  rw [Hw.ceilDo, if_pos (by simp [hs, Nat.mod_eq_of_lt hg])]

theorem Hw.ceilDo_refused (hg : g < 16) (hn : h.get ILK_CEIL_GEN_GEN d ≠ g) (hl : h.get ILK_CEIL_GEN_LEFT d ≠ 0)
    (hu : (unitsOf d).any (fun u => h.live u) = true) : h.ceilDo d g = h.put ILK_CEIL_GEN_REFUSED d 1 := by
  rw [Hw.ceilDo, if_neg (by simp [hn, hl, Nat.mod_eq_of_lt hg]), if_pos hu]

theorem Hw.ceilDo_commits (hg : g < 16) (hn : h.get ILK_CEIL_GEN_GEN d ≠ g) (hl : h.get ILK_CEIL_GEN_LEFT d ≠ 0)
    (hu : (unitsOf d).any (fun u => h.live u) = false) :
    h.ceilDo d g =
      (let left := h.get ILK_CEIL_GEN_LEFT d - 1
       let a := ((h.put ILK_CEIL_GEN_LEFT d left).put ILK_CEIL_GEN_GEN d g).cntChange 1 d left g
       let b := (a.each (unitsOf d) (fun h u => h.setCeil u (h.stagedWords u))).recalcDie d
       ((b.setCopy d (b.olderCeil d) { tget b.nv.ceils (d * 2 + b.olderCeil d) {} with commit := 0, begun := true }).modD d
         (fun x => { x with ceilW := some (b.olderCeil d, 0) })).tokReq (.nvm d) { who := 1, rank := 1 }) := by
  rw [Hw.ceilDo, if_neg (by simp [hn, hl, Nat.mod_eq_of_lt hg]), if_neg (by simp [hu]), Nat.mod_eq_of_lt hg]

end

/-! ### Key slots (R380) -/

/-- A field of another block than the one set reads as before. -/
theorem Hw.get_put_blk (h : Hw) {f F : Fld} (hb : F.blk ≠ f.blk) (i v k j n : Nat) : (h.put f i v k).get F j n = h.get F j n :=
  h.get_put_ne f i v k F j n fun same => hb (congrArg RegKey.blk same)

/-- The fields of STN_KEY_CMD, in which a key command shows itself. -/
def keyCmdFields : List Fld := [STN_KEY_CMD_OP, STN_KEY_CMD_SLOT, STN_KEY_CMD_BUSY, STN_KEY_CMD_RESULT]

/-- `g` has the key slots, the staged digest, the serving dies and the hold of OTP programs of `h`: what a key command looks at. -/
structure Hw.SameKeys (h g : Hw) : Prop where
  state : ∀ s, g.keyState s = h.keyState s
  staged : g.get STN_KEY_STAGE_DIGEST 0 = h.get STN_KEY_STAGE_DIGEST 0
  digest : ∀ s, g.get STN_KEY_SLOTD_DIGEST 0 s = h.get STN_KEY_SLOTD_DIGEST 0 s
  dieUp : ∀ d, g.dieUp d = h.dieUp d
  logDie : g.logDie = h.logDie
  otpHeld : g.otpHeld = h.otpHeld

/-- What a key command shows of itself is none of what it looks at. -/
theorem Hw.SameKeys.put {h g : Hw} (k : h.SameKeys g) {f : Fld} {v : Nat} (hf : f ∈ keyCmdFields := by decide) : h.SameKeys (g.put f 0 v) := by
  have other : ∀ F : Fld, (∀ f ∈ keyCmdFields, F.key 0 0 ≠ f.key 0 0) → (g.put f 0 v).get F 0 = g.get F 0 := fun F hF =>
    g.get_put_ne f 0 v 0 F 0 0 (hF f hf)
  have present := other STN_CENSUS_PRESENT (by decide)
  have dieUp : ∀ d, (g.put f 0 v).dieUp d = g.dieUp d := fun d => by simp only [Hw.dieUp, present, Hw.die_of_put]
  have shut : ∀ d, (g.put f 0 v).get TH_SUP_STAT_SHUT d = g.get TH_SUP_STAT_SHUT d := fun d =>
    g.get_put_blk ((by decide : ∀ f ∈ keyCmdFields, TH_SUP_STAT_SHUT.blk ≠ f.blk) f hf) 0 v 0 d 0
  refine ⟨fun s => ?state, (other _ (by decide)).trans k.staged, fun s => ?digest, fun d => (dieUp d).trans (k.dieUp d),
    (other STN_STATE_RELIEF (by decide)).trans k.logDie, ?held⟩
  case state => rw [← k.state s, Hw.keyState, other _ (by decide), Hw.keyState]
  case digest =>
    refine (g.get_put_ne f 0 v 0 _ 0 s fun same => ?_).trans (k.digest s)
    have pos : ∀ f ∈ keyCmdFields, (f.key 0 0).pos < STN_KEY_SLOTD_DIGEST.pos := by decide
    have := same ▸ pos f hf
    simp only [Fld.key] at this
    omega
  case held => rw [← k.otpHeld]; simp only [Hw.otpHeld, Hw.flag, dieUp, shut]

/-- The hardware in which a key command is carried out: its command shown, and no longer BUSY. -/
def Hw.keyStart (h : Hw) (op k : Nat) : Hw :=
  (((h.put STN_KEY_CMD_OP 0 op).put STN_KEY_CMD_SLOT 0 k).put STN_KEY_CMD_BUSY 0 1).put STN_KEY_CMD_BUSY 0 0

theorem Hw.SameKeys.refl (h : Hw) : h.SameKeys h := ⟨fun _ => rfl, rfl, fun _ => rfl, fun _ => rfl, rfl, rfl⟩

theorem Hw.keyResult_congr {h g : Hw} (k : h.SameKeys g) (op s : Nat) : g.keyResult op s = h.keyResult op s := by
  simp only [Hw.keyResult, k.state, k.staged]

/-- A key command that is refused for nothing: STN_KEY_CMD.RESULT reads 0, and the slot is programmed and audited. -/
theorem Hw.keyCmd_done {h : Hw} {op k : Nat} (hk : k < 4) (hb : h.flag STN_KEY_CMD_BUSY 0 = false) (ho : h.otpHeld = false)
    (hr : h.keyResult op k = 0) :
    h.keyCmd op k =
      (let g := (h.keyStart op k).put STN_KEY_CMD_RESULT 0 0
       let arg := k + 4 * b2n (!(h.dieUp 0 && h.dieUp 1))
       if op = 1 then (g.setKey k 1 (h.get STN_KEY_STAGE_DIGEST 0)).audit 0x07 h.logDie arg (bytesOf 48 (h.get STN_KEY_STAGE_DIGEST 0))
       else (g.setKey k 2 (h.get STN_KEY_SLOTD_DIGEST 0 k)).audit 0x08 h.logDie arg) := by
  have shown : h.SameKeys (((h.put STN_KEY_CMD_OP 0 op).put STN_KEY_CMD_SLOT 0 k).put STN_KEY_CMD_BUSY 0 1) := (SameKeys.refl h).put.put.put
  have result := (keyResult_congr (shown.put (f := STN_KEY_CMD_BUSY) (v := 0)) op k).trans hr
  have done := (shown.put (f := STN_KEY_CMD_BUSY) (v := 0)).put (f := STN_KEY_CMD_RESULT) (v := 0)
  rw [Hw.keyCmd, if_neg (by simp [hb]), Nat.mod_eq_of_lt hk, Hw.cntWrite_free (c := .key op k) (shown.otpHeld.trans ho), Hw.cntDo, Hw.keyDo]
  simp only [result, ne_eq, not_true_eq_false, if_false, done.staged, done.digest, done.dieUp, done.logDie, Hw.keyStart]

theorem Hw.keyResult_program {h : Hw} {k : Nat} (hs : h.keyState k = 0) (hd : h.get STN_KEY_STAGE_DIGEST 0 ≠ 0) : h.keyResult 1 k = 0 := by
  simp [Hw.keyResult, hs, hd]

theorem Hw.keyResult_revoke {h : Hw} {k j : Nat} (hj : j < 4) (hjk : j ≠ k) (hsj : h.keyState j ≠ 2) (hsk : h.keyState k ≠ 2) :
    h.keyResult 2 k = 0 := by
  have other : ¬ (List.range 4).all (fun i => i == k || h.keyState i == 2) = true := by
    simp only [List.all_eq_true, List.mem_range, Bool.or_eq_true, beq_iff_eq]
    exact fun all => (all j hj).elim hjk hsj
  rw [Hw.keyResult, if_neg (by decide), if_neg hsk, if_neg other]

/-! The slots of the two head dies. -/

theorem Hw.burnMark_nv (h : Hw) : h.burnMark.nv = h.nv := by
  unfold Hw.burnMark
  split
  · split <;> rfl
  · rfl

theorem Hw.setKey_keys (h : Hw) (k x dg : Nat) :
    (h.setKey k x dg).nv.keys = ([0, 1].filter h.dieUp).foldl (fun t d => tset t (d * 4 + k) (x, dg)) h.nv.keys := by
  have shown := (Hw.Keeps.refl (h.burnMark.each ([0, 1].filter h.dieUp)
    (fun h d => { h with nv := { h.nv with keys := tset h.nv.keys (d * 4 + k) (x, dg) } }))).keyShown.nv
  rw [Hw.setKey, shown]
  cases h0 : h.dieUp 0 <;> cases h1 : h.dieUp 1 <;> simp [List.filter, h0, h1, Hw.each, h.burnMark_nv]

/-- What a slot of a head die holds after a key slot is set: the new value where the die serves and the slot is the one. -/
theorem Hw.tget_setKey (h : Hw) (k x dg j : Nat) :
    tget (h.setKey k x dg).nv.keys j (0, 0) =
      if (h.dieUp 0 = true ∧ j = k) ∨ (h.dieUp 1 = true ∧ j = 4 + k) then (x, dg) else tget h.nv.keys j (0, 0) := by
  rw [h.setKey_keys]
  cases h0 : h.dieUp 0 <;> cases h1 : h.dieUp 1 <;> simp [List.filter, h0, h1, tget_tset]
  by_cases hj : j = 4 + k <;> simp [hj]

theorem Hw.keyShown_diff (h : Hw) :
    h.keyShown.flag STN_KEYSLOT_DIFF 0 = (List.range 4).any (fun j => tget h.nv.keys (0 * 4 + j) (0, 0) != tget h.nv.keys (1 * 4 + j) (0, 0)) := by
  have other : ∀ (g : Hw) v j, (g.put STN_KEY_SLOTD_DIGEST 0 v j).get STN_KEYSLOT_DIFF 0 = g.get STN_KEYSLOT_DIFF 0 := fun g v j =>
    g.get_put_ne _ _ _ _ _ _ _ fun same => by
      have pos := congrArg RegKey.pos same
      simp only [Fld.key, STN_KEYSLOT_DIFF, STN_KEY_SLOTD_DIGEST] at pos
      omega
  have same : ∀ (l : List Nat) (g : Hw) (v : Hw → Nat → Nat),
      (g.each l (fun h k => h.put STN_KEY_SLOTD_DIGEST 0 (v h k) k)).get STN_KEYSLOT_DIFF 0 = g.get STN_KEYSLOT_DIFF 0 := by
    intro l
    induction l with
    | nil => exact fun _ _ => rfl
    | cons k l ih => exact fun g v => (ih _ v).trans (other g (v g k) k)
  rw [Hw.flag, Hw.keyShown, same _ _ fun g k => (tget h.nv.keys (g.bootDie * 4 + k) (0, 0)).2, Hw.putB, Hw.get_put_self]
  generalize (List.range 4).any _ = b
  cases b <;> rfl

/-- Settles O49, setting by setting: what a write of it asks, and what each change does. -/
theorem countedSettingsConsumeTheirCounts : Obligations.CountedSettingsConsumeTheirCounts := by
  intro s m d k v g hs hk hg
  refine ⟨?bindNow, ?bindHeld, Hw.bindDo_frozen v, ?bind, ?reliefNow, Hw.reliefDo_frozen v, ?relief, ⟨exec_keyProgram hs hk, exec_keyRevoke hs hk⟩,
    ?keys, ?slots, ?ceilNow, ?ceil, Hw.ceilDo_same hg, Hw.ceilDo_refused hg⟩
  case bindNow => exact fun hb => by rw [exec_bindWrite hs, Hw.cntWrite_free hb]; rfl
  case bindHeld => exact fun hb => by rw [exec_bindWrite hs, Hw.cntWrite_held hb]
  case bind =>
    intro b n left h ho hl hc
    rw [exec_bindWrite hs, Hw.cntWrite_free (c := .bind v) ho]
    exact congrArg (s.wrote m) (Hw.bindDo_changes hl hc)
  case reliefNow => exact fun hb => by rw [exec_reliefWrite hs, Hw.cntWrite_free hb]; rfl
  case relief =>
    intro ho hd hv hl
    rw [exec_reliefWrite hs, Hw.cntWrite_free (c := .relief (v % 2)) ho]
    have changes := Hw.reliefDo_changes (v := v % 2) hd (by rwa [Nat.mod_mod]) hl
    rw [Nat.mod_mod] at changes
    exact congrArg (s.wrote m) changes
  case keys =>
    intro start both dg hb ho
    refine ⟨fun hstate hdg => ?program, fun j hj hjk hsj hsk => ?revoke⟩
    case program =>
      rw [exec_keyProgram hs hk]
      exact congrArg (s.wrote m) (Hw.keyCmd_done hk hb ho (Hw.keyResult_program hstate hdg))
    case revoke =>
      rw [exec_keyRevoke hs hk]
      exact congrArg (s.wrote m) (Hw.keyCmd_done hk hb ho (Hw.keyResult_revoke hj hjk hsj hsk))
  case slots =>
    intro h x dg g
    refine ⟨fun e he hd => ?serves, fun e he hd => ?keeps, fun j hj0 hj1 => ?others, ?diff⟩
    case serves =>
      rw [h.tget_setKey]
      obtain rfl | rfl : e = 0 ∨ e = 1 := by omega
      · rw [if_pos (.inl ⟨hd, by omega⟩)]
      · rw [if_pos (.inr ⟨hd, by omega⟩)]
    case keeps =>
      rw [h.tget_setKey, if_neg]
      obtain rfl | rfl : e = 0 ∨ e = 1 := by omega
      · rintro (⟨hd', -⟩ | ⟨-, hj⟩)
        · simp [hd] at hd'
        · omega
      · rintro (⟨-, hj⟩ | ⟨hd', -⟩)
        · omega
        · simp [hd] at hd'
    case others => rw [h.tget_setKey, if_neg fun same => same.elim (fun e => hj0 e.2) (fun e => hj1 e.2)]
    case diff =>
      have shown := Hw.keyShown_diff (h.burnMark.each ([0, 1].filter h.dieUp)
        (fun h d => { h with nv := { h.nv with keys := tset h.nv.keys (d * 4 + k) (x, dg) } }))
      rw [← (Hw.Keeps.refl _).keyShown.nv] at shown
      exact shown
  case ceilNow => exact fun hd hb => by rw [exec_ceilCommit hs hd hg, Hw.cntWrite_free hb]; rfl
  case ceil =>
    intro h left a b hd ho hn hl hu
    rw [exec_ceilCommit hs hd hg, Hw.cntWrite_free (c := .ceil d g) ho, Hw.cntDo, Hw.ceilDo_commits hg hn hl hu]

end Sys2Proof.Machine
end

section
/-! Token arbitration: what a grant, a request and a release do to the holders and to those that wait, and which request is granted next
(R35 to R38). -/

/-- A request that has lost `k` more grants. -/
abbrev Sys2Proof.Req.lost (r : Sys2Proof.Req) (k : Nat) : Sys2Proof.Req := { r with losses := r.losses + k }

namespace Sys2Proof.Machine

/-! ### A request through grants (R36, R37) -/

/-- A grant answers nothing, or gives one waiting request a copy of the resource and counts a loss for every other. -/
theorem ArbS.grant_cases (a : ArbS) (n : Nat) (one : Bool) :
    a.grant n one = a ∨ ∃ r, r ∈ a.pend ∧ a.hold.length < n ∧
      a.grant n one = { a.take n r with pend := (a.pend.erase r).map (fun x => x.lost 1) } := by
  unfold ArbS.grant
  by_cases free : a.hold.length < n
  · cases pick : (pickReq ((a.pend.filter (a.eligible one)).map fun r => (r.rank, r.who, r.losses)) a.last).bind
        (fun i => (a.pend.filter (a.eligible one))[i]?) with
    | none => exact .inl (by simp [free, pick])
    | some r =>
      obtain ⟨i, -, at_i⟩ := Option.bind_eq_some_iff.mp pick
      have waits : r ∈ a.pend := (List.mem_filter.mp (List.mem_of_getElem? at_i)).1
      exact .inr ⟨r, waits, free, by simp [free, pick]⟩
  · exact .inl (by simp [free])

/-- What grants keep: what stood before the first request of the instant, the bound on the holders, the holders themselves, the number of
requests, and each request that waits, its losses counted. -/
structure ArbS.Granted (n : Nat) (a b : ArbS) : Prop where
  since : b.since = a.since
  arr : b.arr = a.arr
  hold0 : b.hold0 = a.hold0
  pend0 : b.pend0 = a.pend0
  bound : a.hold.length ≤ n → b.hold.length ≤ n
  count : b.hold.length + b.pend.length = a.hold.length + a.pend.length
  held : ∀ r, r ∈ a.hold → r ∈ b.hold
  waits : ∀ r, r ∈ a.pend → ∃ k, r.lost k ∈ b.hold ∨ r.lost k ∈ b.pend

theorem ArbS.Granted.refl (n : Nat) (a : ArbS) : ArbS.Granted n a a :=
  ⟨rfl, rfl, rfl, rfl, id, rfl, fun _ h => h, fun _ h => ⟨0, .inr h⟩⟩

theorem ArbS.Granted.trans {n : Nat} {a b c : ArbS} (x : ArbS.Granted n a b) (y : ArbS.Granted n b c) : ArbS.Granted n a c := by
  refine ⟨y.since.trans x.since, y.arr.trans x.arr, y.hold0.trans x.hold0, y.pend0.trans x.pend0, fun h => y.bound (x.bound h),
    y.count.trans x.count, fun r h => y.held r (x.held r h), fun r h => ?waits⟩
  obtain ⟨k, granted | goesOn⟩ := x.waits r h
  · exact ⟨k, .inl (y.held _ granted)⟩
  · obtain ⟨j, hj⟩ := y.waits _ goesOn
    exact ⟨k + j, by simpa only [Req.lost, Nat.add_assoc] using hj⟩

/-- Of the requests that waited before a grant each is held now, waits as before where nothing was granted, or has lost one grant. -/
theorem ArbS.mem_grant (a : ArbS) (n : Nat) (one : Bool) {r : Req} (h : r ∈ a.pend) :
    r ∈ (a.grant n one).hold ∨ r ∈ (a.grant n one).pend ∨ r.lost 1 ∈ (a.grant n one).pend := by
  rcases a.grant_cases n one with same | ⟨q, -, -, granted⟩
  · exact .inr (.inl (by rwa [same]))
  · rw [granted]
    by_cases hq : r = q
    · exact .inl (by simp [ArbS.take, hq])
    · exact .inr (.inr (List.mem_map_of_mem ((List.mem_erase_of_ne hq).mpr h)))

theorem ArbS.grant_granted (a : ArbS) (n : Nat) (one : Bool) : ArbS.Granted n a (a.grant n one) := by
  have waits : ∀ r, r ∈ a.pend → ∃ k, r.lost k ∈ (a.grant n one).hold ∨ r.lost k ∈ (a.grant n one).pend := fun r hr =>
    (a.mem_grant n one hr).elim (fun h => ⟨0, .inl h⟩) fun h => h.elim (fun h => ⟨0, .inr h⟩) fun h => ⟨1, .inr h⟩
  rcases a.grant_cases n one with same | ⟨q, hq, free, granted⟩
  · rw [same]; exact .refl n a
  · rw [granted] at waits ⊢
    have pos := List.length_pos_of_mem hq
    have left := List.length_erase_of_mem hq
    exact ⟨rfl, rfl, rfl, rfl, fun _ => by simp [ArbS.take]; omega, by simp [ArbS.take]; omega,
      fun r h => List.mem_append_left [q] h, waits⟩

theorem ArbS.grants_granted (a : ArbS) (n : Nat) (one : Bool) (k : Nat) : ArbS.Granted n a (a.grants n one k) := by
  induction k generalizing a with
  | zero => exact .refl n a
  | succ k ih => exact (a.grant_granted n one).trans (ih _)

/-- An arbiter before the grants of an instant: what stood before the first request of the instant, with all requests of the instant
waiting. -/
def ArbS.instant (a : ArbS) (now : Nat) (r : Req) : ArbS :=
  if a.since = some now then
    { a with hold := a.hold0, inst := a.inst0, pend := a.pend0 ++ (a.arr ++ [r]), last := a.last0, arr := a.arr ++ [r] }
  else
    { a with since := some now, arr := [r], hold0 := a.hold, inst0 := a.inst, pend0 := a.pend, last0 := a.last, pend := a.pend ++ [r] }

theorem ArbS.request_eq (a : ArbS) (n : Nat) (one : Bool) (now : Nat) (r : Req) :
    a.request n one now r = (a.instant now r).grants n one n := by
  by_cases h : a.since = some now <;> simp [ArbS.request, ArbS.instant, h]

theorem ArbS.request_granted (a : ArbS) (n : Nat) (one : Bool) (now : Nat) (r : Req) : ArbS.Granted n (a.instant now r) (a.request n one now r) := by
  rw [a.request_eq]
  exact ArbS.grants_granted _ n one n

/-- A release is a grant of what remains when a holder `w`, if there is one, has gone. -/
theorem ArbS.release_eq (a : ArbS) (n : Nat) (one : Bool) (w : Nat) :
    ∃ b : ArbS, a.release n one w = b.grant n one ∧ b.pend = a.pend ∧ b.hold.length ≤ a.hold.length ∧
      ∀ r, r ∈ a.hold → r.who ≠ w → r ∈ b.hold := by
  unfold ArbS.release
  cases found : a.hold.findIdx? (fun r => r.who == w) with
  | none => exact ⟨a, rfl, rfl, Nat.le_refl _, fun r h _ => h⟩
  | some i =>
    obtain ⟨hi, goes, -⟩ := List.findIdx?_eq_some_iff_getElem.mp found
    refine ⟨_, rfl, rfl, List.length_eraseIdx_le _ _, fun r h other => ?_⟩
    obtain ⟨j, hj⟩ := List.mem_iff_getElem?.mp h
    refine List.mem_eraseIdx_iff_getElem?.mpr ⟨j, fun same => other ?_, hj⟩
    subst same
    rw [List.getElem?_eq_getElem hi, Option.some_inj] at hj
    simpa [hj] using goes

/-! ### Which request is next (R36, R37) -/

/-- A fold that keeps one of the elements it meets ends with one of them. -/
theorem foldl_choice {α : Type} {f : Option α → α → Option α} (first : ∀ x, f none x = some x)
    (next : ∀ y x, f (some y) x = some x ∨ f (some y) x = some y) {l : List α} (hl : l ≠ []) : ∃ x ∈ l, l.foldl f none = some x := by
  have from_some : ∀ (l : List α) (y : α), ∃ x ∈ y :: l, l.foldl f (some y) = some x := by
    intro l
    induction l with
    | nil => exact fun y => ⟨y, List.mem_singleton_self y, rfl⟩
    | cons x l ih =>
      intro y
      rcases next y x with taken | kept
      · obtain ⟨z, hz, e⟩ := ih x
        exact ⟨z, List.mem_cons_of_mem y hz, by rw [List.foldl_cons, taken, e]⟩
      · obtain ⟨z, hz, e⟩ := ih y
        exact ⟨z, List.cons_subset_cons y (List.subset_cons_self x l) hz, by rw [List.foldl_cons, kept, e]⟩
  cases l with
  | nil => exact absurd rfl hl
  | cons x l => rw [List.foldl_cons, first]; exact from_some l x

/-- Of two requests, each with its index, the one of the lower requester; the earlier one where both are of one requester. -/
def lowerOf (b : Option ((Nat × Nat × Nat) × Nat)) (x : (Nat × Nat × Nat) × Nat) : Option ((Nat × Nat × Nat) × Nat) :=
  match b with
  | none => some x
  | some y => if x.1.2.1 < y.1.2.1 then some x else some y

/-- Round-robin among requests, each with its index: the lowest requester not before the one above the last granted, else the lowest. -/
def rrPick (last : Tab Nat Nat) (c : List ((Nat × Nat × Nat) × Nat)) (rank : Nat) : Option Nat :=
  let after := c.filter (fun x => decide (tget last rank 0 ≤ x.1.2.1))
  ((if after = [] then c else after).foldl lowerOf none).map (fun x => x.2)

/-- Round-robin grants one of the requests that there are. -/
theorem rrPick_mem (last : Tab Nat Nat) {c : List ((Nat × Nat × Nat) × Nat)} (rank : Nat) (hc : c ≠ []) :
    ∃ x ∈ c, rrPick last c rank = some x.2 := by
  have pick : ∀ l : List ((Nat × Nat × Nat) × Nat), l ≠ [] → ∃ x ∈ l, l.foldl lowerOf none = some x := fun l hl =>
    foldl_choice (fun _ => rfl) (fun y x => by simp only [lowerOf]; split <;> simp) hl
  unfold rrPick
  by_cases none_after : c.filter (fun x => decide (tget last rank 0 ≤ x.1.2.1)) = []
  · obtain ⟨x, hx, e⟩ := pick c hc
    exact ⟨x, hx, by simp only [none_after, if_true, e, Option.map_some]⟩
  · obtain ⟨x, hx, e⟩ := pick _ none_after
    exact ⟨x, (List.mem_filter.mp hx).1, by simp only [none_after, if_false, e, Option.map_some]⟩

/-- The choice in its order: rank 1, then the requests that have lost 16 grants, then the highest rank. -/
theorem pickReq_eq (l : List (Nat × Nat × Nat)) (last : Tab Nat Nat) :
    pickReq l last =
      (if l.zipIdx.filter (fun x => x.1.1 == 1) ≠ [] then rrPick last (l.zipIdx.filter (fun x => x.1.1 == 1)) 1
      else match l.zipIdx.filter (fun x => decide (16 ≤ x.1.2.2)) with
        | x :: _ => some x.2
        | [] => rrPick last (l.zipIdx.filter (fun x => x.1.1 == l.foldl (fun m x => min m x.1) 99)) (l.foldl (fun m x => min m x.1) 99)) := rfl

/-- The requests of a list, with their indices, that meet a condition: there is one if there is one in the list, and each stands at its
index. -/
theorem zipIdx_filter_ne_nil {α : Type} {l : List α} {p : α → Bool} {y : α} (hy : y ∈ l) (hp : p y = true) :
    l.zipIdx.filter (fun x => p x.1) ≠ [] := by
  obtain ⟨i, hi⟩ := List.mem_iff_getElem?.mp hy
  exact List.ne_nil_of_mem (List.mem_filter.mpr ⟨List.mk_mem_zipIdx_iff_getElem?.mpr hi, hp⟩)

theorem getElem?_of_mem_zipIdx_filter {α : Type} {l : List α} {p : α → Bool} {x : α × Nat} (hx : x ∈ l.zipIdx.filter (fun x => p x.1)) :
    l[x.2]? = some x.1 ∧ p x.1 = true :=
  ⟨List.mem_zipIdx_iff_getElem?.mp (List.mem_filter.mp hx).1, (List.mem_filter.mp hx).2⟩

/-- The least rank is at most each, and one of them, or the bound it starts from. -/
theorem foldl_min_rank (l : List (Nat × Nat × Nat)) (b : Nat) :
    let top := l.foldl (fun m x => min m x.1) b
    (∀ y ∈ l, top ≤ y.1) ∧ top ≤ b ∧ (top = b ∨ ∃ y ∈ l, y.1 = top) := by
  induction l generalizing b with
  | nil => simp
  | cons z l ih =>
    obtain ⟨le, leb, eq⟩ := ih (min b z.1)
    refine ⟨fun y hy => ?_, by simp only [List.foldl_cons]; omega, ?_⟩
    · rcases List.mem_cons.mp hy with rfl | hy
      · simp only [List.foldl_cons]; omega
      · exact le y hy
    · simp only [List.foldl_cons]
      rcases eq with eq | ⟨y, hy, e⟩
      · by_cases hz : b ≤ z.1
        · exact .inl (by omega)
        · exact .inr ⟨z, List.mem_cons_self, by omega⟩
      · exact .inr ⟨y, List.mem_cons_of_mem z hy, e⟩

theorem pickReq_rank_one {l : List (Nat × Nat × Nat)} {y : Nat × Nat × Nat} (last : Tab Nat Nat) (hy : y ∈ l) (h1 : y.1 = 1) :
    ∃ i x, pickReq l last = some i ∧ l[i]? = some x ∧ x.1 = 1 := by
  have some_ilk := zipIdx_filter_ne_nil (p := fun x : Nat × Nat × Nat => x.1 == 1) hy (by simp [h1])
  obtain ⟨x, hx, e⟩ := rrPick_mem last 1 some_ilk
  obtain ⟨at_i, rank⟩ := getElem?_of_mem_zipIdx_filter (p := fun x : Nat × Nat × Nat => x.1 == 1) hx
  exact ⟨x.2, x.1, by rw [pickReq_eq, if_pos some_ilk, e], at_i, by simpa using rank⟩

theorem zipIdx_filter_eq_nil {α : Type} {l : List α} {p : α → Bool} (h : ∀ y ∈ l, p y = false) : l.zipIdx.filter (fun x => p x.1) = [] := by
  refine List.filter_eq_nil_iff.mpr fun x hx => ?_
  simp [h x.1 (List.mem_of_getElem? (List.mem_zipIdx_iff_getElem?.mp hx))]

theorem pickReq_starved {l : List (Nat × Nat × Nat)} {y : Nat × Nat × Nat} (last : Tab Nat Nat) (no1 : ∀ x ∈ l, x.1 ≠ 1) (hy : y ∈ l)
    (h16 : 16 ≤ y.2.2) : ∃ i x, pickReq l last = some i ∧ l[i]? = some x ∧ 16 ≤ x.2.2 := by
  have no_ilk := zipIdx_filter_eq_nil (p := fun x : Nat × Nat × Nat => x.1 == 1) (l := l) fun x hx => by simp [no1 x hx]
  have some_starved := zipIdx_filter_ne_nil (p := fun x : Nat × Nat × Nat => decide (16 ≤ x.2.2)) hy (by simp [h16])
  obtain ⟨x, r, e⟩ := List.exists_cons_of_ne_nil some_starved
  obtain ⟨at_i, losses⟩ := getElem?_of_mem_zipIdx_filter (p := fun x : Nat × Nat × Nat => decide (16 ≤ x.2.2)) (x := x)
    (by rw [e]; exact List.mem_cons_self)
  exact ⟨x.2, x.1, by rw [pickReq_eq, if_neg (fun some_ilk => some_ilk no_ilk), e], at_i, by simpa using losses⟩

theorem pickReq_highest {l : List (Nat × Nat × Nat)} (last : Tab Nat Nat) (hl : l ≠ []) (h99 : ∀ x ∈ l, x.1 ≤ 99)
    (few : ∀ x ∈ l, x.1 ≠ 1 ∧ x.2.2 < 16) : ∃ i x, pickReq l last = some i ∧ l[i]? = some x ∧ ∀ y ∈ l, x.1 ≤ y.1 := by
  have no_ilk := zipIdx_filter_eq_nil (p := fun x : Nat × Nat × Nat => x.1 == 1) (l := l) fun x hx => by simp [(few x hx).1]
  have no_starved := zipIdx_filter_eq_nil (p := fun x : Nat × Nat × Nat => decide (16 ≤ x.2.2)) (l := l) fun x hx => by simp [(few x hx).2]
  obtain ⟨le, -, attained⟩ := foldl_min_rank l 99
  have attained : ∃ y ∈ l, y.1 = l.foldl (fun m x => min m x.1) 99 := attained.elim (fun e => by
    obtain ⟨y, hy⟩ := List.exists_mem_of_ne_nil l hl
    exact ⟨y, hy, Nat.le_antisymm (Nat.le_trans (h99 y hy) (Nat.le_of_eq e.symm)) (le y hy)⟩) id
  obtain ⟨y, hy, top⟩ := attained
  obtain ⟨x, hx, e⟩ := rrPick_mem last (l.foldl (fun m x => min m x.1) 99)
    (zipIdx_filter_ne_nil (p := fun x : Nat × Nat × Nat => x.1 == l.foldl (fun m x => min m x.1) 99) hy (by simp [top]))
  obtain ⟨at_i, rank⟩ := getElem?_of_mem_zipIdx_filter (p := fun x : Nat × Nat × Nat => x.1 == l.foldl (fun m x => min m x.1) 99) hx
  refine ⟨x.2, x.1, by rw [pickReq_eq, if_neg (fun some_ilk => some_ilk no_ilk), no_starved, e], at_i, fun y hy => ?_⟩
  rw [beq_iff_eq.mp rank]
  exact le y hy

/-- Settles O24: a request and a release by what one grant keeps, the choice by its three cases. -/
theorem arbitrationGrantsByRankAndLosesNothing : Obligations.ArbitrationGrantsByRankAndLosesNothing := by
  refine ⟨fun a n w now one q => ⟨?request, ?release⟩, fun l last h99 hl => ?choice⟩
  case request =>
    obtain ⟨since, arr, hold0, pend0, bound, count, held, waits⟩ := a.request_granted n one now q
    by_cases h : a.since = some now
    · simp only [ArbS.instant, h, if_true, List.length_append] at since arr hold0 pend0 bound count held waits ⊢
      exact ⟨since, hold0, pend0, arr, bound, by omega, held, fun r hr => waits r (List.mem_append.mpr hr)⟩
    · simp only [ArbS.instant, h, if_false, List.length_append] at since arr hold0 pend0 bound count held waits ⊢
      exact ⟨since, hold0, pend0, arr, bound, by omega, held, fun r hr => waits r (List.mem_append.mpr hr)⟩
  case release =>
    obtain ⟨b, released, pend, fewer, others⟩ := a.release_eq n one w
    have kept := b.grant_granted n one
    simp only [released]
    exact ⟨fun h => kept.bound (Nat.le_trans fewer h), fun r h other => kept.held r (others r h other), fun r h => b.mem_grant n one (pend ▸ h)⟩
  case choice =>
    by_cases ilk : ∃ y ∈ l, y.1 = 1
    · obtain ⟨y, hy, h1⟩ := ilk
      obtain ⟨i, x, e, at_i, rank⟩ := pickReq_rank_one last hy h1
      exact ⟨i, x, e, at_i, fun _ => rank, fun no1 => absurd h1 (no1 y hy), fun no => absurd h1 (no y hy).1⟩
    have no1 : ∀ y ∈ l, y.1 ≠ 1 := fun y hy h1 => ilk ⟨y, hy, h1⟩
    by_cases starved : ∃ y ∈ l, 16 ≤ y.2.2
    · obtain ⟨y, hy, h16⟩ := starved
      obtain ⟨i, x, e, at_i, losses⟩ := pickReq_starved last no1 hy h16
      exact ⟨i, x, e, at_i, fun h => absurd h ilk, fun _ _ => losses, fun no => absurd h16 (by have := (no y hy).2; omega)⟩
    · have few : ∀ y ∈ l, y.2.2 < 16 := fun y hy => Nat.lt_of_not_le fun h => starved ⟨y, hy, h⟩
      obtain ⟨i, x, e, at_i, rank⟩ := pickReq_highest last hl h99 fun y hy => ⟨no1 y hy, few y hy⟩
      exact ⟨i, x, e, at_i, fun h => absurd h ilk, fun _ h => absurd h starved, fun _ => rank⟩

end Sys2Proof.Machine
end

section
/-! The step without a command, and the metronome's source (R22 to R24). -/

namespace Sys2Proof.Machine

/-- Settles O1, by what a step is on a queue that is not empty. -/
theorem stepRunsTheFrontCommand : Obligations.StepRunsTheFrontCommand := fun c r s h => step_cons s c r h

/-- Settles O2, by the idle step, whose tick passes out of power-on reset only. -/
theorem idleStepCountsOneTick : Obligations.IdleStepCountsOneTick := by
  intro s h
  rw [step_nil s h]
  refine ⟨fun on => ?out, fun cold => ?under⟩
  case out => simp [State.idle, on]
  case under => simp [State.idle, cold]

/-! ### The metronome's source (R23, R24) -/

/-- A source lost: HOLDOVER and REF_LOST set, LOCK clear. -/
theorem Hw.srcLost_shows (h : Hw) : h.srcLost.flag STN_METRO_STAT_HOLDOVER 0 = true ∧ h.srcLost.flag STN_METRO_STAT_REF_LOST 0 = true ∧
    h.srcLost.flag STN_METRO_STAT_LOCK 0 = false := by
  unfold Hw.srcLost Hw.flag
  refine ⟨?_, ?_, ?_⟩
  · rw [Hw.get_put_ne (hk := by decide), Hw.get_put_ne (hk := by decide), Hw.get_put_self]; rfl
  · rw [Hw.get_put_ne (hk := by decide), Hw.get_put_self]; rfl
  · rw [Hw.get_put_self]; rfl

/-- A source lost changes nothing outside its status and leaves the source shown. -/
theorem Hw.srcLost_frame (h : Hw) : h.srcLost.now = h.now ∧ h.srcLost.units = h.units ∧ h.srcLost.engs = h.engs ∧ h.srcLost.mem = h.mem ∧
    h.srcLost.get STN_METRO_STAT_ACT_SRC 0 = h.get STN_METRO_STAT_ACT_SRC 0 := by
  have source : ∀ g : Hw, (((g.put STN_METRO_STAT_HOLDOVER 0 1).put STN_METRO_STAT_REF_LOST 0 1).put STN_METRO_STAT_LOCK 0 0).get
      STN_METRO_STAT_ACT_SRC 0 = g.get STN_METRO_STAT_ACT_SRC 0 := fun g => by
    rw [Hw.get_put_ne (hk := by decide), Hw.get_put_ne (hk := by decide), Hw.get_put_ne (hk := by decide)]
  simp only [Hw.srcLost, source]
  split
  · exact ⟨rfl, rfl, rfl, rfl, Hw.get_put_ne (hk := by decide) ..⟩
  · exact ⟨rfl, rfl, rfl, rfl, rfl⟩

/-- AUTO takes a source of the three that there are. -/
theorem Hw.autoSrc_range {h : Hw} {k : Nat} (hk : h.autoSrc = some k) : 1 ≤ k ∧ k ≤ 3 := by
  have among := List.mem_of_find?_eq_some hk
  simp only [List.mem_cons, List.not_mem_nil, or_false] at among
  omega

/-- A source taken is shown, locked. -/
theorem Hw.takeSrc_shows (h : Hw) {k : Nat} (auto : Bool) (hk : k < 4) :
    (h.takeSrc k auto).get STN_METRO_STAT_ACT_SRC 0 = k ∧ (h.takeSrc k auto).flag STN_METRO_STAT_LOCK 0 = true := by
  have shown : ∀ F : Fld, F.key 0 0 ≠ STN_METRO_STAT_SWITCH_COUNT.key 0 0 → F.key 0 0 ≠ STN_METRO_STAT_SWITCHED.key 0 0 →
      (h.takeSrc k auto).get F 0 =
        (((h.put STN_METRO_STAT_ACT_SRC 0 k).put STN_METRO_STAT_LOCK 0 1).put STN_METRO_STAT_HOLDOVER 0 0).get F 0 := fun F hc hs => by
    simp only [Hw.takeSrc, Hw.incSat]
    split <;> split <;> simp only [Hw.get_put_ne _ _ _ _ _ _ _ _ hc, Hw.get_put_ne _ _ _ _ _ _ _ _ hs]
  rw [Hw.flag, shown _ (by decide) (by decide), shown _ (by decide) (by decide)]
  refine ⟨?source, ?lock⟩
  case source =>
    rw [Hw.get_put_ne (hk := by decide), Hw.get_put_ne (hk := by decide), Hw.get_put_self]
    exact Nat.mod_eq_of_lt hk
  case lock => rw [Hw.get_put_ne (hk := by decide), Hw.get_put_self]; rfl

/-- AUTO shows that it took another source. -/
theorem Hw.takeSrc_switched {h : Hw} {k : Nat} (hk : k ≠ h.get STN_METRO_STAT_ACT_SRC 0) :
    (h.takeSrc k true).flag STN_METRO_STAT_SWITCHED 0 = true := by
  have changed : (h.get STN_METRO_STAT_ACT_SRC 0 != k) = true := by simpa using fun e => hk e.symm
  simp only [Hw.takeSrc, changed, Bool.and_self, if_true, Hw.flag, Hw.get_put_self]
  rfl

/-- Settles O22, by what each command of the source does and by what the loss and the taking of a source show. -/
theorem metronomeFollowsItsSource : Obligations.MetronomeFollowsItsSource := by
  intro s c k on
  obtain ⟨holdover, refLost, lock⟩ := s.hw.srcLost_shows
  obtain ⟨now, units, engs, mem, source⟩ := s.hw.srcLost_frame
  refine ⟨s.run_live _ on, ⟨holdover, refLost, lock, now, units, engs, mem, source⟩, fun auto best other => ?switch, fun line wait => ?returns,
    fun hc => ?present, fun hc away => ?absent⟩
  case switch =>
    obtain ⟨shown, locked⟩ := s.hw.takeSrc_shows (k := k) true (by have := Hw.autoSrc_range best; omega)
    refine ⟨(s.run_live Hw.srcSwitch on).trans ?_, shown, locked, Hw.takeSrc_switched⟩
    simp only [Hw.srcSwitch, auto, best, other, if_true, if_false]
    rfl
  case returns =>
    refine (s.run_live Hw.srcReturn on).trans ?_
    simp only [Hw.srcReturn, line, wait]
    rfl
  case present =>
    refine (s.run_live (fun h => h.refClass c) on).trans ?_
    simp only [Hw.refClass, hc, if_true]
    rfl
  case absent =>
    refine (s.run_live (fun h => h.refClass c) on).trans ?_
    have shown : (s.hw.put STN_METRO_STAT_REF_OK 0 0).get STN_METRO_STAT_ACT_SRC 0 ≠ 2 := by
      rwa [Hw.get_put_ne (hk := by decide)]
    simp only [Hw.refClass, Nat.not_le.mpr hc, shown, if_false]
    rfl

end Sys2Proof.Machine
end

section
/-! Predictions end with their outcome; resources are requested and released (R32, R36, R37). -/

namespace Sys2Proof.Machine

/-! ### Junctions (R32, R255) -/

theorem exec_predictionConfirm {s : State} (on : s.on) (p : PredSite) : exec (.predictionConfirm p) s = s.to (s.hw.predict p true) :=
  s.run_live (fun h => h.predict p true) on

theorem exec_predictionRefute {s : State} (on : s.on) (p : PredSite) : exec (.predictionRefute p) s = s.to (s.hw.predict p false) :=
  s.run_live (fun h => h.predict p false) on

/-- What a junction's confirmation makes of a step prepared on the predicted path. -/
def JPred.sure (p : JPred) (empty : Bool) (a : StepAcc) : StepAcc :=
  { a with tag := false, juncs := a.juncs ++ [(p.addr, p.taken, predSlot p)], empty := a.empty || empty }

/-- The path taken is an engine's address or an error of its step: not a prediction. -/
theorem Hw.takePath_pred (h : Hw) (e : Nat) (taken : Bool) (target next : Nat) :
    ((h.takePath e taken target next).eng e).pred = (h.eng e).pred := by
  unfold Hw.takePath
  split
  · split
    · rfl
    · simp only [Hw.insErr, Hw.modAcc, Hw.modE_eng_self]
  · rfl

section
variable {h : Hw} {e : Nat} {p : JPred} (hp : (h.eng e).pred = some p)
include hp

theorem Hw.predConfirm_holds (ht : (h.predOutcome e p).1 = p.taken) :
    h.predConfirm e = (((h.put TT_JSTAT_PENDJ e 0).modE e (fun x => { x with
      pred := none, acc := p.sure (h.predOutcome e p).2 x.acc,
      parts := x.parts.take p.parts ++
        (x.parts.drop p.parts).map (fun b => { b with acc := p.sure (h.predOutcome e p).2 b.acc }) })).stepStage e) := by
  simp only [Hw.predConfirm, hp, ht, ne_eq, not_true_eq_false, if_false, JPred.sure]

theorem Hw.predConfirm_fails (ht : (h.predOutcome e p).1 ≠ p.taken) : h.predConfirm e = h := by
  simp only [Hw.predConfirm, hp, ht, ne_eq, not_false_eq_true, if_true]

theorem Hw.predRefute_drops (ht : (h.predOutcome e p).1 ≠ p.taken) : ((h.predRefute e).eng e).pred = none := by
  simp only [Hw.predRefute, hp, ht, if_false, Hw.takePath_pred, Hw.modE_eng_self]

end

/-! ### Feed-forward predictions and range armings (R114, R197, R200) -/

section
variable {h : Hw} {u : Nat}

/-- A feed-forward prediction that stands is judged by a row that comes between the unit's ticks and says what it is. -/
theorem Hw.predict_ff (ht : (h.unit u).tail = false) (hg : (h.unit u).clk.guarded = false) (hp : (h.unit u).law.pred.isSome = true)
    (ho : (h.unit u).law.predOk = false) :
    h.predict (.ff u) (h.ffHolds u) =
      if h.ffHolds u = true then h.modU u (fun x => { x with law := { x.law with predOk := true } })
      else (h.inc DIE_SPEC_CNT_COUNT (h.dieOf u) 4).modU u (fun x => { x with law := { x.law with pred := none } }) := by
  simp only [Hw.predict, Hw.ffJudge, ht, hg, hp, ho, Bool.not_false, Bool.and_self, beq_self_eq_true, if_true]

variable {k t : Nat} (arm : (h.unit u).rng.arm = some (k, t))
include arm

theorem Hw.predict_range_used (active : (h.unit u).rng.active = true) (hk : h.get U_RANGE_STAT_SH_RNG u = k) (ht : t ≤ (h.unit u).rng.decided) :
    h.predict (.range u) true = (h.modR u (fun r => { r with arm := none, armNext := none })).setArm u false := by
  simp only [Hw.predict, arm, active, hk, ht, beq_self_eq_true, decide_true, Bool.and_self, if_true]

theorem Hw.predict_range_expired (active : (h.unit u).rng.active = false)
    (hn : t + max 1 (h.get U_AR_CFG_TTL u) * h.period u ≤ (h.unit u).clk.last) :
    h.predict (.range u) false = h.refuteArm u (h.unit u).clk.last := by
  simp only [Hw.predict, Hw.armDue, arm, active, hn, Bool.false_and, Bool.not_false, decide_true, Bool.and_self, Bool.false_eq_true, if_true,
    if_false]

end

/-! ### Tokens (R36, R37) -/

theorem exec_tokenRequest {s : State} (on : s.on) {r : Res} (up : s.hw.dieUp (resDie r) = true) (q : Req) :
    exec (.tokenRequest r q) s = s.to (s.hw.tokReq r q) := by
  refine (s.run_live (fun h => if h.dieUp (resDie r) then h.tokReq r q else h) on).trans ?_
  simp only [up, if_true]
  rfl

theorem exec_tokenRelease {s : State} (on : s.on) (r : Res) (w : Nat) : exec (.tokenRelease r w) s = s.to (s.hw.tokenFreed r w) :=
  s.run_live (fun h => h.tokenFreed r w) on

theorem Hw.tokReq_arb (h : Hw) {r : Res} (hr : ∀ d, r ≠ .points d) (q : Req) :
    h.tokReq r q =
      (let a := (h.arb r).request (h.avail r) (oneIlk r) h.now { q with losses := 0, at_ := h.now }
       h.setArb r (if usedAtOnce r then { a with since := none } else a)) := by
  cases r with
  | points d => exact absurd rfl (hr d)
  | _ => rfl

theorem Hw.tokenFreed_plain (h : Hw) {r : Res} (hp : ∀ d, r ≠ .points d) (hs : ∀ d, r ≠ .snap d) (hc : ∀ d, r ≠ .cal d) (w : Nat) :
    h.tokenFreed r w = (h.setArb r ((h.arb r).release (h.avail r) (oneIlk r) w)).settle := by
  cases r with
  | points d => exact absurd rfl (hp d)
  | snap d => exact absurd rfl (hs d)
  | cal d => exact absurd rfl (hc d)
  | _ => rfl

/-- Settles O23, site by site for the predictions, and by the resource for the tokens. -/
theorem predictionsAndTokens : Obligations.PredictionsAndTokens := by
  refine ⟨fun s e u k t p on => ⟨?confirmed, ?refuted, ?ffHolds, ?ffFails, ?used, ?expired⟩,
    fun s r q w on => ⟨?request, ?points, ?plain, ?bus, ?slot, ?noBus⟩⟩
  case confirmed =>
    intro hp ht
    rw [exec_predictionConfirm on]
    exact congrArg s.to (Hw.predConfirm_holds hp ht)
  case refuted =>
    intro hp ht
    rw [exec_predictionConfirm on]
    exact ⟨exec_predictionRefute on _, Hw.predRefute_drops hp ht, congrArg s.to (Hw.predConfirm_fails hp ht)⟩
  case ffHolds =>
    intro ht hg hp ho hf
    have judged := Hw.predict_ff ht hg hp ho
    rw [hf, if_pos rfl] at judged
    rw [exec_predictionConfirm on, judged]
  case ffFails =>
    intro ht hg hp ho hf
    have judged := Hw.predict_ff ht hg hp ho
    rw [hf, if_neg (by decide)] at judged
    rw [exec_predictionRefute on, judged]
  case used => exact fun arm active hk ht => by rw [exec_predictionConfirm on, Hw.predict_range_used arm active hk ht]
  case expired => exact fun arm active hn => by rw [exec_predictionRefute on, Hw.predict_range_expired arm active hn]
  case request => exact fun up hr => by rw [exec_tokenRequest on up, s.hw.tokReq_arb hr]
  case points =>
    rintro d rfl up
    exact exec_tokenRequest (r := .points d) on up q
  case plain => exact fun hp hs hc => by rw [exec_tokenRelease on, s.hw.tokenFreed_plain hp hs hc]
  case bus =>
    rintro d rfl
    exact exec_tokenRelease on _ w
  case slot =>
    rintro d rfl
    exact exec_tokenRelease on _ w
  case noBus =>
    rintro d rfl
    exact exec_tokenRelease on _ w

end Sys2Proof.Machine
end

section
/-! A unit's tick and the guard instant before it: their order, and what a tick commits or drops (R25 to R28, R38, R89, R122, R128). -/

namespace Sys2Proof.Machine

/-! ### The tick (R25, R70, R71, R128) -/

theorem exec_loopTick {s : State} (on : s.on) (u n : Nat) (smp : List (Nat × Sample)) : exec (.loopTick u n smp) s = s.to (s.hw.loopTick u n smp) :=
  s.run_live (fun h => h.loopTick u n smp) on

theorem exec_guardInstant {s : State} (on : s.on) (u : Nat) (late bad : Bool) :
    exec (.guardInstant u late bad) s = s.to (s.hw.guardInstant u late bad) :=
  s.run_live (fun h => h.guardInstant u late bad) on

theorem Hw.loopTick_ok {h : Hw} {u n : Nat} (ok : h.tickOk u n = true) (smp : List (Nat × Sample)) :
    h.loopTick u n smp = ((((h.finishTick u).guardInstant u false false).tickHead u n smp).tailIf u) := by
  rw [Hw.loopTick, if_pos ok]

theorem Hw.loopTick_not_ok {h : Hw} {u n : Nat} (ok : h.tickOk u n = false) (smp : List (Nat × Sample)) : h.loopTick u n smp = h := by
  rw [Hw.loopTick, if_neg (by simp [ok])]

theorem Hw.tickStart_now (h : Hw) (u n : Nat) : (h.tickStart u n).now = n := rfl

/-- A tick begins at its count, and owes its second part. -/
theorem Hw.tickStart_unit (h : Hw) (u n : Nat) :
    ((h.tickStart u n).unit u).clk.last = n ∧ ((h.tickStart u n).unit u).clk.ticked = true ∧ ((h.tickStart u n).unit u).tail = true := by
  simp only [Hw.tickStart, Hw.modU_unit_self, and_self]

theorem Hw.tickStart_rate {h : Hw} {u n r : Nat} (hr : h.rateAt u n = some r) : (h.tickStart u n).get U_LOOP_CTRL_RATE u = r % 8 := by
  have set : (h.tickStart u n).get U_LOOP_CTRL_RATE u = (h.put U_LOOP_CTRL_RATE u r).get U_LOOP_CTRL_RATE u := by
    simp only [Hw.tickStart, hr]
    rfl
  exact set.trans (h.get_put_self _ _ _ _)

theorem Hw.finishTick_of_done {h : Hw} {u : Nat} (ht : (h.unit u).tail = false) : h.finishTick u = h := by
  rw [Hw.finishTick, if_neg (by simp [ht])]

/-! ### The guard instant (R26 to R28, R38) -/

theorem Hw.setArb_units (h : Hw) (r : Res) (a : ArbS) : (h.setArb r a).units = h.units := by
  unfold Hw.setArb
  cases r <;> rfl

theorem Hw.withdrawBound_units (h : Hw) (u : Nat) : (h.withdrawBound u).units = h.units := by
  unfold Hw.withdrawBound
  generalize (List.range 8).flatMap dieRes = l
  induction l generalizing h with
  | nil => rfl
  | cons r l ih =>
    refine (ih _).trans ?_
    dsimp only
    split
    · rfl
    · rw [Hw.put_units, Hw.setArb_units]

/-- A feed-forward prediction is made in the unit's law. -/
theorem Hw.ffGuard_unit (h : Hw) (u : Nat) (late : Bool) :
    ((h.ffGuard u late).unit u).clk = (h.unit u).clk ∧ ((h.ffGuard u late).unit u).ref = (h.unit u).ref := by
  simp only [Hw.ffGuard, Hw.modU_unit_self]
  split <;> exact ⟨rfl, rfl⟩

/-- The unit as its guard instant leaves it: what its reference queue holds counts for the tick. -/
def UnitS.guarded (late bad : Bool) (x : UnitS) : UnitS :=
  { x with ref := { x.ref with ready := x.ref.q.length }, clk := { x.clk with guarded := true, late := late, stepLate := bad } }

/-- A guard instant that has not passed ends with the unit's clock and queue, its feed-forward prediction and the requests withdrawn. -/
theorem Hw.guardInstant_passes {h : Hw} {u : Nat} (late stepLate : Bool) (hu : isUnit u = true) (hr : h.runs u = true) (hh : h.headOf u = u)
    (ht : (h.unit u).tail = false) (hg : (h.unit u).clk.guarded = false) :
    ∃ (k : Hw) (bad : Bool), let l := (late || (h.boundRanks u).contains 3) && h.get U_STATE_STATE u != 1
      h.guardInstant u late stepLate = ((k.modU u (UnitS.guarded l bad)).ffGuard u l).withdrawBound u := by
  simp only [Hw.guardInstant, hu, hr, hh, hg, Hw.finishTick_of_done ht, Bool.and_self, beq_self_eq_true, Bool.not_false, if_true]
  exact ⟨_, _, rfl⟩

theorem Hw.guardInstant_shows (k : Hw) (u : Nat) (late bad : Bool) :
    let g := ((k.modU u (UnitS.guarded late bad)).ffGuard u late).withdrawBound u
    (g.unit u).clk.guarded = true ∧ (g.unit u).ref.ready = (g.unit u).ref.q.length ∧ (g.unit u).clk.late = late := by
  intro g
  have same : g.unit u = ((k.modU u (UnitS.guarded late bad)).ffGuard u late).unit u := by
    simp only [g, Hw.unit, Hw.withdrawBound_units]
  obtain ⟨clk, ref⟩ := (k.modU u (UnitS.guarded late bad)).ffGuard_unit u late
  rw [same, clk, ref, Hw.modU_unit_self]
  exact ⟨rfl, rfl, rfl⟩

theorem Hw.guardInstant_passed {h : Hw} {u : Nat} (late stepLate : Bool) (ht : (h.unit u).tail = false)
    (hd : (h.unit u).clk.guarded = true ∨ isUnit u = false ∨ h.runs u = false) : h.guardInstant u late stepLate = h := by
  have finished : (if (isUnit u && h.runs u) = true then h.finishTick u else h) = h := by rw [Hw.finishTick_of_done ht, ite_self]
  have passed : ¬ (isUnit u && h.runs u && h.headOf u == u && !(h.unit u).clk.guarded) = true := by
    rcases hd with guarded | noUnit | stands
    · simp [guarded]
    · simp [noUnit]
    · simp [stands]
  simp only [Hw.guardInstant, finished]
  exact if_neg passed

/-! ### Commit or drop (R28, R89, R91, R122) -/

/-- The registers that give a drive buffer's mode (R91, R95). -/
def bufferFields : List Fld := [U_STATE_STATE, U_FAULT_ISOLATED, U_DRV_STAT_DRV_OT]

/-- `g` reads the fields `fs` of unit `u` as `h` does, and has the unit's off-load record and its siding. -/
structure Hw.SameIn (fs : List Fld) (u : Nat) (h g : Hw) : Prop where
  get : ∀ F ∈ fs, g.get F u = h.get F u
  safe : (g.unit u).safe = (h.unit u).safe
  sid : (g.unit u).sid = (h.unit u).sid

namespace Hw.SameIn

variable {fs : List Fld} {u : Nat} {h g : Hw}

theorem refl (fs : List Fld) (u : Nat) (h : Hw) : SameIn fs u h h := ⟨fun _ _ => rfl, rfl, rfl⟩

/-- A field at another place is set. -/
theorem put (k : SameIn fs u h g) {f : Fld} {i v : Nat} (hf : f.stride = 0 ∧ ∀ F ∈ fs, F.stride = 0 ∧ F.pos ≠ f.pos := by decide) :
    SameIn fs u h (g.put f i v) :=
  ⟨fun F hF => (g.get_put_ne f i v 0 F u 0 (F.key_ne_of_pos f u i (hf.2 F hF).2 (hf.2 F hF).1 hf.1)).trans (k.get F hF), k.safe, k.sid⟩

theorem modU (k : SameIn fs u h g) {f : UnitS → UnitS} (hf : ∀ x, (f x).safe = x.safe ∧ (f x).sid = x.sid := by exact fun _ => ⟨rfl, rfl⟩) :
    SameIn fs u h (g.modU u f) :=
  ⟨k.get, by rw [g.modU_unit_self, (hf _).1, k.safe], by rw [g.modU_unit_self, (hf _).2, k.sid]⟩

theorem ite {x : Hw} {c : Prop} [Decidable c] (a : SameIn fs u h g) (b : SameIn fs u h x) : SameIn fs u h (if c then g else x) := by
  split
  · exact a
  · exact b

theorem bufMode (k : SameIn fs u h g) (hf : ∀ F ∈ bufferFields, F ∈ fs := by decide) : g.bufMode u = h.bufMode u := by
  have same : ∀ F ∈ bufferFields, g.get F u = h.get F u := fun F hF => k.get F (hf F hF)
  unfold Hw.bufMode Hw.st Hw.flag
  dsimp only
  rw [same U_STATE_STATE (by decide), same U_FAULT_ISOLATED (by decide), same U_DRV_STAT_DRV_OT (by decide), k.safe, k.sid]

end Hw.SameIn

/-- A field at another place reads as before, in any unit. -/
theorem Hw.get_put_pos (h : Hw) {f F : Fld} (i v j : Nat) (hp : F.pos ≠ f.pos ∧ F.stride = 0 ∧ f.stride = 0) :
    (h.put f i v).get F j = h.get F j :=
  h.get_put_ne f i v 0 F j 0 (F.key_ne_of_pos f j i hp.1 hp.2.1 hp.2.2)

theorem sx32_mod (n : Nat) : sx32 (n % 2 ^ 32) = sx32 n := by simp only [sx32, Nat.mod_mod]

/-- A channel or siding ticks by itself: no member ticks with it. -/
theorem Hw.tree_plain (h : Hw) {u : Nat} (hu : isPlain u = true) : h.tree u = [u] := by
  have alone : isConsist u = false := by
    simp only [isPlain, isChan, isSiding, Bool.or_eq_true, Bool.and_eq_true, decide_eq_true_eq] at hu
    simp only [isConsist, Bool.and_eq_false_iff, decide_eq_false_iff_not]
    omega
  simp [Hw.tree, Hw.below, alone]

/-- Work that is not tagged sets the drive code to its drive, and changes nothing that gives the buffer's mode. -/
theorem Hw.commitWork_sets {h : Hw} {u : Nat} {w : Work} (n : Nat) (head : Bool) (hw : (h.unit u).law.work = some w) (tag : w.tag = false) :
    Hw.SameIn (U_DRV_CODE_CODE :: bufferFields) u (h.putC U_DRV_CODE_CODE u w.drive) (h.commitWork u n head) := by
  simp only [Hw.commitWork, hw, tag, Bool.false_eq_true, if_false]
  refine SameIn.ite (SameIn.modU (SameIn.put (SameIn.put ?_))) ?_ <;>
    exact ((SameIn.put (.refl _ u _)).ite (.refl _ u _)).put.modU

/-- The unit with its period's work gone. -/
def UnitS.noWork (x : UnitS) : UnitS := { x with law := { x.law with work := none } }

/-- The unit with compliance noted at tick `n`. -/
def UnitS.complAt (n : Nat) (x : UnitS) : UnitS := { x with law := { x.law with complAt := some n } }

/-- The unit notes COMPLIANCE as it stands before its commit. -/
def Hw.noteCompl (h : Hw) (u : Nat) : Hw := h.modU u (fun x => { x with law := { x.law with prevCompl := h.flag U_STATE_COMPLIANCE u } })

@[simp] theorem Hw.get_dacTake (h : Hw) (u : Nat) (F : Fld) (j k : Nat) : (h.dacTake u).get F j k = h.get F j k := rfl

theorem Hw.dacTake_law (h : Hw) (u : Nat) : ((h.dacTake u).unit u).law = (h.unit u).law := by simp only [Hw.dacTake, Hw.modU_unit_self]

section
variable {h : Hw} {u n : Nat} (hu : isPlain u = true)
include hu

theorem Hw.commitTick_on_time (hb : ((h.noteCompl u).commitWork u n true).bufMode u ≠ 0) :
    h.commitTick u n false =
      ((((h.noteCompl u).commitWork u n true).put U_LATE_STAT_RUN u 0).modW u (fun w => { w with rLate := false })).dacTake u := by
  have mode := ((((SameIn.refl bufferFields u ((h.noteCompl u).commitWork u n true)).put (f := U_LATE_STAT_RUN) (i := u) (v := 0))).modU
    (f := fun x => { x with wat := { x.wat with rLate := false } })).bufMode
  simp only [Hw.noteCompl] at mode hb
  simp only [Hw.commitTick, Hw.tree_plain _ hu, Hw.each, List.foldl_cons, List.foldl_nil, Bool.false_eq_true, if_false, beq_self_eq_true, hu, if_true,
    Hw.modW, mode, hb, Hw.noteCompl]

theorem Hw.commitTick_late (hb : ((h.noteCompl u).dropWork u n).bufMode u ≠ 0) :
    h.commitTick u n true = ((h.noteCompl u).dropWork u n).dacTake u := by
  simp only [Hw.noteCompl] at hb
  simp only [Hw.commitTick, Hw.tree_plain _ hu, Hw.each, List.foldl_cons, List.foldl_nil, hu, if_true, hb, if_false, Hw.noteCompl]

/-- What a late period does to the unit where the loop is not being closed: the work goes, and the counters advance. -/
theorem Hw.dropWork_counts (init : (h.unit u).law.init = none) :
    ∃ (run most : Nat) (compl : Bool),
      let g := (((h.modU u UnitS.noWork).inc U_LATE_COUNT_COUNT u).put U_LATE_STAT_RUN u run).put U_LATE_STAT_MAX u most
      h.dropWork u n = if compl = true then g.modU u (UnitS.complAt n) else g := by
  have kept : ((h.modU u UnitS.noWork).unit u).law.init = none := by rw [Hw.modU_unit_self]; exact init
  unfold UnitS.noWork at kept
  simp only [Hw.dropWork, Hw.tree_plain _ hu, Hw.each, List.foldl_cons, List.foldl_nil, kept]
  exact ⟨_, _, _, rfl⟩

/-- A late period changes nothing that gives the buffer's mode, and repeats the drive where the loop is not being closed. -/
theorem Hw.dropWork_shows (init : (h.unit u).law.init = none) :
    Hw.SameIn (U_DRV_CODE_CODE :: bufferFields) u h (h.dropWork u n) ∧ ((h.dropWork u n).unit u).law.work = none ∧
      (h.dropWork u n).get U_LATE_COUNT_COUNT u = (h.get U_LATE_COUNT_COUNT u + 1) % 2 ^ U_LATE_COUNT_COUNT.width := by
  obtain ⟨run, most, compl, dropped⟩ := h.dropWork_counts (n := n) hu init
  rw [dropped]
  have counted := (SameIn.refl (U_DRV_CODE_CODE :: bufferFields) u h).modU (f := UnitS.noWork) |>.put (f := U_LATE_COUNT_COUNT) (i := u)
    (v := h.get U_LATE_COUNT_COUNT u + 1) |>.put (f := U_LATE_STAT_RUN) (i := u) (v := run) |>.put (f := U_LATE_STAT_MAX) (i := u) (v := most)
  refine ⟨counted.modU.ite counted, ?work, ?count⟩
  case work => cases compl <;> simp [UnitS.noWork, UnitS.complAt, Hw.inc]
  case count =>
    rw [apply_ite (fun g : Hw => g.get U_LATE_COUNT_COUNT u), Hw.get_of_modU, ite_self, Hw.get_put_pos _ _ _ _ (by decide),
      Hw.get_put_pos _ _ _ _ (by decide), Hw.inc, Hw.get_put_self, Hw.get_of_modU]

end

/-! ### The order of a tick -/

/-- Settles O17: a tick and a guard instant by their guards, a commit and a late period by what each sets. -/
theorem loopTickDoesTheFixedOrder : Obligations.LoopTickDoesTheFixedOrder := by
  refine ⟨fun s u n smp on => ⟨fun ok => ?tick, fun ok => ?noTick⟩, fun s u late bad on hu hr hh ht hg => ?guard,
    fun s u late bad on ht hd => ?guarded, fun h u n hu hb => ⟨fun w hw tag => ?onTime, fun init => ?late⟩⟩
  case tick =>
    intro g
    obtain ⟨last, ticked, tail⟩ := g.tickStart_unit u n
    exact ⟨by rw [exec_loopTick on, Hw.loopTick_ok ok], rfl, last, ticked, tail, fun r hr => Hw.tickStart_rate hr⟩
  case noTick => rw [exec_loopTick on, Hw.loopTick_not_ok ok]
  case guard =>
    obtain ⟨k, step, passes⟩ := Hw.guardInstant_passes late bad hu hr hh ht hg
    refine ⟨_, exec_guardInstant on u late bad, ?_⟩
    rw [passes]
    exact k.guardInstant_shows u _ step
  case guarded => rw [exec_guardInstant on, Hw.guardInstant_passed late bad ht hd]
  case onTime =>
    have sets := Hw.commitWork_sets (h := h.noteCompl u) n true (by rw [Hw.noteCompl, Hw.modU_unit_self]; exact hw) tag
    have mode : ((h.noteCompl u).commitWork u n true).bufMode u = h.bufMode u :=
      sets.bufMode.trans ((Hw.SameIn.refl bufferFields u h).modU.put).bufMode
    rw [Hw.commitTick_on_time hu (by rw [mode]; exact hb)]
    refine ⟨?drive, ?run⟩
    case drive =>
      rw [Hw.code, Hw.get_dacTake, Hw.modW, Hw.get_of_modU, Hw.get_put_pos _ _ _ _ (by decide), sets.get _ (by decide), Hw.putC,
        Hw.get_put_self]
      exact sx32_mod _
    case run =>
      rw [Hw.get_dacTake, Hw.modW, Hw.get_of_modU, Hw.get_put_self]
      rfl
  case late =>
    obtain ⟨same, work, count⟩ := Hw.dropWork_shows (h := h.noteCompl u) (n := n) hu (by rw [Hw.noteCompl, Hw.modU_unit_self]; exact init)
    have mode : ((h.noteCompl u).dropWork u n).bufMode u = h.bufMode u := same.bufMode.trans ((Hw.SameIn.refl bufferFields u h).modU).bufMode
    rw [Hw.commitTick_late hu (by rw [mode]; exact hb)]
    refine ⟨?drive, ?work, ?count⟩
    case drive => rw [Hw.code, Hw.get_dacTake, same.get _ (by decide)]; rfl
    case work => rw [Hw.dacTake_law]; exact work
    case count => rw [Hw.get_dacTake]; exact count

end Sys2Proof.Machine
end

section
/-! Power-on reset: what its assertion and its release change, and the values of reset (R69, R97, R316, R356, R357, R378, R421). -/

namespace Sys2Proof.Machine

/-! ### Fields at other places (R10) -/

/-- Field `f` lies nowhere at a place of field `F`, which a block has once. -/
abbrev Fld.Apart (F f : Fld) : Prop := F.stride = 0 ∧ (F.blk ≠ f.blk ∨ F.pos < f.pos ∨ (f.pos < F.pos ∧ f.stride = 0))

theorem Fld.Apart.key_ne {F f : Fld} (a : F.Apart f) (j i k : Nat) : F.key j 0 ≠ f.key i k := by
  obtain ⟨stride, blk | above | ⟨below, single⟩⟩ := a <;> intro same
  · exact blk (congrArg RegKey.blk same)
  · have pos := congrArg RegKey.pos same
    simp only [Fld.key, stride] at pos
    omega
  · have pos := congrArg RegKey.pos same
    simp only [Fld.key, stride, single] at pos
    omega

/-- `g` reads the fields `fs` as `h` does, in every block of their kind. -/
def Hw.SameFields (fs : List Fld) (h g : Hw) : Prop := ∀ F ∈ fs, ∀ j, g.get F j = h.get F j

theorem Hw.SameFields.put {fs : List Fld} {h g : Hw} (k : SameFields fs h g) {f : Fld} {i v n : Nat} (hf : ∀ F ∈ fs, F.Apart f := by decide) :
    SameFields fs h (g.put f i v n) :=
  fun F hF j => (g.get_put_ne f i v n F j 0 ((hf F hF).key_ne j i n)).trans (k F hF j)

/-! ### Frames of operations built from others -/

theorem Hw.each_keeps {α : Type} {P : Hw → Prop} {h : Hw} {l : List α} {f : Hw → α → Hw} (hh : P h) (hf : ∀ x a, P x → P (f x a)) :
    P (h.each l f) := by
  induction l generalizing h with
  | nil => exact hh
  | cons a l ih => exact ih (hf h a hh)

theorem Hw.ite_keeps {P : Hw → Prop} {g x : Hw} {c : Prop} [Decidable c] (a : P g) (b : P x) : P (if c then g else x) := by
  split
  · exact a
  · exact b

/-! ### Assertion (R69, R97, R316, R421) -/

/-- Settles O6: every command but the release of reset is an operation on the hardware, and none is carried out in COLD. -/
theorem nothingActsUnderReset : Obligations.NothingActsUnderReset := by
  intro c s cold hc
  obtain ⟨f, hf⟩ := exec_run c s hc
  exact hf.trans (s.run_cold f cold)

theorem exec_powerOnResetAssert {s : State} (on : s.on) :
    exec .powerOnResetAssert s = s.to { (s.hw.each (List.range 8) Hw.isoAssert).each (List.range 8) Hw.nvCut with cold := true } :=
  s.run_live (fun h => { (h.each (List.range 8) Hw.isoAssert).each (List.range 8) Hw.nvCut with cold := true }) on

theorem Hw.get_isoAssert (h : Hw) (e : Nat) (F : Fld) (j n : Nat) : (h.isoAssert e).get F j n = (h.put ILK_STAT_ISO_REL e 0).get F j n := rfl

/-- The assertion of ISO_N shows in ILK_STAT.ISO_REL of its die, and leaves the arbiters of NVM. -/
structure Hw.OnlyIso (h g : Hw) : Prop where
  mem : g.mem = h.mem
  units : g.units = h.units
  engs : g.engs = h.engs
  nv : g.nv = h.nv
  nvm : ∀ d, g.arb (.nvm d) = h.arb (.nvm d)
  get : ∀ (f : Fld) (i k : Nat), (∀ d, f.key i k ≠ ILK_STAT_ISO_REL.key d 0) → g.get f i k = h.get f i k

theorem Hw.OnlyIso.refl (h : Hw) : OnlyIso h h := ⟨rfl, rfl, rfl, rfl, fun _ => rfl, fun _ _ _ _ => rfl⟩

theorem Hw.OnlyIso.isoAssert {h g : Hw} (k : OnlyIso h g) (e : Nat) : OnlyIso h (g.isoAssert e) := by
  refine ⟨k.mem, k.units, k.engs, k.nv, fun d => Eq.trans ?_ (k.nvm d), fun f i n hf => ?_⟩
  · by_cases hd : d = e
    · subst hd; simp [Hw.arb, Hw.isoAssert, resDie, DieS.arb]
    · simp [Hw.arb, Hw.isoAssert, resDie, DieS.arb, Hw.modD_die_ne _ _ _ _ hd]
  · rw [g.get_isoAssert, g.get_put_ne _ _ _ _ _ _ _ (hf e), k.get f i n hf]

theorem Hw.OnlyIso.each {h g : Hw} (k : OnlyIso h g) (l : List Nat) : OnlyIso h (g.each l Hw.isoAssert) :=
  each_keeps k fun _ e kx => kx.isoAssert e

theorem Hw.isoAssert_all (l : List Nat) (h : Hw) (d : Nat) (hd : d ∈ l ∨ h.get ILK_STAT_ISO_REL d = 0) :
    (h.each l Hw.isoAssert).get ILK_STAT_ISO_REL d = 0 := by
  induction l generalizing h with
  | nil => simpa [Hw.each] using hd
  | cons e l ih =>
    refine ih (h.isoAssert e) ?_
    rw [h.get_isoAssert, h.get_put]
    by_cases same : d = e
    · subst same; simp
    · have other : ILK_STAT_ISO_REL.key d 0 ≠ ILK_STAT_ISO_REL.key e 0 := fun k => same (congrArg RegKey.inst k)
      rw [if_neg other]
      exact hd.imp_left fun mem => (List.mem_cons.mp mem).resolve_left same

/-- No page program of a store is cut on dies of whose NVM no store holds the token (R316). -/
theorem Hw.nvCut_none (l : List Nat) (h : Hw) (hl : ∀ d ∈ l, (h.arb (.nvm d)).hold.any (fun r => r.who == 2) = false) :
    h.each l Hw.nvCut = h := by
  induction l with
  | nil => rfl
  | cons d l ih =>
    have idle : h.nvCut d = h := by rw [Hw.nvCut, hl d List.mem_cons_self]; rfl
    have rest := ih fun e he => hl e (List.mem_cons_of_mem d he)
    rw [Hw.each, List.foldl_cons, idle]
    exact rest

/-! ### Release (R98, R356, R357, R378, R421) -/

/-- The straps that the release of reset shows. -/
def strapFields : List Fld := [STN_BOOT_BOOTSEL, STN_BOOT_STNMODE]

/-- `g` shows the straps, the count, the units and the engines of `h`, and whether power-on reset is asserted. -/
structure Hw.Boots (h g : Hw) : Prop where
  cold : g.cold = h.cold
  now : g.now = h.now
  units : g.units = h.units
  engs : g.engs = h.engs
  straps : SameFields strapFields h g

namespace Hw.Boots

variable {h g : Hw}

theorem refl (h : Hw) : Boots h h := ⟨rfl, rfl, rfl, rfl, fun _ _ _ => rfl⟩

theorem put (k : Boots h g) {f : Fld} {i v n : Nat} (hf : ∀ F ∈ strapFields, F.Apart f := by decide) : Boots h (g.put f i v n) :=
  ⟨k.cold, k.now, k.units, k.engs, k.straps.put hf⟩

theorem putB (k : Boots h g) {f : Fld} {i n : Nat} {b : Bool} (hf : ∀ F ∈ strapFields, F.Apart f := by decide) : Boots h (g.putB f i b n) :=
  k.put hf

/-- A change of anything else. -/
theorem other (k : Boots h g) {x : Hw} (hcold : x.cold = g.cold := by rfl) (hnow : x.now = g.now := by rfl) (hunits : x.units = g.units := by rfl)
    (hengs : x.engs = g.engs := by rfl) (hregs : x.regs = g.regs := by rfl) : Boots h x :=
  ⟨hcold.trans k.cold, hnow.trans k.now, hunits.trans k.units, hengs.trans k.engs,
    fun F hF j => Eq.trans (by simp only [Hw.get, hregs]) (k.straps F hF j)⟩

theorem each {α : Type} (k : Boots h g) {l : List α} {f : Hw → α → Hw} (hf : ∀ x a, Boots h x → Boots h (f x a)) : Boots h (g.each l f) :=
  each_keeps k hf

theorem ite {x : Hw} {c : Prop} [Decidable c] (a : Boots h g) (b : Boots h x) : Boots h (if c then g else x) :=
  ite_keeps a b

theorem audAsk (k : Boots h g) : Boots h g.audAsk := by
  unfold Hw.audAsk
  exact k.ite k.other

theorem audShow (k : Boots h g) : Boots h g.audShow := by
  unfold Hw.audShow
  exact k.put.put.put.put

theorem audit (k : Boots h g) {kind die arg : Nat} {ext : List Nat} : Boots h (g.audit kind die arg ext) := by
  unfold Hw.audit
  exact ((k.put (f := STN_AUD_LOST_COUNT)).other).ite k.other.audAsk.audShow

theorem setStn (k : Boots h g) {n : Nat} : Boots h (g.setStn n) := by
  unfold Hw.setStn
  exact k.ite k.put.put

theorem hold (k : Boots h g) {cause : Nat} : Boots h (g.hold cause) := k.other.put.put.setStn.audit

theorem keyShown (k : Boots h g) : Boots h g.keyShown := (k.put.putB.putB).each fun _ _ kx => kx.put

end Hw.Boots

/-- The hardware that the release of reset leaves, before a station whose BOOTSEL is high is HELD: the straps and the head dies' flash devices
shown, and step 2 of start-up. -/
def Hw.released (h : Hw) (b n : Bool) (f g : Nat) : Hw :=
  let h := ((h.afterLoss.putB STN_BOOT_BOOTSEL 0 b).putB STN_BOOT_STNMODE 0 n).putB STN_STATE_RELIEF 0 b
  let h := h.each [0, 1] (fun h k =>
    let v := if k = 0 then f else g
    ((h.put STN_XSPI_STAT_MODE 0 (if !bit v 0 then 0 else if bit v 1 then 3 else 2) k).put STN_XSPI_STAT_CAP 0 (bits v 7 2) k).put STN_XSPI_STAT_SECT 0 (bits v 12 8) k)
  (h.each [0, 1] (fun h p => h.put TW_PORT_CFG_MODE p (h.startMode p))).keyShown.setStep 2

theorem Hw.powerUp_eq (h : Hw) (b n : Bool) (f g : Nat) :
    h.powerUp b n f g = if b && !(h.released b n f g).flag STN_RELIEF_EN 0 then (h.released b n f g).hold 2 else h.released b n f g := rfl

theorem Hw.powerUp_boots (h : Hw) (b n : Bool) (f g : Nat) :
    ((h.afterLoss.putB STN_BOOT_BOOTSEL 0 b).putB STN_BOOT_STNMODE 0 n).Boots (h.powerUp b n f g) := by
  rw [h.powerUp_eq]
  refine Hw.Boots.ite (Hw.Boots.hold ?_) ?_ <;>
    exact (((Hw.Boots.refl _).putB.each fun _ _ k => k.put.put.put).each fun _ _ k => k.put).keyShown.put

theorem Hw.flag_putB_self (h : Hw) (f : Fld) (i : Nat) (b : Bool) (hf : f.width = 1) : (h.putB f i b).flag f i = b := by
  rw [Hw.flag, Hw.putB, h.get_put_self, hf]
  cases b <;> rfl

theorem Hw.powerUp_straps (h : Hw) (b n : Bool) (f g : Nat) :
    (h.powerUp b n f g).flag STN_BOOT_BOOTSEL 0 = b ∧ (h.powerUp b n f g).flag STN_BOOT_STNMODE 0 = n := by
  obtain ⟨-, -, -, -, straps⟩ := h.powerUp_boots b n f g
  constructor
  · rw [Hw.flag, straps STN_BOOT_BOOTSEL (by decide)]
    rw [Hw.putB, Hw.get_put_ne _ STN_BOOT_STNMODE 0 _ 0 STN_BOOT_BOOTSEL 0 0 (by decide)]
    exact Hw.flag_putB_self _ _ _ _ rfl
  · rw [Hw.flag, straps STN_BOOT_STNMODE (by decide)]
    exact Hw.flag_putB_self _ _ _ _ rfl

/-- Start-up is at step 2 where BOOTSEL is low (R357). -/
theorem Hw.powerUp_step (h : Hw) (n : Bool) (f g : Nat) : (h.powerUp false n f g).get STN_BOOT_STEP 0 = 2 := by
  rw [h.powerUp_eq, Bool.false_and, if_neg Bool.false_ne_true]
  exact Hw.get_put_self _ _ _ _ _

/-- Settles O7: ISO_N die by die, the cut of a store where one holds NVM, and what the release shows and keeps (log
entries 2, 3, 6 and 90). -/
theorem resetAssertsAndReleases : Obligations.ResetAssertsAndReleases := by
  refine ⟨fun s on => ⟨exec_powerOnResetAssert on, fun d hd => ?asserted, fun idle => ?frame⟩, fun s b n f g cold => ?release⟩
  case asserted =>
    rw [Hw.flag, Hw.isoAssert_all _ s.hw d (.inl (List.mem_range.mpr hd))]
    rfl
  case frame =>
    have iso := (Hw.OnlyIso.refl s.hw).each (List.range 8)
    have uncut := Hw.nvCut_none (List.range 8) (s.hw.each (List.range 8) Hw.isoAssert) fun d hd => by
      rw [iso.nvm]
      exact idle d (List.mem_range.mp hd)
    rw [uncut]
    exact ⟨rfl, iso.mem, iso.units, iso.engs, iso.nv, iso.get⟩
  case release =>
    have boots := s.hw.powerUp_boots b n f g
    have keeps := s.hw.powerUp_keeps b n f g
    refine ⟨?released, boots.cold, boots.now, keeps.nv, fun none => ?unburnt, fun low => ?step, boots.units, boots.engs, ?flash,
      s.hw.powerUp_straps b n f g⟩
    case released => rw [exec_powerOnResetRelease, if_pos cold]
    case unburnt => rw [Hw.burnCut, none]
    case step =>
      subst low
      exact s.hw.powerUp_step n f g
    case flash => rw [keeps.mem, Hw.afterLoss, Hw.burnCut_mem]

/-! ### The values of reset (R66, R421) -/

/-- The state right after reset lists no register: a field reads the Reset column of its table. -/
theorem get_reset (f : Fld) (i k : Nat) : State.reset.hw.get f i k = resetOf f i k := rfl

/-- Settles O8: each value is the Reset column's, in every unit, engine and queue. -/
theorem resetHoldsTheTableValues : Obligations.ResetHoldsTheTableValues := by
  refine ⟨rfl, rfl, rfl, fun u => ?unit, fun e => ?engine, fun q => ?queue, ?station⟩
  case unit =>
    simp only [Hw.st, Hw.flag, get_reset]
    exact ⟨rfl, rfl, rfl, rfl, rfl, rfl, rfl⟩
  case engine =>
    simp only [Hw.flag, get_reset]
    exact ⟨rfl, rfl, rfl⟩
  case queue =>
    simp only [get_reset]
    exact ⟨rfl, rfl⟩
  case station =>
    simp only [Hw.flag, get_reset]
    exact ⟨rfl, rfl, rfl⟩

end Sys2Proof.Machine
end

section
/-! Reads of snapshot objects and of the C32-compatible window: the slot that holds a copy, its release, and the miss (R35, R62 to R65, R176,
R276). -/

namespace Sys2Proof.Machine

/-! ### The read of a snapshot object (R62, R63) -/

theorem exec_snapLowestRead {s : State} (on : s.on) (m : Master) (a : Nat) (ecc : List (Nat × Bool)) :
    exec (.snapLowestRead m none a ecc) s = s.to (((s.hw.meets ecc).snapCmd m a true).settle) :=
  s.run_live (fun h => (h.meets ecc).accessSnap m none a true) on

theorem exec_snapHigherRead {s : State} (on : s.on) (m : Master) (a : Nat) :
    exec (.snapHigherRead m none a) s = s.to ((s.hw.snapCmd m a false).settle) :=
  s.run_live (fun h => h.accessSnap m none a false) on

section
variable {h : Hw} {m : Master} {a i lo off n : Nat} {b : Blk}

theorem Hw.snapCmd_low (serves : h.servesMaster m = true) (hp : h.place a 4 = .reg b i lo) (ho : snapObj b lo = some (lo, n)) :
    h.snapCmd m a true =
      (let r := (h.readCheck b i).snapLow m b i lo n none
       match r.1 with | some v => r.2.answer m 0 [v] | none => r.2) := by
  simp only [Hw.snapCmd, Hw.masterRead, hp, ho, serves, beq_self_eq_true, Bool.and_self, if_true]
  cases ((h.readCheck b i).snapLow m b i lo n none).1 <;> rfl

theorem Hw.snapCmd_high (serves : h.servesMaster m = true) (hp : h.place a 4 = .reg b i off) (ho : snapObj b off = some (lo, n)) (hl : off ≠ lo) :
    h.snapCmd m a false =
      (let r := (h.readCheck b i).snapHigh m b i off lo
       r.2.answer m (b2n r.1.2) [r.1.1]) := by
  have higher : (off == lo) = false := by simp [hl]
  simp only [Hw.snapCmd, Hw.masterRead, hp, ho, serves, higher, beq_self_eq_true, Bool.and_self, if_true, if_neg hl]

/-! The lowest word, by a master that holds a slot: the copy under the token it needs (R35, R62, R276). -/

theorem Hw.snapLow_held (hs : (h.slotOf (h.snapDie b i) (masterNo m)).isSome = true) (job : Option Job) :
    h.snapLow m b i lo n job = h.snapTry { m := m, blk := b, inst := i, off := lo, job := job } lo n := by
  simp only [Hw.snapLow, hs, if_true]

variable {w : SnapWait} {r : Res}

theorem Hw.snapTry_free (ht : h.headTok w.blk w.inst lo = none) :
    h.snapTry w lo n =
      (let c := h.snapFill (h.snapDie w.blk w.inst) (masterNo w.m) w.blk w.inst lo n
       (some c.1, c.2)) := by
  simp only [Hw.snapTry, ht]

theorem Hw.snapTry_token (ht : h.headTok w.blk w.inst lo = some r) (held : (h.twAsk r (twHost w.m) 6).holds r (twHost w.m) = true) :
    h.snapTry w lo n =
      (let c := (h.twAsk r (twHost w.m) 6).snapFill (h.snapDie w.blk w.inst) (masterNo w.m) w.blk w.inst lo n
       (some c.1, c.2.tokRel r (twHost w.m))) := by
  simp only [Hw.snapTry, ht, held, if_true]

theorem Hw.snapTry_waits (ht : h.headTok w.blk w.inst lo = some r) (held : (h.twAsk r (twHost w.m) 6).holds r (twHost w.m) = false) :
    h.snapTry w lo n =
      (none, (h.twAsk r (twHost w.m) 6).modD (h.snapDie w.blk w.inst) (fun x => { x with snapWait := x.snapWait ++ [w] })) := by
  simp only [Hw.snapTry, ht, held, Bool.false_eq_true, if_false]

/-! A higher word (R63 to R65). -/

section
variable {sl : SlotS} (hs : h.slotOf (h.snapDie b i) (masterNo m) = some sl) (same : sl.blk = b ∧ sl.inst = i ∧ sl.off = lo)
include hs same

theorem Hw.snapHigh_within (hi : (off - lo) / 4 ≠ sl.top) :
    h.snapHigh m b i off lo = ((sl.words.getD ((off - lo) / 4) 0, false), h.modD (h.snapDie b i) (fun x => { x with
      slots := x.slots.map (fun t => if t.who = masterNo m then { t with last := h.now } else t) })) := by
  simp only [Hw.snapHigh, hs, if_pos same, if_neg hi]

theorem Hw.snapHigh_top (hi : (off - lo) / 4 = sl.top) (hh : sl.head = none) :
    h.snapHigh m b i off lo = ((sl.words.getD ((off - lo) / 4) 0, false), h.slotRelease (h.snapDie b i) (masterNo m)) := by
  simp only [Hw.snapHigh, hs, if_pos same, if_pos hi, hh]

end

theorem Hw.snapHigh_miss (none_ : ∀ sl, h.slotOf (h.snapDie b i) (masterNo m) = some sl → ¬ (sl.blk = b ∧ sl.inst = i ∧ sl.off = lo)) :
    h.snapHigh m b i off lo = ((0, true), h.inc DIE_SNAP_MISS_COUNT (h.snapDie b i)) := by
  cases hs : h.slotOf (h.snapDie b i) (masterNo m) with
  | none => simp only [Hw.snapHigh, hs]
  | some sl => simp only [Hw.snapHigh, hs, if_neg (none_ sl hs)]

end

/-! ### The end of a slot (R64) -/

theorem exec_snapSlotTimeout {s : State} (on : s.on) (d who t : Nat) :
    exec (.snapSlotTimeout d who t) s = s.to ((s.hw.slotTimeout d who t).settle) :=
  s.run_live (fun h => (h.slotTimeout d who t).settle) on

/-- 20 µs are 4,916 ticks of the metronome, rounded up, and 50 µs are 12,288. -/
theorem Hw.slotTimeout_due {h : Hw} {d who t : Nat} {sl : SlotS} (hs : h.slotOf d who = some sl) (ht : h.now ≤ t)
    (due : sl.last + 4916 ≤ t ∨ sl.granted + 12288 ≤ t) : h.slotTimeout d who t = ({ h with now := t } : Hw).slotRelease d who := by
  have instant : h.now ≤ t ∧ (sl.last + ticksOfUs 20 ≤ t ∨ sl.granted + ticksOfUs 50 ≤ t) := ⟨ht, due⟩
  simp only [Hw.slotTimeout, hs, if_pos instant]

/-! ### The C32-compatible window (R176) -/

theorem exec_c32Read {s : State} {m : Master} {g path : Nat} (hs : s.hears m) (up : s.hw.dieUp (g / 32) = true) (hp : path < 3) :
    exec (.c32Read m g path) s = s.to ((s.hw.c32Read g path).2.answer m 0 [(s.hw.c32Read g path).1]) := by
  have served : (s.hw.servesMaster m && s.hw.dieUp (g / 32) && decide (path < 3)) = true := by simp [hs.2, up, hp]
  have run := s.run_live (fun h => h.c32Cmd m g path) hs.1
  rw [Hw.c32Cmd, if_pos served] at run
  exact run

/-- Settles O14, by whether the word is the object's lowest, the highest of its copy or one between. -/
theorem readsHaveTheirEffects : Obligations.ReadsHaveTheirEffects := by
  refine ⟨fun s m a i lo off n b ecc sl hs hp ho => ⟨fun hl held => ?lowest, fun hl slot blk inst obj hi => ?between,
    fun hl slot blk inst obj head hi => ?highest, fun t c slot ht due => ?timeout⟩, fun s m g hs up => ⟨?vs, ?is, ?sh⟩⟩
  case lowest =>
    subst hl
    have read := Hw.snapCmd_low (h := s.hw.meets ecc) hs.2 hp ho
    rw [Hw.snapLow_held held] at read
    refine ⟨fun free => ?copied, fun r token => ⟨fun got => ?copiedUnderToken, fun waits => ?waits⟩⟩
    case copied =>
      rw [Hw.snapTry_free (w := { m := m, blk := b, inst := i, off := off }) free] at read
      rw [exec_snapLowestRead hs.1, read]
      rfl
    case copiedUnderToken =>
      rw [Hw.snapTry_token (w := { m := m, blk := b, inst := i, off := off }) token got] at read
      rw [exec_snapLowestRead hs.1, read]
      rfl
    case waits =>
      rw [Hw.snapTry_waits (w := { m := m, blk := b, inst := i, off := off }) token waits] at read
      rw [exec_snapLowestRead hs.1, read]
  case between =>
    rw [exec_snapHigherRead hs.1, Hw.snapCmd_high hs.2 hp ho hl, Hw.snapHigh_within slot ⟨blk, inst, obj⟩ hi]
    rfl
  case highest =>
    rw [exec_snapHigherRead hs.1, Hw.snapCmd_high hs.2 hp ho hl, Hw.snapHigh_top slot ⟨blk, inst, obj⟩ hi head]
    rfl
  case timeout => rw [exec_snapSlotTimeout hs.1, Hw.slotTimeout_due slot ht due]
  case vs => exact exec_c32Read hs up (by decide)
  case is => exact exec_c32Read hs up (by decide)
  case sh => exact exec_c32Read hs up (by decide)

/-! ### The miss (R65) -/

/-- A write of a word's plain fields sets registers alone. -/
theorem Hw.writeFields_dies (h : Hw) (b : Blk) (i off v : Nat) (p : Fld → Bool) : (h.writeFields b i off v p).dies = h.dies := by
  unfold Hw.writeFields
  generalize hits b off = l
  induction l generalizing h with
  | nil => rfl
  | cons x l ih =>
    refine (ih _).trans ?_
    dsimp only
    split
    · rfl
    · split <;> rfl

/-- Settles O15: without a slot that holds the object a higher word misses, and a write of fields leaves every die's slots. -/
theorem higherReadWithoutSlotMisses : Obligations.HigherReadWithoutSlotMisses := by
  refine ⟨fun s m a i lo off n b hs hp ho hl none_ => ?miss, fun h b i off v d p => ?slots⟩
  case miss =>
    rw [exec_snapHigherRead hs.1, Hw.snapCmd_high hs.2 hp ho hl, Hw.snapHigh_miss none_]
    rfl
  case slots => rw [Hw.die, h.writeFields_dies, Hw.die]

end Sys2Proof.Machine
end

section
/-! Writes of a master to a unit's command words: what waits for the unit's tick and what is refused at once (R26, R50, R123 to R128, R143, R325,
R327, R332, R446, R447). -/

namespace Sys2Proof.Machine

/-! ### A write to a unit's window (R45, R50, R446) -/

/-- A command of a master that writes a word of a unit's window. -/
theorem State.run_unitWrite {s : State} {m : Master} {u : Nat} (hs : s.hears m) (hr : s.hw.reaches u = true) (off v : Nat) :
    s.run (fun h => h.byHost m (h.reaches u) (fun h => h.unitWrite u off v)) = s.wrote m (s.hw.unitWrite u off v) :=
  State.run_byHost hs (fun h => h.reaches u) (fun h => h.unitWrite u off v) hr

/-- The word of U_LOOP_CMD that a loop command writes. -/
theorem Hw.unitWrite_loop (h : Hw) {u c mode law : Nat} (hc : c < 8) (hm : mode < 2) (hl : law < 4) :
    h.unitWrite u 0xA4 (c + mode % 2 * 8 + law % 4 * 16) = (h.passGuard u).loopWrite u c mode law := by
  have cmd : bits (c + mode % 2 * 8 + law % 4 * 16) 2 0 = c := by simp only [bits]; omega
  have newMode : bits (c + mode % 2 * 8 + law % 4 * 16) 3 3 = mode := by simp only [bits]; omega
  have newLaw : bits (c + mode % 2 * 8 + law % 4 * 16) 5 4 = law := by simp only [bits]; omega
  rw [Hw.unitWrite, if_pos rfl, cmd, newMode, newLaw]

theorem Hw.unitWrite_conn (h : Hw) {u c : Nat} (hc : c < 4) : h.unitWrite u 0x648 c = (h.passGuard u).connWrite u c := by
  have cmd : bits c 1 0 = c := by simp only [bits]; omega
  rw [Hw.unitWrite, if_neg (by decide), if_pos rfl, cmd]

section
variable {h : Hw} {u off v : Nat}

/-- A coupled member takes no write of its own registers (R50). -/
theorem Hw.unitWrite_member (hm : (h.passGuard u).isMember u = true) (ho : 0x40 ≤ off ∧ off < 0x700 ∧ off ≠ 0xA4 ∧ off ≠ 0x648) :
    h.unitWrite u off v = (h.passGuard u).put U_FLAGS_COUPLED_WR u 1 := by
  obtain ⟨low, high, loop, conn⟩ := ho
  rw [Hw.unitWrite, if_neg loop, if_neg conn, if_pos (by simp [hm, low, high])]

theorem Hw.unitWrite_clear (hm : (h.passGuard u).isMember u = false) : h.unitWrite u 0x614 1 = (h.passGuard u).clearWrite u := by
  simp [Hw.unitWrite, hm, bit]

theorem Hw.unitWrite_ilkCfg (hm : (h.passGuard u).isMember u = false) (hr : (h.passGuard u).reaches u = true) :
    h.unitWrite u 0x640 v = (h.passGuard u).pendWord u 0x640 v := by
  simp [Hw.unitWrite, hm, Hw.ilkCfg, hr]

end

/-! ### The commands (R123, R143, R327) -/

section
variable {h : Hw} {u c mode law : Nat}

theorem Hw.clearWrite_waits (hm : h.isMember u = false) (hb : h.flag U_FAULT_CLR_CLR u = false) (hr : h.runs u = true) :
    h.clearWrite u = (h.put U_FAULT_CLR_CLR u 1).modU u (fun x => { x with pend := x.pend ++ [{ act := .clear }] }) := by
  simp only [Hw.clearWrite, hm, hb, hr, Bool.false_eq_true, if_false, if_true]

theorem Hw.clearWrite_refused (hm : h.isMember u = false) (hb : h.flag U_FAULT_CLR_CLR u = true) :
    h.clearWrite u = h.put U_FAULT_CLR_RESULT u 2 := by
  simp only [Hw.clearWrite, hm, hb, Bool.false_eq_true, if_false, if_true]

theorem Hw.runs_put (h : Hw) {f : Fld} {i v : Nat} (u : Nat)
    (hf : ∀ F ∈ [STN_CENSUS_PRESENT, U_CONSIST_STAT_COUPLED], F.Apart f := by decide) : (h.put f i v).runs u = h.runs u := by
  have same : Hw.SameFields [STN_CENSUS_PRESENT, U_CONSIST_STAT_COUPLED] h (h.put f i v) := Hw.SameFields.put (fun _ _ _ => rfl) hf
  have up : (h.put f i v).dieUp = h.dieUp := by
    funext d
    simp only [Hw.dieUp, same _ List.mem_cons_self, Hw.die_of_put]
  have coupled : (h.put f i v).isCoupled = h.isCoupled := by
    funext c
    simp only [Hw.isCoupled, Hw.flag, same U_CONSIST_STAT_COUPLED (by simp)]
  have below : (h.put f i v).below = h.below := by
    funext l
    simp only [Hw.below, coupled]
    rfl
  simp only [Hw.runs, up, coupled, Hw.leaves, Hw.tree, below]

theorem Hw.loopWrite_waits (hb : h.flag U_LOOP_CMD_BUSY u = false) (hm : h.isMember u = false) (hr : h.runs u = true) (hc : 0 < c ∧ c < 5) :
    h.loopWrite u c mode law =
      ((((h.put U_LOOP_CMD_CMD u c).put U_LOOP_CMD_NEW_MODE u mode).put U_LOOP_CMD_NEW_LAW u law).put U_LOOP_CMD_BUSY u 1).modU u
        (fun x => { x with pend := x.pend ++ [{ act := .loop c mode law }] }) := by
  have cmd : ¬ (c = 0 ∨ 4 < c) := by omega
  have runs : (((h.put U_LOOP_CMD_CMD u c).put U_LOOP_CMD_NEW_MODE u mode).put U_LOOP_CMD_NEW_LAW u law).runs u = true := by
    rw [Hw.runs_put, Hw.runs_put, Hw.runs_put, hr]
  simp only [Hw.loopWrite, hb, hm, Bool.false_eq_true, if_false, if_neg cmd, runs, if_true]

theorem Hw.loopWrite_busy (hb : h.flag U_LOOP_CMD_BUSY u = true) : h.loopWrite u c mode law = h.put U_LOOP_CMD_RESULT u 2 := by
  simp only [Hw.loopWrite, hb, if_true]

theorem Hw.loopWrite_member (hb : h.flag U_LOOP_CMD_BUSY u = false) (hm : h.isMember u = true) :
    h.loopWrite u c mode law = (h.put U_LOOP_CMD_RESULT u 3).put U_FLAGS_COUPLED_WR u 1 := by
  simp only [Hw.loopWrite, hb, hm, Bool.false_eq_true, if_false, if_true]

theorem Hw.connWrite_member (hm : h.isMember u = true) :
    h.connWrite u c = (h.put U_CONN_CMD_RESULT u (if c = 1 then h.connResult u else 7)).put U_FLAGS_COUPLED_WR u 1 := by
  simp only [Hw.connWrite, hm, if_true]

theorem Hw.connWrite_busy (hm : h.isMember u = false) (hb : h.flag U_CONN_CMD_BUSY u = true) :
    h.connWrite u c = h.put U_CONN_CMD_RESULT u 8 := by
  simp only [Hw.connWrite, hm, hb, Bool.false_eq_true, if_false, if_true]

theorem Hw.connWrite_waits (hm : h.isMember u = false) (hb : h.flag U_CONN_CMD_BUSY u = false) (hr : h.runs u = true) (hc : 0 < c ∧ c < 3) :
    h.connWrite u c = ((h.put U_CONN_CMD_CMD u c).put U_CONN_CMD_BUSY u 1).modU u (fun x => { x with pend := x.pend ++ [{ act := .conn c }] }) := by
  have cmd : ¬ (c = 0 ∨ 2 < c) := by omega
  have runs : (h.put U_CONN_CMD_CMD u c).runs u = true := by rw [Hw.runs_put, hr]
  simp only [Hw.connWrite, hm, hb, Bool.false_eq_true, if_false, if_neg cmd, runs, if_true]

/-- A connect request to a member is refused, with 7 at the latest (R327, R447). -/
theorem Hw.connResult_member (hm : h.isMember u = true) : h.connResult u ≠ 0 := by
  simp only [Hw.connResult, hm, Bool.true_or, if_true]
  repeat' split
  all_goals decide

end

section
variable {s : State} {m : Master} {u c mode law : Nat} {i : Instr}

theorem exec_faultClear (hs : s.hears m) (hr : s.hw.reaches u = true) : exec (.faultClear m u) s = s.wrote m (s.hw.unitWrite u 0x614 1) :=
  State.run_unitWrite hs hr 0x614 1

theorem exec_fixmaskWrite (hs : s.hears m) (hr : s.hw.reaches u = true) (v : Nat) :
    exec (.fixmaskWrite m u v) s = s.wrote m (s.hw.unitWrite u 0x640 v) :=
  State.run_unitWrite hs hr 0x640 v

/-- The four loop commands write U_LOOP_CMD (R123). -/
theorem exec_loopCommand (hs : s.hears m) (hr : s.hw.reaches u = true) (hm : mode < 2) (hl : law < 4)
    (hi : (c = 1 ∧ i = .loopClose m u mode law) ∨ (c = 2 ∧ i = .loopOpen m u mode law) ∨ (c = 3 ∧ i = .loopSwitch m u mode law) ∨
      (c = 4 ∧ i = .loopLoad m u mode law)) :
    (0 < c ∧ c < 5) ∧ exec i s = s.wrote m ((s.hw.passGuard u).loopWrite u c mode law) := by
  have word : c < 8 → s.wrote m (s.hw.unitWrite u 0xA4 (c + mode % 2 * 8 + law % 4 * 16)) = s.wrote m ((s.hw.passGuard u).loopWrite u c mode law) :=
    fun hc => congrArg (s.wrote m) (s.hw.unitWrite_loop hc hm hl)
  obtain ⟨rfl, rfl⟩ | ⟨rfl, rfl⟩ | ⟨rfl, rfl⟩ | ⟨rfl, rfl⟩ := hi <;>
    exact ⟨by decide, (State.run_unitWrite hs hr 0xA4 _).trans (word (by decide))⟩

/-- The two connection commands write U_CONN_CMD (R327, R332). -/
theorem exec_connCommand (hs : s.hears m) (hr : s.hw.reaches u = true)
    (hi : (c = 1 ∧ i = .connConnect m u) ∨ (c = 2 ∧ i = .connIsolate m u)) :
    (0 < c ∧ c < 3) ∧ exec i s = s.wrote m ((s.hw.passGuard u).connWrite u c) := by
  obtain ⟨rfl, rfl⟩ | ⟨rfl, rfl⟩ := hi <;>
    exact ⟨by decide, (State.run_unitWrite hs hr 0x648 _).trans (congrArg (s.wrote m) (s.hw.unitWrite_conn (by decide)))⟩

end

/-- Settles O19, word by word: a member, a command that waits already, and a command that goes to wait. -/
theorem commandsToAUnitWaitForItsTick : Obligations.CommandsToAUnitWaitForItsTick := by
  refine ⟨fun s m u hs hr => ⟨fun hm hb hruns => ?clearWaits, fun hm hb => ?clearBusy, fun hm => ?clearMember⟩,
    fun s m u mode law c i hs hr hmode hlaw hi => ?loop, fun s m u v c i hs hr hi => ?conn⟩
  case clearWaits => rw [exec_faultClear hs hr, Hw.unitWrite_clear hm, Hw.clearWrite_waits hm hb hruns]
  case clearBusy => rw [exec_faultClear hs hr, Hw.unitWrite_clear hm, Hw.clearWrite_refused hm hb]
  case clearMember => rw [exec_faultClear hs hr, Hw.unitWrite_member hm (by decide)]
  case loop =>
    obtain ⟨hc, run⟩ := exec_loopCommand hs hr hmode hlaw hi
    rw [run]
    exact ⟨fun hb hm hruns => by rw [Hw.loopWrite_waits hb hm hruns hc], fun hb => by rw [Hw.loopWrite_busy hb],
      fun hb hm => by rw [Hw.loopWrite_member hb hm]⟩
  case conn =>
    obtain ⟨hc, run⟩ := exec_connCommand hs hr hi
    rw [run]
    refine ⟨fun hm => ⟨by rw [Hw.connWrite_member hm], ?ilkMember⟩, Hw.connResult_member, fun hm hb => by rw [Hw.connWrite_busy hm hb],
      fun hm hb hruns => by rw [Hw.connWrite_waits hm hb hruns hc], fun hm reached => ?ilkWaits⟩
    case ilkMember => rw [exec_fixmaskWrite hs hr, Hw.unitWrite_member hm (by decide)]
    case ilkWaits => rw [exec_fixmaskWrite hs hr, Hw.unitWrite_ilkCfg hm reached]

end Sys2Proof.Machine
end

section
/-! Start-up and fencing: the end of a self-test, the census, the reads of an image, and a die that falls silent (R68, R357, R360, R361, R370,
R371, R382). -/

namespace Sys2Proof.Machine

/-! ### The self-test of a die (R358, R360, R361) -/

/-- The hardware in which a die's self-test has ended: its Interlocking is live, and a head die's lines are driven. -/
def Hw.selfTested (h : Hw) (d : Nat) : Hw :=
  let a := { h with boot := { h.boot with live := h.boot.live ++ [d] } }
  if d < 2 then a.lines else a

/-- The die has answered. -/
def Hw.dieAnswered (h : Hw) (d : Nat) : Hw := { h with boot := { h.boot with answered := h.boot.answered ++ [d] } }

section
variable {h : Hw} {d f : Nat}

theorem Hw.bistDone_idle (hd : h.dieUp d = false ∨ h.boot.live.contains d = true) : h.bistDone d f = h := by
  rw [Hw.bistDone, if_pos]
  rcases hd with absent | live
  · rw [absent]; rfl
  · rw [live, Bool.or_true]

variable (up : h.dieUp d = true) (new : h.boot.live.contains d = false)
include up new

/-- The cases of a self-test's end on a die that had not been heard of. -/
theorem Hw.bistDone_new :
    h.bistDone d f =
      if d = (h.selfTested d).bootDie then
        if 2 < (h.selfTested d).get STN_BOOT_STEP 0 then h.selfTested d
        else if f = 0 then (((h.selfTested d).dieAnswered d).showServing.setStep 3).censusEnd
        else if (h.selfTested d).get STN_STATE_STATE 0 ≠ 1 then h.selfTested d
        else if f = 1 then { (h.selfTested d).setStep 2 with boot := { (h.selfTested d).boot with noRom := true } }
        else ((h.selfTested d).setStep 3).hold (f + 1)
      else if f = 0 then ((h.selfTested d).dieAnswered d).showServing.censusEnd
      else (((h.selfTested d).put STN_CENSUS_BIST_FAIL 0 (setBit ((h.selfTested d).get STN_CENSUS_BIST_FAIL 0) d)).fence d 1).censusEnd := by
  have heard : ¬ (!h.dieUp d || h.boot.live.contains d) = true := by rw [up, new]; decide
  rw [Hw.bistDone, if_neg heard]
  rfl

theorem Hw.bistDone_other_passes (hd : d ≠ (h.selfTested d).bootDie) : h.bistDone d 0 = ((h.selfTested d).dieAnswered d).showServing.censusEnd := by
  rw [Hw.bistDone_new up new, if_neg hd, if_pos rfl]

theorem Hw.bistDone_other_fails (hd : d ≠ (h.selfTested d).bootDie) (hf : f ≠ 0) :
    h.bistDone d f = (((h.selfTested d).put STN_CENSUS_BIST_FAIL 0 (setBit ((h.selfTested d).get STN_CENSUS_BIST_FAIL 0) d)).fence d 1).censusEnd := by
  rw [Hw.bistDone_new up new, if_neg hd, if_neg hf]

variable (hd : d = (h.selfTested d).bootDie) (step : (h.selfTested d).get STN_BOOT_STEP 0 ≤ 2)
include hd step

theorem Hw.bistDone_boot_passes : h.bistDone d 0 = (((h.selfTested d).dieAnswered d).showServing.setStep 3).censusEnd := by
  rw [Hw.bistDone_new up new, if_pos hd, if_neg (Nat.not_lt.mpr step), if_pos rfl]

theorem Hw.bistDone_boot_rom (booting : (h.selfTested d).get STN_STATE_STATE 0 = 1) :
    h.bistDone d 1 = { (h.selfTested d).setStep 2 with boot := { (h.selfTested d).boot with noRom := true } } := by
  rw [Hw.bistDone_new up new, if_pos hd, if_neg (Nat.not_lt.mpr step), if_neg (by decide), if_neg (not_not_intro booting), if_pos rfl]

theorem Hw.bistDone_boot_held (booting : (h.selfTested d).get STN_STATE_STATE 0 = 1) (hf : 2 ≤ f) :
    h.bistDone d f = ((h.selfTested d).setStep 3).hold (f + 1) := by
  rw [Hw.bistDone_new up new, if_pos hd, if_neg (Nat.not_lt.mpr step), if_neg (by omega), if_neg (not_not_intro booting), if_neg (by omega)]

end

theorem exec_builtInSelfTestDone {s : State} (on : s.on) (d f : Nat) : exec (.builtInSelfTestDone d f) s = s.to (s.hw.bistDone d f) :=
  s.run_live (fun h => h.bistDone d f) on

/-! ### The census (R360) -/

theorem exec_censusTimeout {s : State} (on : s.on) (d t : Nat) : exec (.censusTimeout d t) s = s.to (s.hw.censusTimeout d t) :=
  s.run_live (fun h => h.censusTimeout d t) on

theorem Hw.censusTimeout_silent {h : Hw} {d t : Nat} (up : h.dieUp d = true) (hd : d ≠ h.bootDie) (silent : h.boot.answered.contains d = false)
    (now : h.now ≤ t) (late : 20 * t1ms ≤ t) (step : h.get STN_BOOT_STEP 0 = 3) :
    h.censusTimeout d t =
      (((({ h with now := t } : Hw).put STN_CENSUS_NOANSWER 0 (setBit (h.get STN_CENSUS_NOANSWER 0) d)).fence d 2).censusEnd) := by
  have due : ¬ (!h.dieUp d || d == h.bootDie || h.boot.answered.contains d || decide (t < h.now) || decide (t < 20 * t1ms)
      || h.get STN_BOOT_STEP 0 != 3) = true := by
    simp only [up, silent, step, Bool.not_true, beq_eq_false_iff_ne.mpr hd, decide_eq_false (Nat.not_lt.mpr now), decide_eq_false (Nat.not_lt.mpr late),
      bne_self_eq_false, Bool.or_self, Bool.false_eq_true, not_false_eq_true]
  rw [Hw.censusTimeout, if_neg due]
  rfl

/-! ### The first read of an image (R370, R371) -/

theorem exec_imageReadDone {s : State} (on : s.on) (err : Bool) (ecc : List (Nat × Bool)) :
    exec (.imageReadDone err ecc) s = s.to ((s.hw.meets ecc).imageRead err) :=
  s.run_live (fun h => (h.meets ecc).imageRead err) on

section
variable {h : Hw} {err : Bool}

theorem Hw.imageRead_none (hn : h.boot.read = 0) : h.imageRead err = h := by
  simp only [Hw.imageRead, hn, true_or, if_true, ite_self]

variable (booting : h.get STN_STATE_STATE 0 = 1) (first : h.boot.read = 1) (flash : h.boot.src ≠ 3)
include booting first flash

/-- The first read of an image from a flash slot, where no error correction has a part. -/
theorem Hw.imageRead_first :
    h.imageRead err =
      if err then h.imgRefuse 10 0 else if h.boot.touched then h.imgRefuse 8 0
      else if h.read1.1 ≠ 0 then h.imgRefuse h.read1.1 h.read1.2
      else ({ h with boot := { h.boot with read := 2, prov := h.provisioned } } : Hw).setStep 6 := by
  simp [Hw.imageRead, booting, first, flash]

end

/-! ### Silence at run time (R68, R382) -/

theorem exec_dieFence {s : State} (on : s.on) (d : Nat) : exec (.dieFence d) s = s.to (s.hw.dieFence d) :=
  s.run_live (fun h => h.dieFence d) on

theorem Hw.dieFence_boot {h : Hw} {d : Nat} (hd : d = h.bootDie) : h.dieFence d = h := by rw [Hw.dieFence, if_pos (.inl hd)]

theorem Hw.dieFence_other {h : Hw} {d : Nat} (hd : d ≠ h.bootDie) (up : h.dieUp d = true) (step : 3 ≤ h.get STN_BOOT_STEP 0) :
    h.dieFence d =
      if (h.fence d 3).get STN_STATE_STATE 0 = 1 ∧ (h.fence d 3).get STN_BOOT_STEP 0 < 8 then h.fence d 3
      else ({ h.fence d 3 with boot := { (h.fence d 3).boot with fences := (h.fence d 3).boot.fences.filter (fun p => p.1 != d) } } : Hw).audit
        0x09 d 3 := by
  have fenced : ¬ (d = h.bootDie ∨ (!h.dieUp d) = true ∨ h.get STN_BOOT_STEP 0 < 3) := by simp [hd, up, step]
  rw [Hw.dieFence, if_neg fenced]

theorem exec_leaveBooting {s : State} (on : s.on) : exec .leaveBooting s = s.to s.hw.leaveBooting :=
  s.run_live (fun h => h.leaveBooting) on

theorem Hw.leaveBooting_early {h : Hw} (step : h.get STN_BOOT_STEP 0 ≠ 8) : h.leaveBooting = h := by
  rw [Hw.leaveBooting, if_pos (.inr step)]

/-- Settles O25: a self-test by its die and result, the census, an image's first read, and the fence of a silent die (log
entries 27 and 101). -/
theorem startUpAndFencingGoByTheirSteps : Obligations.StartUpAndFencingGoByTheirSteps := by
  refine ⟨fun s d t f err ecc on => ⟨fun up new => ⟨fun hd => ?passes, fun hd hf => ?fails, fun hd step => ?bootPasses,
      fun hd step booting => ⟨?rom, fun hf => ?held⟩⟩, fun idle => ?again, fun up hd silent now late step => ?census,
      fun booting first flash => ⟨?error, fun touched => ?touched, fun whole bad => ?refused, fun whole good => ?second⟩, fun none => ?noRead,
      fun step => ?early, exec_leaveBooting on⟩,
    fun s d on => ⟨fun hd up step booting early => ?fence, fun hd up step late => ?audited, fun hd => ?bootDie⟩⟩
  case passes => rw [exec_builtInSelfTestDone on]; exact congrArg s.to (Hw.bistDone_other_passes up new hd)
  case fails => rw [exec_builtInSelfTestDone on]; exact congrArg s.to (Hw.bistDone_other_fails up new hd hf)
  case bootPasses => rw [exec_builtInSelfTestDone on]; exact congrArg s.to (Hw.bistDone_boot_passes up new hd step)
  case rom => rw [exec_builtInSelfTestDone on]; exact congrArg s.to (Hw.bistDone_boot_rom up new hd step booting)
  case held => rw [exec_builtInSelfTestDone on]; exact congrArg s.to (Hw.bistDone_boot_held up new hd step booting hf)
  case again => rw [exec_builtInSelfTestDone on, Hw.bistDone_idle idle]
  case census => rw [exec_censusTimeout on, Hw.censusTimeout_silent up hd silent now late step]
  case error => rw [exec_imageReadDone on, Hw.imageRead_first booting first flash, if_pos rfl]
  case touched =>
    rw [exec_imageReadDone on, Hw.imageRead_first booting first flash, if_neg Bool.false_ne_true, if_pos touched]
  case refused =>
    rw [exec_imageReadDone on, Hw.imageRead_first booting first flash, if_neg Bool.false_ne_true, if_neg (ne_true_of_eq_false whole), if_pos bad]
  case second =>
    rw [exec_imageReadDone on, Hw.imageRead_first booting first flash, if_neg Bool.false_ne_true, if_neg (ne_true_of_eq_false whole),
      if_neg (not_not_intro good)]
  case noRead => rw [exec_imageReadDone on, Hw.imageRead_none none]
  case early => rw [exec_leaveBooting on, Hw.leaveBooting_early step]
  case fence => rw [exec_dieFence on, Hw.dieFence_other hd up step, if_pos ⟨booting, early⟩]
  case audited =>
    rw [exec_dieFence on, Hw.dieFence_other hd up step, if_neg fun early => late.elim (fun l => l early.1) (fun l => Nat.not_lt.mpr l early.2)]
  case bootDie => rw [exec_dieFence on, Hw.dieFence_boot hd]

end Sys2Proof.Machine
end

section
/-! Consists: coupling, uncoupling, outer ticks, and the watch for silence (R48, R49, R54, R56). -/

namespace Sys2Proof.Machine

/-! ### COUPLE and UNCOUPLE (R48, R49) -/

section
variable {h : Hw} {c : Nat}

theorem Hw.couple_busy (hb : h.flag U_COUPLE_BUSY c = true) : h.couple c = h := by rw [Hw.couple, if_pos (by simp [hb])]

theorem Hw.uncouple_busy (hb : h.flag U_COUPLE_BUSY c = true) : h.uncouple c = h := by rw [Hw.uncouple, if_pos (by simp [hb])]

variable (hc : isConsist c = true)
include hc

theorem Hw.unitWrite_couple : h.unitWrite c 0x14 1 = (h.passGuard c).couple c := by simp [Hw.unitWrite, hc, bits]

theorem Hw.unitWrite_uncouple : h.unitWrite c 0x14 2 = (h.passGuard c).uncouple c := by simp [Hw.unitWrite, hc, bits]

variable (hb : h.flag U_COUPLE_BUSY c = false)
include hb

theorem Hw.couple_refused (hr : (h.put U_COUPLE_OP c 1).coupleResult c ≠ 0) :
    h.couple c = (h.put U_COUPLE_OP c 1).put U_COUPLE_RESULT c ((h.put U_COUPLE_OP c 1).coupleResult c) := by
  rw [Hw.couple, if_neg (by simp [hc, hb])]
  exact if_pos hr

theorem Hw.couple_waits (hr : (h.put U_COUPLE_OP c 1).coupleResult c = 0)
    (far : ((h.put U_COUPLE_OP c 1).entries c).any (fun x => x.2.2.2.1) = true) :
    h.couple c = ((h.put U_COUPLE_OP c 1).put U_COUPLE_BUSY c 1).modU c (fun x => { x with cons := { x.cons with wait := true } }) := by
  rw [Hw.couple, if_neg (by simp [hc, hb])]
  exact (if_neg (not_not_intro hr)).trans (if_pos far)

theorem Hw.couple_done (hr : (h.put U_COUPLE_OP c 1).coupleResult c = 0)
    (far : ((h.put U_COUPLE_OP c 1).entries c).any (fun x => x.2.2.2.1) = false) : h.couple c = (h.put U_COUPLE_OP c 1).coupleDone c 0 := by
  rw [Hw.couple, if_neg (by simp [hc, hb])]
  exact (if_neg (not_not_intro hr)).trans (if_neg (ne_true_of_eq_false far))

theorem Hw.uncouple_refused (hs : (h.put U_COUPLE_OP c 2).st c ≠ stISOLATED) :
    h.uncouple c = (h.put U_COUPLE_OP c 2).put U_COUPLE_RESULT c 1 := by
  rw [Hw.uncouple, if_neg (by simp [hc, hb])]
  exact if_pos (bne_iff_ne.mpr hs)

theorem Hw.uncouple_done (hs : h.st c = stISOLATED) : h.uncouple c = (h.put U_COUPLE_OP c 2).uncoupleDone c := by
  have shown : (h.put U_COUPLE_OP c 2).st c = stISOLATED := (h.get_put_pos _ _ _ (by decide)).trans hs
  rw [Hw.uncouple, if_neg (by simp [hc, hb])]
  exact if_neg (by simp [shown])

end

section
variable {s : State} {m : Master} {c : Nat} (hs : s.hears m) (hc : isConsist c = true)
include hs hc

theorem exec_couple : exec (.couple m c) s = s.wrote m ((s.hw.passGuard c).couple c) := by
  rw [← Hw.unitWrite_couple hc]
  exact State.run_unitWrite hs (by rw [Hw.reaches, hc]; rfl) 0x14 1

theorem exec_uncouple : exec (.uncouple m c) s = s.wrote m ((s.hw.passGuard c).uncouple c) := by
  rw [← Hw.unitWrite_uncouple hc]
  exact State.run_unitWrite hs (by rw [Hw.reaches, hc]; rfl) 0x14 2

end

theorem Hw.coupleDone_result (h : Hw) (c far : Nat) : (h.coupleDone c far).get U_COUPLE_RESULT c = 0 := Hw.get_put_self _ _ _ _ _

/-! ### Members that leave (R49) -/

/-- `g` shows the same consists coupled as `h`, with the same members. -/
structure Hw.SameCons (h g : Hw) : Prop where
  coupled : SameFields [U_CONSIST_STAT_COUPLED] h g
  mem : ∀ c, (g.unit c).cons.mem = (h.unit c).cons.mem

namespace Hw.SameCons

variable {h g : Hw}

theorem refl (h : Hw) : SameCons h h := ⟨fun _ _ _ => rfl, fun _ => rfl⟩

theorem put (k : SameCons h g) {f : Fld} {i v n : Nat} (hf : ∀ F ∈ [U_CONSIST_STAT_COUPLED], F.Apart f := by decide) :
    SameCons h (g.put f i v n) :=
  ⟨k.coupled.put hf, k.mem⟩

theorem modU (k : SameCons h g) {u : Nat} {f : UnitS → UnitS} (hf : ∀ x, (f x).cons.mem = x.cons.mem := by exact fun _ => rfl) :
    SameCons h (g.modU u f) := by
  refine ⟨k.coupled, fun c => Eq.trans ?_ (k.mem c)⟩
  by_cases hc : c = u
  · rw [hc, g.modU_unit_self, hf]
  · rw [g.modU_unit_ne u f c hc]

theorem each {α : Type} (k : SameCons h g) {l : List α} {f : Hw → α → Hw} (hf : ∀ x a, SameCons h x → SameCons h (f x a)) :
    SameCons h (g.each l f) :=
  each_keeps k hf

theorem ite {x : Hw} {p : Prop} [Decidable p] (a : SameCons h g) (b : SameCons h x) : SameCons h (if p then g else x) :=
  ite_keeps a b

theorem mdecSet (k : SameCons h g) {u path n d j : Nat} {fir : Bool} : SameCons h (g.mdecSet u path n d j fir) := by
  unfold Hw.mdecSet
  exact (k.put.ite k : SameCons h _).modU

theorem mdecTake (k : SameCons h g) {u src n : Nat} : SameCons h (g.mdecTake u src n) := by
  unfold Hw.mdecTake
  exact k.each fun _ _ kx => kx.put.ite (kx.ite kx.mdecSet)

theorem recalc (k : SameCons h g) {u : Nat} : SameCons h (g.recalc u) := k.modU.modU.put.modU.modU.put

theorem isOne (k : SameCons h g) {m r n : Nat} : SameCons h (g.isOne m r n) := by
  unfold Hw.isOne
  exact k.modU.ite k.modU.modU.modU

theorem shOne (k : SameCons h g) {m r n : Nat} : SameCons h (g.shOne m r n) := by
  unfold Hw.shOne
  exact k.modU.ite k.modU.put.modU.modU

theorem ownBack (k : SameCons h g) {m n : Nat} {l : List Nat} : SameCons h (g.ownBack m n l) := by
  have back : ∀ x, SameCons h x → SameCons h
      ((((x.isOne m (l.getD 4 0) n).shOne m (l.getD 5 0) n).put U_RANGE_STAT_DES m (l.getD 6 0)).put U_FAULT_ISOLATED m (l.getD 7 0)) :=
    fun x kx => kx.isOne.shOne.put.put
  unfold Hw.ownBack
  exact (back _ (k.put.put.put.ite k.put.put.put.put.modU.modU)).recalc.ite (back _ (k.put.put.put.ite k.put.put.put.put.modU.modU))

theorem leaveMember (k : SameCons h g) {u : Nat} : SameCons h (g.leaveMember u) := by
  unfold Hw.leaveMember
  refine SameCons.each (SameCons.each (k.put.put.put.put.put.put.put.put.modU).mdecTake fun _ _ kx => kx.mdecTake) fun x m kx => ?_
  split
  · exact kx
  · exact kx.ownBack.modU

end Hw.SameCons

/-- An uncoupled consist before its members leave it. -/
def Hw.memberless (h : Hw) (c : Nat) : Hw :=
  let h := h.modU c (fun x => { x with cons := { x.cons with mem := [], rep := [], silent := [], heard := [], fst := [], gone := 0, outAt := none },
                                        law := { x.law with work := none } })
  (((h.put U_CONSIST_STAT_COUPLED c 0).put U_CONSIST_STAT_DEPTH c 0).put U_CONSIST_STAT_W c 0).put U_CONSIST_STAT_REMOTE c 0

theorem Hw.uncoupleDone_memberless (h : Hw) (c : Nat) : (h.memberless c).SameCons (h.uncoupleDone c) :=
  ((Hw.SameCons.refl (h.memberless c)).each fun _ _ k => k.leaveMember).put

theorem Hw.uncoupleDone_shows (h : Hw) (c : Nat) :
    (h.uncoupleDone c).get U_COUPLE_RESULT c = 0 ∧ (h.uncoupleDone c).isCoupled c = false ∧ ((h.uncoupleDone c).unit c).cons.mem = [] := by
  obtain ⟨coupled, mem⟩ := h.uncoupleDone_memberless c
  refine ⟨Hw.get_put_self _ _ _ _ _, ?_, ?_⟩
  · have stands : (h.memberless c).get U_CONSIST_STAT_COUPLED c = 0 := by
      simp only [Hw.memberless]
      rw [Hw.get_put_pos _ _ _ _ (by decide), Hw.get_put_pos _ _ _ _ (by decide), Hw.get_put_pos _ _ _ _ (by decide), Hw.get_put_self]
      rfl
    rw [Hw.isCoupled, Hw.flag, coupled _ List.mem_cons_self, stands]
    rfl
  · rw [mem]
    simp only [Hw.memberless, Hw.unit_of_put, Hw.modU_unit_self]

/-! ### What the far stations answer (R49) -/

/-- What is found against a coupling with followers when it completes. -/
def Hw.coupleFound (g : Hw) (u res far : Nat) : List Nat := [g.coupleResult u, res, if 4 < g.depthOver u far then 4 else 0]

/-- A consist that no longer waits for the Line. -/
def Hw.waitEnds (h : Hw) (u : Nat) : Hw := h.modU u (fun x => { x with cons := { x.cons with wait := false } })

theorem exec_coupleComplete {s : State} (on : s.on) (u : Nat) {res far : Nat} (hr : res < 16) :
    exec (.coupleComplete u { res := res, depth := far } none) s = s.to (s.hw.coupleComplete u res far none) := by
  have run : exec (.coupleComplete u { res := res, depth := far } none) s = s.to (s.hw.coupleComplete u (res % 16) far none) :=
    s.run_live (fun h => h.coupleComplete u (res % 16) far none) on
  rwa [Nat.mod_eq_of_lt hr] at run

section
variable {h : Hw} {u res far : Nat} (hc : isConsist u = true) (hw : (h.unit u).cons.wait = true)
include hc hw

theorem Hw.coupleComplete_done (zero : ∀ x ∈ (h.waitEnds u).coupleFound u res far, x = 0) :
    h.coupleComplete u res far none = (h.waitEnds u).coupleDone u far := by
  have none_ : ((h.waitEnds u).coupleFound u res far).filter (· != 0) = [] :=
    List.filter_eq_nil_iff.mpr fun x hx nonzero => bne_iff_ne.mp nonzero (zero x hx)
  rw [Hw.coupleFound, Hw.waitEnds] at none_
  simp only [Hw.coupleComplete, hc, hw, Bool.and_self, if_true, none_, Hw.waitEnds]

theorem Hw.coupleComplete_refused {r : Nat} (hr : r ∈ (h.waitEnds u).coupleFound u res far) (h0 : r ≠ 0)
    (least : ∀ x ∈ (h.waitEnds u).coupleFound u res far, x = 0 ∨ r ≤ x) :
    h.coupleComplete u res far none = ((h.waitEnds u).put U_COUPLE_BUSY u 0).put U_COUPLE_RESULT u r := by
  have lowest : (((h.waitEnds u).coupleFound u res far).filter (· != 0)).min? = some r := by
    refine List.min?_eq_some_iff.mpr ⟨List.mem_filter.mpr ⟨hr, bne_iff_ne.mpr h0⟩, fun x hx => ?_⟩
    obtain ⟨found, positive⟩ := List.mem_filter.mp hx
    exact (least x found).resolve_left (bne_iff_ne.mp positive)
  cases hl : ((h.waitEnds u).coupleFound u res far).filter (· != 0) with
  | nil => simp [hl] at lowest
  | cons a l =>
    rw [hl, List.min?_cons'] at lowest
    rw [Hw.coupleFound, Hw.waitEnds] at hl
    simp only [Hw.coupleComplete, hc, hw, Bool.and_self, if_true, hl, Option.some.inj lowest, Hw.waitEnds]

end

/-! ### Outer ticks (R54, R56) -/

/-- An outer tick of a coupled consist falls on loop tick `t`. -/
def Hw.sendDue (h : Hw) (u t : Nat) : Bool :=
  isConsist u && h.isCoupled u && (h.clkOf u).last == t && t % (max 1 (h.get U_CONSIST_CFG_OUT_DIV u) * h.period u) == 0

/-- An outer tick of a follower falls within the loop period that its last tick began. -/
def Hw.reportDue (h : Hw) (u t : Nat) : Bool :=
  h.isFollower u && decide ((h.clkOf u).last ≤ t) && decide (t < (h.clkOf u).last + h.period u) && t % max 1 (h.unit u).cons.per == 0

/-- The outer tick `t` is noted as done. -/
def Hw.outNoted (h : Hw) (u t : Nat) : Hw := h.modU u (fun x => { x with cons := { x.cons with outAt := some t } })

theorem exec_outerTick {s : State} (on : s.on) (u t : Nat) : exec (.outerTick u t) s = s.to (s.hw.outerTick u t) :=
  s.run_live (fun h => h.outerTick u t) on

section
variable {h : Hw} {u t : Nat}

theorem Hw.outerTick_again (ha : (h.unit u).cons.outAt = some t) : h.outerTick u t = h := by
  rw [Hw.outerTick, if_pos (by simp [ha])]

theorem Hw.sendDue_off (off : isConsist u = false ∨ h.isCoupled u = false ∨ t % (max 1 (h.get U_CONSIST_CFG_OUT_DIV u) * h.period u) ≠ 0) :
    h.sendDue u t = false := by
  rcases off with noConsist | uncoupled | between
  · rw [Hw.sendDue, noConsist, Bool.false_and, Bool.false_and, Bool.false_and]
  · rw [Hw.sendDue, uncoupled, Bool.and_false, Bool.false_and, Bool.false_and]
  · rw [Hw.sendDue, beq_eq_false_iff_ne.mpr between, Bool.and_false]

theorem Hw.outerTick_nothing (hs : h.sendDue u t = false) (hr : h.reportDue u t = false) : h.outerTick u t = h := by
  rw [Hw.sendDue] at hs
  rw [Hw.reportDue] at hr
  simp only [Hw.outerTick, hs, hr, Bool.not_false, Bool.and_self, if_true, ite_self]

variable (ht : (h.clkOf u).ticked = true) (ha : (h.unit u).cons.outAt ≠ some t)
include ht ha

theorem Hw.outerTick_sends (hs : h.sendDue u t = true) :
    h.outerTick u t =
      if h.reportDue u t then ((h.outNoted u t).outerSend u t).outerReport u else (h.outNoted u t).outerSend u t := by
  rw [Hw.sendDue] at hs
  have first : ¬ (!(h.clkOf u).ticked || (h.unit u).cons.outAt == some t) = true := by simp [ht, ha]
  simp only [Hw.outerTick, if_neg first, hs, Bool.not_true, Bool.false_and, Bool.false_eq_true, if_false, if_true]
  rfl

theorem Hw.outerTick_reports (hs : h.sendDue u t = false) (hr : h.reportDue u t = true) :
    h.outerTick u t = (h.outNoted u t).outerReport u := by
  rw [Hw.sendDue] at hs
  rw [Hw.reportDue] at hr
  have first : ¬ (!(h.clkOf u).ticked || (h.unit u).cons.outAt == some t) = true := by simp [ht, ha]
  simp only [Hw.outerTick, if_neg first, hs, hr, Bool.not_true, Bool.and_false, Bool.false_eq_true, if_false, if_true, Hw.outNoted]

end

/-- To note an outer tick leaves the members that have not departed. -/
theorem Hw.members_outNoted (h : Hw) (u t : Nat) : (h.outNoted u t).members u = h.members u := by
  simp only [Hw.members, Hw.outNoted, Hw.modU_unit_self]

/-- The silence of each follower of `rs` counted at an outer tick. -/
def Hw.silenceCounted (h : Hw) (u : Nat) (rs : List (Nat × Nat × Nat × Bool × Nat)) : Hw :=
  h.modU u (fun x => { x with cons := { x.cons with
    heard := [], silent := rs.map (fun m => (m.1, (if x.cons.heard.contains m.1 then 0 else tget x.cons.silent m.1 0 + 1))) } })

theorem Hw.outerSend_dark {h : Hw} {u t : Nat} (dark : h.dark = true) :
    h.outerSend u t = h.silenceCounted u ((h.members u).filter (fun m => m.2.2.2.1)) :=
  if_pos dark

theorem Hw.outerSend_light {h : Hw} {u t : Nat} (dark : h.dark = false) :
    h.outerSend u t =
      (h.silenceCounted u ((h.members u).filter (fun m => m.2.2.2.1))).each ((h.members u).filter (fun m => m.2.2.2.1)) (fun g m =>
        g.lineSend { lane := 1, ty := 1, dest := m.2.2.1, words :=
          [outerW0 u m.1, g.get U_DRV_CODE_CODE u, codeW (g.shareTgt u), (t + h.get TW_LINE_LAT_TICKS 0) % 2 ^ 32,
           (t + h.get TW_LINE_LAT_TICKS 0) / 2 ^ 32 % 2 ^ 32, 0, 0, 0] }) :=
  if_neg (ne_true_of_eq_false dark)

/-! ### Silence (R56) -/

theorem exec_followerSilence {s : State} (on : s.on) (u k : Nat) : exec (.followerSilence u k) s = s.to (s.hw.followerSilence u k) :=
  s.run_live (fun h => h.followerSilence u k) on

theorem exec_headSilence {s : State} (on : s.on) (u : Nat) : exec (.headSilence u) s = s.to (s.hw.headSilence u) :=
  s.run_live (fun h => h.headSilence u) on

theorem Hw.followerSilence_lost {h : Hw} {u k : Nat} (coupled : h.isCoupled u = true)
    (long : max 1 (h.get U_CONSIST_CFG_LOST_N u) ≤ tget (h.unit u).cons.silent k 0) : h.followerSilence u k = h.depart u k := by
  rw [Hw.followerSilence, if_pos (by rw [coupled, decide_eq_true long]; rfl)]

theorem Hw.followerSilence_short {h : Hw} {u k : Nat} (short : tget (h.unit u).cons.silent k 0 < max 1 (h.get U_CONSIST_CFG_LOST_N u)) :
    h.followerSilence u k = h := by
  rw [Hw.followerSilence, if_neg (by rw [decide_eq_false (Nat.not_le.mpr short), Bool.and_false]; decide)]

theorem Hw.headSilence_lost {h : Hw} {u : Nat} (follower : h.isFollower u = true) (new : (h.unit u).cons.lost = false)
    (long : (h.unit u).cons.lostN ≤ (h.unit u).cons.noUpd) :
    h.headSilence u = (h.modU u (fun y => { y with cons := { y.cons with lost := true } })).remoteLost u 8 := by
  rw [Hw.headSilence, if_pos (by rw [follower, new, decide_eq_true long]; rfl)]

theorem Hw.headSilence_short {h : Hw} {u : Nat} (short : (h.unit u).cons.noUpd < (h.unit u).cons.lostN) : h.headSilence u = h := by
  rw [Hw.headSilence, if_neg (by rw [decide_eq_false (Nat.not_le.mpr short), Bool.and_false]; decide)]

/-- Settles O26: a command by what the checks find, an uncoupled consist by what its members' leaving keeps, a completion by the least of what
is found, an outer tick by what is due at it. -/
theorem consistsCoupleAndWatch : Obligations.ConsistsCoupleAndWatch := by
  refine ⟨fun s m c hs hc => ⟨fun hb hr => ?refused, fun hb hr far => ?waits, fun hb hr far => ?coupled, fun hb iso => ?uncoupleRefused,
      fun hb iso => ?uncoupled, fun hb => ?busy, fun hw res far hres => ⟨fun zero => ?completes, fun r hr h0 least => ?fails⟩⟩,
    fun s u k t on => ⟨fun ht hl ha hc coupled hm => ⟨fun dark => ?dark, fun dark => ?sends⟩, fun ht ha due off => ?reports, fun ha => ?again,
      fun due off => ?nothing, fun coupled long => ?follower, fun short => ?followerHeard, fun foll new long => ?head, fun short => ?headHeard⟩⟩
  case refused => rw [exec_couple hs hc, Hw.couple_refused hc hb hr]
  case waits => rw [exec_couple hs hc, Hw.couple_waits hc hb hr far]
  case coupled => exact ⟨by rw [exec_couple hs hc, Hw.couple_done hc hb hr far], Hw.coupleDone_result _ c 0⟩
  case uncoupleRefused => rw [exec_uncouple hs hc, Hw.uncouple_refused hc hb iso]
  case uncoupled => exact ⟨by rw [exec_uncouple hs hc, Hw.uncouple_done hc hb iso], Hw.uncoupleDone_shows _ c⟩
  case busy =>
    exact ⟨by rw [exec_couple hs hc, Hw.couple_busy hb], by rw [exec_uncouple hs hc, Hw.uncouple_busy hb]⟩
  case completes => rw [exec_coupleComplete hs.1 c hres]; exact congrArg s.to (Hw.coupleComplete_done hc hw zero)
  case fails => rw [exec_coupleComplete hs.1 c hres]; exact congrArg s.to (Hw.coupleComplete_refused hc hw hr h0 least)
  case dark =>
    have due : s.hw.sendDue u t = true := by simp [Hw.sendDue, hc, coupled, hl, hm]
    rw [exec_outerTick on, Hw.outerTick_sends ht ha due, Hw.outerSend_dark (h := s.hw.outNoted u t) dark, Hw.members_outNoted]
    rfl
  case sends =>
    have due : s.hw.sendDue u t = true := by simp [Hw.sendDue, hc, coupled, hl, hm]
    rw [exec_outerTick on, Hw.outerTick_sends ht ha due, Hw.outerSend_light (h := s.hw.outNoted u t) dark, Hw.members_outNoted]
    rfl
  case reports => rw [exec_outerTick on, Hw.outerTick_reports ht ha (Hw.sendDue_off off) due]; rfl
  case again => rw [exec_outerTick on, Hw.outerTick_again ha]
  case nothing => rw [exec_outerTick on, Hw.outerTick_nothing (Hw.sendDue_off (off.elim (fun b => .inr (.inr b)) fun n => .inr (.inl n))) due]
  case follower => rw [exec_followerSilence on, Hw.followerSilence_lost coupled long]
  case followerHeard => rw [exec_followerSilence on, Hw.followerSilence_short short]
  case head => rw [exec_headSilence on, Hw.headSilence_lost foll new long]
  case headHeard => rw [exec_headSilence on, Hw.headSilence_short short]

end Sys2Proof.Machine
end

section
/-! Capture commands, the move of a waiting extension record, measured values, and conversions of the auxiliary converters (R35, R149 to R151,
R154 to R158, R163, R177, R178, R267). -/

namespace Sys2Proof.Machine

/-! ### Capture commands (R149, R150) -/

section
variable {s : State} {m : Master} {c : Nat} (hs : s.hears m) (hc : s.hw.hasCap c = true)
include hs hc

/-- A command of a master that writes MUS_CAP_CMD. -/
theorem State.run_capCmd (v : Nat) :
    s.run (fun h => h.byHost m (h.hasCap c) (fun h => h.capWrite c 0x24 v)) = s.wrote m (s.hw.capWrite c 0x24 v) :=
  State.run_byHost hs (fun h => h.hasCap c) (fun h => h.capWrite c 0x24 v) hc

theorem exec_capArm : exec (.capArm m c) s = s.wrote m ((s.hw.passGuard (s.hw.get MUS_CAP_UNIT_UNIT c)).capArm c) :=
  State.run_capCmd hs hc 1

theorem exec_capStop : exec (.capStop m c) s = s.wrote m ((s.hw.passGuard (s.hw.get MUS_CAP_UNIT_UNIT c)).capStop c) :=
  State.run_capCmd hs hc 2

theorem exec_capForce : exec (.capForce m c) s = s.wrote m ((s.hw.passGuard (s.hw.get MUS_CAP_UNIT_UNIT c)).capForce c) :=
  State.run_capCmd hs hc 3

end

section
variable {h : Hw} {c : Nat}

/-- MUS_CAP_CMD shows the command and changes neither the capture's state nor its unit. -/
theorem Hw.get_put_capCmd (h : Hw) (v : Nat) {F : Fld} (j : Nat) (hF : F.pos ≠ MUS_CAP_CMD_CMD.pos ∧ F.stride = 0) :
    (h.put MUS_CAP_CMD_CMD c v).get F j = h.get F j :=
  h.get_put_pos c v j ⟨hF.1, hF.2, rfl⟩

theorem Hw.capForce_armed (armed : h.get MUS_CAP_STAT_STATE c = 1) :
    h.capForce c = (h.put MUS_CAP_CMD_CMD c 3).modC c (fun x => { x with trig := true }) := by
  rw [Hw.capForce, if_pos ((h.get_put_capCmd 3 c (by decide)).trans armed)]

theorem Hw.capForce_not_armed (other : h.get MUS_CAP_STAT_STATE c ≠ 1) : h.capForce c = h.put MUS_CAP_CMD_CMD c 3 := by
  rw [Hw.capForce, if_neg (by rwa [h.get_put_capCmd 3 c (by decide)])]

/-- ARM waits where the capture's unit has ticks, and is examined at once where it has none (notes/assumptions/42.md). -/
theorem Hw.capArm_eq (h : Hw) (c : Nat) :
    h.capArm c = if h.runs (h.get MUS_CAP_UNIT_UNIT c) then (h.put MUS_CAP_CMD_CMD c 1).modC c (fun x => { x with arm := true })
      else (h.put MUS_CAP_CMD_CMD c 1).armExam c := by
  rw [Hw.capArm, h.get_put_capCmd 1 c (by decide), Hw.runs_put]

theorem exec_captureDone {s : State} (on : s.on) (c : Nat) : exec (.captureDone c) s = s.to (s.hw.capDone c) :=
  s.run_live (fun h => h.capDone c) on

theorem Hw.capDone_complete (triggered : h.get MUS_CAP_STAT_STATE c = 2) (post : h.get MUS_CAP_DEPTH_POST c ≤ (h.cap c).post) :
    h.capDone c = h.put MUS_CAP_STAT_STATE c 3 :=
  if_pos ⟨triggered, post⟩

end

/-! ### Extension records (R35, R151, R267) -/

section
variable {h : Hw} {r : Res} {who rank : Nat}

theorem Hw.twAsk_held (held : h.holds r who = true) : h.twAsk r who rank = h := by simp [Hw.twAsk, held]

theorem Hw.twAsk_waiting (waits : ((h.arb r).pend.any (fun q => q.who == who)) = true) : h.twAsk r who rank = h := by simp [Hw.twAsk, waits]

theorem Hw.twAsk_new (free : h.holds r who = false) (new : ((h.arb r).pend.any (fun q => q.who == who)) = false) :
    h.twAsk r who rank = h.tokReq r { who := who, rank := rank } := by simp [Hw.twAsk, free, new]

end

theorem exec_muslinExtensionMove {s : State} (on : s.on) (c : Nat) : exec (.muslinExtensionMove c) s = s.to (s.hw.capMove c).settle :=
  s.run_live (fun h => (h.capMove c).settle) on

/-- The oldest waiting record of a capture, of words `ws`, leaves for the ring at `a` through the ring guard; the records `r` still wait. -/
def Hw.recordMoved (h : Hw) (c a : Nat) (ws : List Nat) (r : List (Nat × List Nat)) : Hw :=
  (h.modC c (fun x => { x with stage := r })).ringGuard a (4 * ws.length) (fun g => g.wrWords a ws)

/-- The oldest waiting record moves under the token that is asked for, or waits for it. -/
theorem Hw.capMove_burst {h : Hw} {c k ch : Nat} {ws : List Nat} {r : List (Nat × List Nat)} (oldest : (h.cap c).stage = (k, ws) :: r)
    (hp : h.place ((h.capRing c).1 + k * h.get MUS_CAP_GEOM_ESIZE c) (4 * ws.length) = .mem)
    (hc : ddrChan ((h.capRing c).1 + k * h.get MUS_CAP_GEOM_ESIZE c) = some ch) :
    h.capMove c =
      (let g := h.twAsk (.twill (c / 8) ch) (twCap c) 6
       if g.holds (.twill (c / 8) ch) (twCap c) then
         (g.recordMoved c ((h.capRing c).1 + k * h.get MUS_CAP_GEOM_ESIZE c) ws r).tokRel (.twill (c / 8) ch) (twCap c)
       else g) := by
  have place : ((h.twAsk (.twill (c / 8) ch) (twCap c) 6).modC c (fun x => { x with stage := r })).place
      ((h.capRing c).1 + k * h.get MUS_CAP_GEOM_ESIZE c) (4 * ws.length) = .mem :=
    ((SameRest.twAsk h (c / 8) ch (twCap c) 6).place _ _).trans hp
  simp only [Hw.capMove, oldest, Hw.burst, hc, Hw.burstOf, place, Hw.recordMoved]

/-! ### Measured values (R154, R156 to R158, R163) -/

theorem exec_measOutput {s : State} (on : s.on) (u path x : Nat) (lv : List Int) (fired : List Bool) :
    exec (.measOutput u path x lv fired) s = s.to (s.hw.measOutput u path x lv fired) :=
  s.run_live (fun h => h.measOutput u path x lv fired) on

/-- An output that is due waits where its instant is the unit's own tick, and is delivered elsewhere. -/
theorem Hw.measOutput_due {h : Hw} {u path x : Nat} {lv : List Int} {fired : List Bool} (runs : h.runs u = true) (hpath : path < 3)
    (instant : x % (4 * (h.mdec u path).d) = 0) (hx : h.now ≤ x) (new : (h.unit (h.headOf u)).clk.last < x) (turn : h.measTurn u path x = true) :
    h.measOutput u path x lv fired =
      (let y := (h.mdec u path).sum lv
       let ovr := (fired.take (h.mdec u path).window).any id
       if x % ({ h with now := x } : Hw).period u = 0 then ({ h with now := x } : Hw).modM u path (fun z => { z with pendOut := some (x, y, ovr) })
       else ({ h with now := x } : Hw).measDeliver u path x y ovr) :=
  if_pos (by simp [runs, hpath, instant, hx, new, turn])

/-! ### Conversions of the auxiliary converters (R177, R178) -/

theorem exec_auxConversionDone {s : State} (on : s.on) (d w : Nat) (q fwd : Int) (t : Nat) :
    exec (.auxConversionDone d w q fwd t) s = s.to (s.hw.auxDone d w q fwd t) :=
  s.run_live (fun h => h.auxDone d w q fwd t) on

section
variable {h : Hw} {d w t : Nat} {q fwd : Int}

/-- A conversion ends for the holder of the token, at the end of its conversion time. -/
theorem Hw.auxDone_early (off : h.holds (.aux d) w = false ∨ t ≠ h.auxEnd d w) : h.auxDone d w q fwd t = h :=
  if_pos (by simpa using off)

variable (held : h.holds (.aux d) w = true) (ends : t = h.auxEnd d w)
include held ends

/-- A conversion at its end: a visit's check, a supply monitor's, or a sensor's reading. -/
theorem Hw.auxDone_ends :
    h.auxDone d w q fwd t =
      (let g : Hw := { h with now := max h.now t }
       if w / 16 = 5 then
         ((if w % 16 % 8 < 4 then g.thReading (d * 12 + w % 16 % 8) q fwd t else g).tokRel (.aux d) w).visDeliver d (w % 16) q
       else if w / 16 = 0 ∨ 14 ≤ w / 16 ∨ 12 ≤ w % 16 then g.tokRel (.aux d) w
       else (g.thReading (d * 12 + w % 16) q fwd t).thDeliver d w) :=
  if_neg (by simp [held, ends])

theorem Hw.auxDone_calref (check : w / 16 = 5) (calref : 4 ≤ w % 8) :
    h.auxDone d w q fwd t = (({ h with now := max h.now t } : Hw).tokRel (.aux d) w).visDeliver d (w % 16) q := by
  simp only [Hw.auxDone_ends held ends, if_pos check, if_neg (show ¬ w % 16 % 8 < 4 by omega)]

theorem Hw.auxDone_check (check : w / 16 = 5) (sensor : w % 8 < 4) :
    h.auxDone d w q fwd t =
      ((({ h with now := max h.now t } : Hw).thReading (d * 12 + w % 16 % 8) q fwd t).tokRel (.aux d) w).visDeliver d (w % 16) q := by
  simp only [Hw.auxDone_ends held ends, if_pos check, if_pos (show w % 16 % 8 < 4 by omega)]

theorem Hw.auxDone_reading (asked : 1 ≤ w / 16 ∧ w / 16 < 14 ∧ w / 16 ≠ 5) (sensor : w % 16 < 12) :
    h.auxDone d w q fwd t = (({ h with now := max h.now t } : Hw).thReading (d * 12 + w % 16) q fwd t).thDeliver d w := by
  obtain ⟨first, last, check⟩ := asked
  simp only [Hw.auxDone_ends held ends, if_neg check, if_neg (show ¬ (w / 16 = 0 ∨ 14 ≤ w / 16 ∨ 12 ≤ w % 16) by omega)]

end

/-- Settles O21: a capture command by the capture's state and its unit, a record's move by who holds the token, an output that is due, and a
conversion by its requester. -/
theorem captureAndMeasurement : Obligations.CaptureAndMeasurement := by
  refine ⟨fun s m c hs hc => ⟨?stop, fun armed => ?force, fun other => ?forceNothing, fun runs => ?armWaits, fun dark => ?armExamined,
      fun triggered post => ?done, fun k ws r oldest hp ch hch => ?move⟩,
    fun s u path x d w lv q fwd fired t on => ⟨fun runs hpath instant hx new turn => ?measured, fun held ends =>
      ⟨fun check calref => ?calref, fun check sensor => ?check, fun first last check sensor => ?reading⟩, fun off => ?early⟩⟩
  case stop => exact exec_capStop hs hc
  case force => rw [exec_capForce hs hc, Hw.capForce_armed armed]
  case forceNothing => rw [exec_capForce hs hc, Hw.capForce_not_armed other]
  case armWaits => rw [exec_capArm hs hc, Hw.capArm_eq, if_pos runs]
  case armExamined => rw [exec_capArm hs hc, Hw.capArm_eq, if_neg (ne_true_of_eq_false dark)]
  case done => rw [exec_captureDone hs.1, Hw.capDone_complete triggered post]
  case move =>
    rw [exec_muslinExtensionMove hs.1, Hw.capMove_burst oldest hp hch]
    refine ⟨fun held => ?holds, fun free waits => ?waits, fun free new => ?asks⟩
    case holds => rw [Hw.twAsk_held held, if_pos held]; rfl
    case waits => rw [Hw.twAsk_waiting waits, if_neg (ne_true_of_eq_false free)]
    case asks => rw [Hw.twAsk_new free new]; rfl
  case measured => rw [exec_measOutput on, Hw.measOutput_due runs hpath instant hx new turn]; rfl
  case calref => rw [exec_auxConversionDone on, Hw.auxDone_calref held ends check calref]
  case check => rw [exec_auxConversionDone on, Hw.auxDone_check held ends check sensor]
  case reading => rw [exec_auxConversionDone on, Hw.auxDone_reading held ends ⟨first, last, check⟩ sensor]
  case early => rw [exec_auxConversionDone on, Hw.auxDone_early off]

end Sys2Proof.Machine
end

section
/-! Timetable instruction words: an opcode's operand bits, and decoding and encoding as inverses of each other (R216, R223). -/

namespace Sys2Proof.Machine

/-- The operand bits of an opcode as two runs of bits: the lowest bit of the upper run, its length, and the length of the lower run from bit 0 on. -/
def insRuns (op : Nat) : Nat × Nat × Nat :=
  match op with
  | 0x01 => (58, 0, 58)
  | 0x02 => (58, 0, 40)
  | 0x03 => (58, 0, 58)
  | 0x04 => (58, 0, 56)
  | 0x05 => (58, 0, 32)
  | 0x06 => (58, 0, 32)
  | 0x07 => (58, 0, 4)
  | 0x08 => (58, 0, 4)
  | 0x09 => (58, 0, 3)
  | 0x0A => (8, 5, 6)
  | 0x0B => (40, 18, 24)
  | 0x0C => (58, 0, 32)
  | 0x0E => (58, 0, 1)
  | 0x0F => (58, 0, 32)
  | 0x10 => (58, 0, 40)
  | 0x12 => (52, 3, 48)
  | 0x13 => (40, 9, 32)
  | 0x14 => (8, 1, 4)
  | 0x15 => (58, 0, 1)
  | _ => (58, 0, 0)

/-- The operand bits of a word lie in its opcode's two runs. -/
abbrev InRuns (op body : Nat) : Prop := body / 2 ^ (insRuns op).1 < 2 ^ (insRuns op).2.1 ∧ body % 2 ^ (insRuns op).1 < 2 ^ (insRuns op).2.2

theorem insMask_eq_runs :
    ∀ op, op ≤ 0x16 → insMask op = 2 ^ (insRuns op).1 * (2 ^ (insRuns op).2.1 - 1) + (2 ^ (insRuns op).2.2 - 1) := by
  decide

theorem insRuns_le : ∀ op, op ≤ 0x16 → (insRuns op).2.2 ≤ (insRuns op).1 := by decide

/-- A number has no bit outside a mask of two runs exactly where its two parts fit the runs. -/
theorem and_runs_iff {k hi lo x : Nat} (hk : lo ≤ k) :
    x &&& (2 ^ k * (2 ^ hi - 1) + (2 ^ lo - 1)) = x ↔ x / 2 ^ k < 2 ^ hi ∧ x % 2 ^ k < 2 ^ lo := by
  have low : 2 ^ lo - 1 < 2 ^ k := Nat.lt_of_lt_of_le (Nat.sub_one_lt (Nat.ne_of_gt (Nat.two_pow_pos lo))) (Nat.pow_le_pow_right (by decide) hk)
  have parts : x &&& (2 ^ k * (2 ^ hi - 1) + (2 ^ lo - 1)) = 2 ^ k * (x / 2 ^ k % 2 ^ hi) + x % 2 ^ k % 2 ^ lo := by
    have small : x % 2 ^ k % 2 ^ lo < 2 ^ k := Nat.lt_of_le_of_lt (Nat.mod_le _ _) (Nat.mod_lt _ (Nat.two_pow_pos k))
    apply Nat.eq_of_testBit_eq
    intro i
    rw [Nat.testBit_and, Nat.testBit_two_pow_mul_add _ low, Nat.testBit_two_pow_mul_add _ small]
    by_cases lower : i < k
    · simp [lower, Nat.testBit_two_pow_sub_one, Nat.testBit_mod_two_pow, Bool.and_comm]
    · simp [lower, Nat.testBit_two_pow_sub_one, Nat.testBit_mod_two_pow, Nat.testBit_div_two_pow,
        Nat.sub_add_cancel (Nat.le_of_not_lt lower), Bool.and_comm]
  have whole : 2 ^ k * (x / 2 ^ k) + x % 2 ^ k = x := Nat.div_add_mod x (2 ^ k)
  rw [parts]
  constructor
  · intro same
    have upper : 2 ^ k * (x / 2 ^ k % 2 ^ hi) ≤ 2 ^ k * (x / 2 ^ k) := Nat.mul_le_mul_left _ (Nat.mod_le _ _)
    have lower : x % 2 ^ k % 2 ^ lo ≤ x % 2 ^ k := Nat.mod_le _ _
    have upperEq : 2 ^ k * (x / 2 ^ k % 2 ^ hi) = 2 ^ k * (x / 2 ^ k) := by omega
    have lowerEq : x % 2 ^ k % 2 ^ lo = x % 2 ^ k := by omega
    have upperPart := Nat.eq_of_mul_eq_mul_left (Nat.two_pow_pos k) upperEq
    exact ⟨upperPart ▸ Nat.mod_lt _ (Nat.two_pow_pos hi), lowerEq ▸ Nat.mod_lt _ (Nat.two_pow_pos lo)⟩
  · rintro ⟨upper, lower⟩
    rw [Nat.mod_eq_of_lt upper, Nat.mod_eq_of_lt lower, whole]

/-- A word's operand bits lie in its opcode's mask exactly where they lie in its two runs. -/
theorem and_insMask_iff {op x : Nat} (hop : op ≤ 0x16) : x &&& insMask op = x ↔ InRuns op x := by
  rw [insMask_eq_runs op hop]
  exact and_runs_iff (insRuns_le op hop)

/-- The opcode of an instruction (R223). -/
def insCode : TIns → Nat
  | .halt => 0x00
  | .set .. => 0x01
  | .sweep .. => 0x02
  | .list .. => 0x03
  | .play .. => 0x04
  | .stream .. => 0x05
  | .dwell .. => 0x06
  | .openB .. => 0x07
  | .closeB .. => 0x08
  | .mode .. => 0x09
  | .range .. => 0x0A
  | .junction .. => 0x0B
  | .loop .. => 0x0C
  | .next => 0x0D
  | .mark .. => 0x0E
  | .rewind .. => 0x0F
  | .call .. => 0x10
  | .ret => 0x11
  | .waitev .. => 0x12
  | .signal .. => 0x13
  | .therm .. => 0x14
  | .connect .. => 0x15
  | .isolate => 0x16

theorem insCode_le (i : TIns) : insCode i ≤ 0x16 := by cases i <;> exact Nat.le_of_ble_eq_true rfl

/-- An instruction's word begins with its opcode, and its operands leave the reserved bits 0. -/
theorem encIns_code_mask {i : TIns} (fits : insFits i = true) :
    bits (encIns i) 63 58 = insCode i ∧ (encIns i % 2 ^ 58) &&& insMask (insCode i) = encIns i % 2 ^ 58 := by
  rw [and_insMask_iff (insCode_le i)]
  cases i
  case halt | next | ret | isolate => decide
  all_goals
    simp only [insFits, decide_eq_true_eq] at fits
    simp only [bits, encIns, insCode, InRuns, insRuns]
    omega

theorem decode_encode {i : TIns} (fits : insFits i = true) : decodeIns (encIns i) = (0, i) := by
  obtain ⟨code, mask⟩ := encIns_code_mask fits
  have table : ¬ 0x16 < insCode i := Nat.not_lt.mpr (insCode_le i)
  simp only [decodeIns, code, mask, if_neg table, ne_eq, not_true_eq_false, if_false, Prod.mk.injEq, true_and]
  cases i
  case halt | next | ret | isolate => rfl
  all_goals
    simp only [insFits, decide_eq_true_eq] at fits
    simp only [insCode, bits, encIns, TIns.set.injEq, TIns.sweep.injEq, TIns.list.injEq, TIns.play.injEq, TIns.stream.injEq, TIns.dwell.injEq,
      TIns.openB.injEq, TIns.closeB.injEq, TIns.mode.injEq, TIns.range.injEq, TIns.junction.injEq, TIns.loop.injEq, TIns.mark.injEq,
      TIns.rewind.injEq, TIns.call.injEq, TIns.waitev.injEq, TIns.signal.injEq, TIns.therm.injEq, TIns.connect.injEq]
    omega

/-- The operand bits of a word lie in a mask exactly where each of them does. -/
theorem and_mask_iff_bits (w m n : Nat) : (w % 2 ^ n) &&& m = w % 2 ^ n ↔ ∀ k, k < n → bit w k = true → bit m k = true := by
  simp only [bit_eq_testBit]
  constructor
  · intro same k hk one
    have here := congrArg (Nat.testBit · k) same
    simpa [Nat.testBit_and, Nat.testBit_mod_two_pow, hk, one] using here
  · intro within
    apply Nat.eq_of_testBit_eq
    intro k
    by_cases hk : k < n
    · cases one : w.testBit k
      · simp [Nat.testBit_mod_two_pow, one]
      · simp [Nat.testBit_mod_two_pow, one, within k hk one]
    · simp [Nat.testBit_mod_two_pow, hk]

theorem decodeIns_unknown {w : Nat} (code : 0x16 < bits w 63 58) : (decodeIns w).1 = 1 := by rw [decodeIns, if_pos code]

theorem decodeIns_reserved {w : Nat} (table : bits w 63 58 ≤ 0x16) (mask : (w % 2 ^ 58) &&& insMask (bits w 63 58) ≠ w % 2 ^ 58) :
    (decodeIns w).1 = 2 := by
  rw [decodeIns, if_neg (Nat.not_lt.mpr table), if_pos mask]

/-- Adjacent fields of a word make one field. -/
theorem bits_join (w : Nat) {hi k mid lo : Nat} (adjacent : k = mid + 1) (lower : lo ≤ mid) (upper : k ≤ hi) :
    bits w hi k * 2 ^ k + bits w mid lo * 2 ^ lo = bits w hi lo * 2 ^ lo := by
  obtain ⟨n, rfl⟩ := Nat.exists_eq_add_of_le lower
  obtain ⟨m, rfl⟩ := Nat.exists_eq_add_of_le upper
  subst adjacent
  have sizes : lo + n + 1 + m - lo + 1 = n + 1 + (m + 1) := by omega
  have low : lo + n - lo + 1 = n + 1 := by omega
  have high : lo + n + 1 + m - (lo + n + 1) + 1 = m + 1 := by omega
  have split : w / 2 ^ lo % 2 ^ (n + 1 + (m + 1)) = w / 2 ^ lo % 2 ^ (n + 1) + 2 ^ (n + 1) * (w / 2 ^ (lo + n + 1) % 2 ^ (m + 1)) := by
    rw [Nat.pow_add 2 (n + 1), Nat.mod_mul, Nat.div_div_eq_div_mul, ← Nat.pow_add, Nat.add_assoc lo]
  rw [bits, bits, bits, sizes, low, high, split, Nat.add_mul, Nat.add_assoc lo n 1, Nat.pow_add 2 lo, Nat.add_comm]
  simp only [Nat.mul_assoc, Nat.mul_comm]

theorem opcode_cases {op : Nat} (table : op ≤ 0x16) (other : op ≠ 0x0B) :
    op = 0x00 ∨ op = 0x01 ∨ op = 0x02 ∨ op = 0x03 ∨ op = 0x04 ∨ op = 0x05 ∨ op = 0x06 ∨ op = 0x07 ∨ op = 0x08 ∨ op = 0x09 ∨ op = 0x0A ∨
      op = 0x0C ∨ op = 0x0D ∨ op = 0x0E ∨ op = 0x0F ∨ op = 0x10 ∨ op = 0x11 ∨ op = 0x12 ∨ op = 0x13 ∨ op = 0x14 ∨ op = 0x15 ∨ op = 0x16 := by
  omega

/-- A word without a reserved bit decodes to an instruction that fits and whose word it is. A junction's eight adjacent fields are joined to
one first. -/
theorem encode_decode {w : Nat} (hw : w < 2 ^ 64) (table : bits w 63 58 ≤ 0x16) (mask : (w % 2 ^ 58) &&& insMask (bits w 63 58) = w % 2 ^ 58) :
    (decodeIns w).1 = 0 ∧ insFits (decodeIns w).2 = true ∧ encIns (decodeIns w).2 = w := by
  have runs := (and_insMask_iff table).mp mask
  generalize code : bits w 63 58 = op at table mask runs
  have known : ¬ 0x16 < op := Nat.not_lt.mpr table
  simp only [decodeIns, code, mask, if_neg known, ne_eq, not_true_eq_false, if_false, true_and]
  clear mask known
  by_cases junction : op = 0x0B
  · subst junction
    simp only [InRuns, insRuns] at runs
    simp only [insFits, encIns, decide_eq_true_eq]
    rw [← code]
    simp (disch := decide) only [bits_join]
    simp only [bits]
    and_intros <;> omega
  · rcases opcode_cases table junction with rfl | rfl | rfl | rfl | rfl | rfl | rfl | rfl | rfl | rfl | rfl | rfl | rfl | rfl | rfl | rfl | rfl | rfl |
      rfl | rfl | rfl | rfl
    all_goals
      clear junction
      simp only [InRuns, insRuns] at runs
      simp only [insFits, encIns, bits, decide_eq_true_eq, true_and] at code ⊢
      and_intros <;> omega

/-- Settles O28, instruction by instruction: the word begins with the opcode, has no reserved bit, and its fields are the operands. -/
theorem decodingAnEncodedInstructionGivesItBack : Obligations.DecodingAnEncodedInstructionGivesItBack := fun _ => decode_encode

/-- Settles O29, by the opcode and the mask of its operand bits, and for a legal word opcode by opcode. -/
theorem instructionWordsDecodeByTheTable : Obligations.InstructionWordsDecodeByTheTable := by
  refine ⟨fun w _ code => decodeIns_unknown code, fun w _ table ⟨k, hk, one, reserved⟩ => ?reserved, fun w hw table within => ?legal, rfl⟩
  case reserved =>
    refine decodeIns_reserved table fun mask => ?_
    exact Bool.false_ne_true (reserved.symm.trans ((and_mask_iff_bits w _ 58).mp mask k hk one))
  case legal => exact encode_decode hw table ((and_mask_iff_bits w _ 58).mpr within)

end Sys2Proof.Machine
end

section
/-! Timetable instructions in their step: effects that gather, control, and what ends a step (R216 to R218, R224 to R239, R249, R252, R263,
R266). -/

namespace Sys2Proof.Machine

/-! ### What an instruction leaves alone of its engine (R212, R217) -/

@[simp] theorem Hw.eng_of_setPc (h : Hw) (e a j : Nat) : (h.setPc e a).eng j = h.eng j := rfl

@[simp] theorem Hw.eng_of_insNext (h : Hw) (e j : Nat) : (h.insNext e).eng j = h.eng j := rfl

@[simp] theorem Hw.modAcc_eng (h : Hw) (e : Nat) (f : StepAcc → StepAcc) :
    (h.modAcc e f).eng e = { h.eng e with acc := f (h.eng e).acc } := h.modE_eng_self e _

/-- Setting the stacks changes of an engine, beside its registers, the stacks alone. -/
@[simp] theorem Hw.setStacks_eng (h : Hw) (e : Nat) (l : List LoopLv) (c : List (Nat × Nat)) :
    (h.setStacks e l c).eng e = { h.eng e with loops := l, calls := c } := by
  refine Hw.each_keeps (P := fun g => g.eng e = { h.eng e with loops := l, calls := c }) ?_ fun _ _ same => same
  rw [Hw.eng_of_put, Hw.eng_of_put, Hw.modE_eng_self]

@[simp] theorem Hw.insErr_need (h : Hw) (e c : Nat) : ((h.insErr e c).eng e).need = (h.eng e).need := by rw [Hw.insErr, Hw.modAcc_eng]

@[simp] theorem Hw.insEnd_need (h : Hw) (e : Nat) (x : StepEnd) : ((h.insEnd e x).eng e).need = (h.eng e).need := by
  rw [Hw.insEnd, Hw.eng_of_insNext, Hw.modAcc_eng]

@[simp] theorem Hw.insWait_need (h : Hw) (e : Nat) (c : WaitC) : ((h.insWait e c).eng e).need = (h.eng e).need := by
  rw [Hw.insWait, Hw.modE_eng_self, Hw.eng_of_insNext]

/-- The begin of a step asks for no line. -/
theorem Hw.stepBegin_need (h : Hw) (e : Nat) : ((h.stepBegin e).eng e).need = (h.eng e).need := by
  unfold Hw.stepBegin
  split
  · rw [Hw.modE_eng_self]
  · rfl

@[simp] theorem Hw.counted_need (h : Hw) (e : Nat) : ((h.counted e).eng e).need = (h.eng e).need := by
  rw [Hw.counted, Hw.modAcc_eng, Hw.stepBegin_need]

/-! ### An instruction in its step (R216, R217) -/

theorem Hw.stepping_need {h : Hw} {e : Nat} (steps : h.stepping e = true) : (h.eng e).need = none := by
  simp only [Hw.stepping, Bool.and_eq_true, Option.isNone_iff_eq_none] at steps
  obtain ⟨⟨⟨_, need⟩, _⟩, _⟩ := steps
  exact need

/-- An instruction that is no junction, that the step may take and that needs no line, does to the step what it is for. -/
theorem Hw.stepOne_meets {g x : Hw} {e : Nat} {i : TIns} {p : Bool} (meets : g.meetsIns e i) (goes : (g.stepBegin e).juncWaits e i p = false)
    (does : (g.stepBegin e).doTIns e i p = x) (need : (x.eng e).need = none) : g.stepOne e i p = x := by
  obtain ⟨steps, fetched, room⟩ := meets
  simp [Hw.stepOne, steps, fetched, Hw.execTIns, goes, does, need, room]

/-- A command that is an instruction of a step: the step goes on with what the instruction does. -/
theorem State.run_ttIns {s : State} {e : Nat} {i : TIns} {x : Hw} (on : s.on) (meets : (s.hw.passGuard (s.hw.get TT_BIND_UNIT e)).meetsIns e i)
    (does : ((s.hw.passGuard (s.hw.get TT_BIND_UNIT e)).stepBegin e).doTIns e i false = x)
    (need : ((s.hw.passGuard (s.hw.get TT_BIND_UNIT e)).eng e).need = none → (x.eng e).need = none)
    (goes : ((s.hw.passGuard (s.hw.get TT_BIND_UNIT e)).stepBegin e).juncWaits e i false = false := by exact rfl) :
    s.run (fun h => h.ttIns e i false) = s.to (x.staged e) := by
  rw [State.run_live s _ on, Hw.ttIns, Hw.stepOne_meets meets goes does (need (Hw.stepping_need meets.1))]
  rfl

/-! ### Effects (R224 to R228, R236, R252) -/

section
variable {h : Hw} {e : Nat}

theorem Hw.insSet_gathers {ovr rsh rate : Nat} (v : Nat) (ok : ovr = 1 ∨ (ovr = 0 ∧ rsh = 0 ∧ rate = 0)) :
    h.insSet e ovr rsh rate v = (h.modAcc e (fun a => { a with
      entry := some { value := sx32 v, src := 1, ovr := if ovr = 1 then some (min (rate * 2 ^ rsh) 0xFFFFFFFF) else none } })).insNext e :=
  if_neg (by omega)

theorem Hw.insSet_errs {ovr rsh rate : Nat} (v : Nat) (plain : ovr = 0) (given : rsh ≠ 0 ∨ rate ≠ 0) :
    h.insSet e ovr rsh rate v = h.insErr e 4 := if_pos ⟨plain, given⟩

theorem Hw.insTherm_gathers {k : Nat} (hk : k < 12) :
    h.insTherm e k 0 = (h.modAcc e (fun a => { a with therm := a.therm ++ [k] })).insNext e := if_neg (by omega)

theorem Hw.insSignal_gathers {ev d : Nat} (local_ : ev < 64) (lead : 32 ≤ d) :
    h.insSignal e ev d = (h.modAcc e (fun a => { a with signals := a.signals ++ [(ev, d)] })).insNext e := if_neg (by omega)

theorem Hw.insSignal_early {ev d : Nat} (local_ : ev < 64) (early : d < 32) : h.insSignal e ev d = h.insErr e 4 :=
  if_pos (.inr (.inl ⟨local_, early⟩))

end

/-- Settles O31, instruction by instruction: what each adds to its step, and the two operand errors. -/
theorem effectInstructionsGather : Obligations.EffectInstructionsGather := by
  refine fun s e on => ⟨fun ovr rsh rate v meets ok => ?set, fun ovr rsh rate v meets plain given => ?setErrs, fun b meets => ?opens,
    fun b meets => ?closes, fun mo law meets => ?mode, fun ir vr ar si sv sa meets => ?range, fun k meets hk => ?therm,
    fun ev d meets hev hd => ?signal, fun ev d meets hev hd => ?signalErrs⟩
  case set => exact State.run_ttIns on meets (Hw.insSet_gathers v ok) (by simp)
  case setErrs => exact State.run_ttIns on meets (Hw.insSet_errs v plain given) (by simp)
  case opens => exact State.run_ttIns on meets rfl (by simp)
  case closes => exact State.run_ttIns on meets rfl (by simp)
  case mode => exact State.run_ttIns on meets rfl (by simp)
  case range => exact State.run_ttIns on meets rfl (by simp)
  case therm => exact State.run_ttIns on meets (Hw.insTherm_gathers hk) (by simp)
  case signal => exact State.run_ttIns on meets (Hw.insSignal_gathers hev hd) (by simp)
  case signalErrs => exact State.run_ttIns on meets (Hw.insSignal_early hev hd) (by simp)

/-! ### Control (R234, R235, R239, R266) -/

section
variable {h : Hw} {e : Nat}

theorem Hw.insLoop_opens (c : Nat) (room : (h.eng e).loops.length < 8) :
    h.insLoop e c = (h.setStacks e ((h.eng e).loops ++ [{ remain := c, forever := c == 0, start := h.pc e + 8 }]) (h.eng e).calls).insNext e :=
  if_neg (Nat.not_le.mpr room)

theorem Hw.insLoop_overflows (c : Nat) (full : 8 ≤ (h.eng e).loops.length) : h.insLoop e c = h.insErr e 5 := if_pos full

theorem Hw.insNextI_empty (none_ : (h.eng e).loops = []) : h.insNextI e = h.insErr e 6 := by simp [Hw.insNextI, none_]

/-- NEXT at a level whose gap bit is clear. -/
theorem Hw.insNextI_level {below : List LoopLv} {l : LoopLv} (top : (h.eng e).loops = below ++ [l]) (gap : l.gap = false) :
    h.insNextI e =
      if l.forever then (h.setStacks e (below ++ [l]) (h.eng e).calls).setPc e l.start
      else if 1 < l.remain then (h.setStacks e (below ++ [{ l with remain := l.remain - 1 }]) (h.eng e).calls).setPc e l.start
      else (h.setStacks e below (h.eng e).calls).insNext e := by
  obtain ⟨remain, forever, start, _⟩ := l
  subst gap
  simp [Hw.insNextI, top]

theorem Hw.insCall_goes {a : Nat} (aligned : a % 8 = 0) (region : h.ttRange e a 8 = true) (room : (h.eng e).calls.length < 4) :
    h.insCall e a = (h.setStacks e (h.eng e).loops ((h.eng e).calls ++ [(h.pc e + 8, (h.eng e).loops.length)])).setPc e a := by
  simp [Hw.insCall, aligned, region, Nat.not_le.mpr room]

theorem Hw.insCall_misaligned {a : Nat} (odd : a % 8 ≠ 0) : h.insCall e a = h.insErr e 3 := if_pos (.inl odd)

theorem Hw.insCall_overflows {a : Nat} (aligned : a % 8 = 0) (region : h.ttRange e a 8 = true) (full : 4 ≤ (h.eng e).calls.length) :
    h.insCall e a = h.insErr e 7 := by
  simp [Hw.insCall, aligned, region, full]

theorem Hw.insRet_empty (none_ : (h.eng e).calls = []) : h.insRet e = h.insErr e 8 := by simp [Hw.insRet, none_]

theorem Hw.insRet_returns {below : List (Nat × Nat)} {a d : Nat} (top : (h.eng e).calls = below ++ [(a, d)]) :
    h.insRet e = (h.setStacks e ((h.eng e).loops.take d) below).setPc e a := by simp [Hw.insRet, top]

theorem Hw.insRewind_unmarked (c : Nat) (unmarked : h.flag TT_SR_STAT_MARKED e = false) : h.insRewind e c = h.insErr e 4 := by
  simp [Hw.insRewind, unmarked]

theorem Hw.insRewind_forever (c : Nat) (marked : h.flag TT_SR_STAT_MARKED e = true) (begun : (h.eng e).rewinding = true)
    (forever : (h.eng e).rewForever = true) :
    h.insRewind e c = (h.put TT_SR_RP_VALUE e (h.get TT_SR_MARK_VALUE e)).insNext e := by simp [Hw.insRewind, marked, begun, forever]

end

/-- Settles O32, instruction by instruction: the stacks at their bounds, and where execution goes on. -/
theorem controlInstructionsMoveTheProgramCounter : Obligations.ControlInstructionsMoveTheProgramCounter := by
  refine fun s e on => ⟨fun c meets => ⟨fun room => ?loop, fun full => ?loopErrs⟩,
    fun meets => ⟨fun none_ => ?nextErrs, fun below l top gap finite more => ?again, fun below l top gap forever => ?forever,
      fun below l top gap finite last => ?leaves⟩,
    fun a meets => ⟨fun aligned region room => ?call, fun odd => ?callOdd, fun aligned region full => ?callErrs⟩,
    fun meets => ⟨fun none_ => ?retErrs, fun below a d top => ?ret⟩, fun meets => ?markClears, fun meets => ?mark,
    fun c meets => ⟨fun unmarked => ?rewindErrs, fun marked begun forever => ?rewind⟩, fun meets => ?halt⟩
  case loop => exact State.run_ttIns on meets (Hw.insLoop_opens c room) (by simp)
  case loopErrs => exact State.run_ttIns on meets (Hw.insLoop_overflows c full) (by simp)
  case nextErrs => exact State.run_ttIns on meets (Hw.insNextI_empty none_) (by simp)
  case again =>
    refine State.run_ttIns on meets ((Hw.insNextI_level top gap).trans ?_) (by simp)
    rw [if_neg (ne_true_of_eq_false finite), if_pos more]
  case forever => exact State.run_ttIns on meets ((Hw.insNextI_level top gap).trans (if_pos forever)) (by simp)
  case leaves =>
    refine State.run_ttIns on meets ((Hw.insNextI_level top gap).trans ?_) (by simp)
    rw [if_neg (ne_true_of_eq_false finite), if_neg (Nat.not_lt.mpr last)]
    rfl
  case call => exact State.run_ttIns on meets (Hw.insCall_goes aligned region room) (by simp)
  case callOdd => exact State.run_ttIns on meets (Hw.insCall_misaligned odd) (by simp)
  case callErrs => exact State.run_ttIns on meets (Hw.insCall_overflows aligned region full) (by simp)
  case retErrs => exact State.run_ttIns on meets (Hw.insRet_empty none_) (by simp)
  case ret => exact State.run_ttIns on meets (Hw.insRet_returns top) (by simp)
  case markClears => exact State.run_ttIns on meets rfl (by simp)
  case mark => exact State.run_ttIns on meets rfl (by simp)
  case rewindErrs => exact State.run_ttIns on meets (Hw.insRewind_unmarked c unmarked) (by simp)
  case rewind => exact State.run_ttIns on meets (Hw.insRewind_forever c marked begun forever) (by simp)
  case halt => exact State.run_ttIns on meets rfl (by simp)

/-! ### Timing and waiting (R225, R228 to R233, R236 to R238, R249, R263) -/

section
variable {h : Hw} {e a : Nat}

theorem Hw.insDwell_ends {n : Nat} (hn : n ≠ 0) : h.insDwell e n = h.insEnd e (.dwell n) := if_neg hn

theorem Hw.insDwell_zero {n : Nat} (hn : n = 0) : h.insDwell e n = h.insNext e := if_pos hn

theorem Hw.insSweep_plays {sw : SweepS} (aligned : a % 64 = 0) (region : h.ttRange e a 64 = true) (here : h.lineMiss e a 64 true = none)
    (valid : h.readSweep e a = some sw) :
    h.insSweep e a = (h.modAcc e (fun x => { x with
      entry := some { value := sw.value 0, ovr := sw.ovr, src := 1 }
      opn := if sw.settle = 0 then x.opn ||| sw.bmask else x.opn })).insEnd e (.act (.sweep sw.advance)) := by
  simp [Hw.insSweep, aligned, region, here, valid]

theorem Hw.insList_plays {c dw m : Nat} {v : Int} {op cl hold : Bool} (aligned : a % 8 = 0) (region : h.ttRange e a (8 * c) = true) (some_ : c ≠ 0)
    (here : h.lineMiss e a 8 true = none) (entry : h.listEntry e a = (v, dw, m, op, cl, hold, false)) :
    h.insList e c a = (h.modAcc e (fun x => { x with
      entry := if hold then x.entry else some { value := v, src := 1 }
      opn := if op then x.opn ||| m else x.opn })).insEnd e
        (.act (.list { left := c - 1, addr := a, pc := h.pc e, close := if cl then m else 0, opened := if op then m else 0 })) := by
  simp [Hw.insList, aligned, region, some_, here, entry]

theorem Hw.insPlay_plays {r : Nat} (aligned : a % 32 = 0) (header : h.ttRange e a 32 = true) (here : h.lineMiss e a 32 true = none)
    (some_ : (h.readSeg e r a).count ≠ 0) (format : (h.readSeg e r a).fmt ≠ 3)
    (region : h.ttRange e a (32 + segBytes (h.readSeg e r a).fmt (h.readSeg e r a).count) = true)
    (first : h.lineMiss e ((h.readSeg e r a).sampleAt 0).1 ((h.readSeg e r a).sampleAt 0).2 true = none) :
    h.insPlay e r a = (h.modAcc e (fun x => { x with entry := some (h.segEntry e (h.readSeg e r a)).1 })).insEnd e
      (.act (.play (h.segEntry e (h.readSeg e r a)).2)) := by
  simp [Hw.insPlay, aligned, header, here, some_, format, region, first]

theorem Hw.insStream_plays (n : Nat) (ring : h.ringOk e = true) (least : 12 ≤ h.get TT_SR_SIZE_LOG2 e) (most : h.get TT_SR_SIZE_LOG2 e ≤ 28) :
    h.insStream e n = (h.modAcc e (fun a => { a with entry := none })).insEnd e
      (.act (.stream { left := if n = 0 then none else some n, stretch := h.flag TT_SR_CFG_RESUME e, pc := h.pc e })) := by
  have size : ¬ (h.get TT_SR_SIZE_LOG2 e < 12 ∨ 28 < h.get TT_SR_SIZE_LOG2 e) := by omega
  simp only [Hw.insStream, ring, Bool.not_true, if_neg size, Bool.false_eq_true, if_false]

theorem Hw.insTherm_waits {k : Nat} (hk : k < 12) :
    h.insTherm e k 1 = (h.modAcc e (fun a => { a with therm := a.therm ++ [k] })).insEnd e (.act (.wait .therm)) := if_neg (by omega)

theorem Hw.insWaitev_waits {k : Nat} (t d : Nat) (new : h.flag TT_EVW_PEND e k = false) :
    h.insWaitev e k t d = h.insEnd e (.act (.wait (.event k t (dispTarget (h.pc e) d) 0))) := if_neg (ne_true_of_eq_false new)

theorem Hw.insWaitev_latched {k : Nat} (t d : Nat) (latched : h.flag TT_EVW_PEND e k = true) :
    h.insWaitev e k t d =
      (h.modAcc e (fun a => { a with evs := a.evs ++ [(k, h.pc e + 8, (h.eng e).loops.length, (h.eng e).calls.length)] })).insNext e := if_pos latched

end

/-- Settles O33, instruction by instruction: what plays or waits from the step tick on, and what takes no time. -/
theorem timingAndWaitingInstructionsEndTheStep : Obligations.TimingAndWaitingInstructionsEndTheStep := by
  refine fun s e on => ⟨fun n meets => ⟨fun hn => ?dwell, fun hn => ?dwellZero⟩, fun a sw meets aligned region here valid => ?sweep,
    fun c a v dw m op cl hold meets aligned region some_ here entry => ?list,
    fun r a meets aligned header here some_ format region first => ?play, fun n meets ring least most => ?stream,
    fun ir vr ar si sv sa meets => ?range, fun k meets hk => ?therm, fun c meets => ?connect, fun meets => ?isolate,
    fun k t d meets => ⟨fun new => ?waitev, fun latched => ?waitevLatched⟩⟩
  case dwell => exact State.run_ttIns on meets (Hw.insDwell_ends hn) (by simp)
  case dwellZero => exact State.run_ttIns on meets (Hw.insDwell_zero hn) (by simp)
  case sweep => exact State.run_ttIns on meets (Hw.insSweep_plays aligned region here valid) (by simp)
  case list => exact State.run_ttIns on meets (Hw.insList_plays aligned region some_ here entry) (by simp)
  case play => exact State.run_ttIns on meets (Hw.insPlay_plays aligned header here some_ format region first) (by simp)
  case stream => exact State.run_ttIns on meets (Hw.insStream_plays n ring least most) (by simp)
  case range => exact State.run_ttIns on meets rfl (by simp)
  case therm => exact State.run_ttIns on meets (Hw.insTherm_waits hk) (by simp)
  case connect => exact State.run_ttIns on meets rfl (by simp)
  case isolate => exact State.run_ttIns on meets rfl (by simp)
  case waitev => exact State.run_ttIns on meets (Hw.insWaitev_waits t d new) (by simp)
  case waitevLatched => exact State.run_ttIns on meets (Hw.insWaitev_latched t d latched) (by simp)

end Sys2Proof.Machine
end

section
/-! Timetable engines and their masters: commands, jumps, the write pointer of a stream, and watched events outside a wait (R210, R213 to R215,
R250, R256 to R259, R261). -/

namespace Sys2Proof.Machine

/-! ### A write to an engine's window (R210, R214, R256, R261, R446) -/

section
variable (h : Hw) (e : Nat)

theorem Hw.engWrite_bind {u : Nat} (hu : u < 1024) (valid : Bool) :
    h.engWrite e 0x0 (u % 2 ^ 10 + b2n valid * 2 ^ 15) = (h.engPass e).ttBind e u (b2n valid) := by
  have one : b2n valid < 2 := by cases valid <;> decide
  have unit : bits (u % 2 ^ 10 + b2n valid * 2 ^ 15) 9 0 = u := by simp only [bits]; omega
  have flag : bits (u % 2 ^ 10 + b2n valid * 2 ^ 15) 15 15 = b2n valid := by simp only [bits]; omega
  rw [Hw.engWrite, if_pos rfl, unit, flag]

theorem Hw.engWrite_cmd {c : Nat} (some_ : 0 < c) (hc : c < 4) : h.engWrite e 0x4 c = (h.engPass e).ttCmd e c := by
  have cmd : bits c 1 0 = c := by simp only [bits]; omega
  rw [Hw.engWrite, if_neg (by decide), if_pos rfl, cmd, if_neg (Nat.ne_of_gt some_)]

theorem Hw.engWrite_jump (brk : Bool) : h.engWrite e 0x2C0 (1 + b2n brk * 2) = ((h.engPass e).put TT_JUMP_BREAK e (b2n brk)).jumpRequest e := by
  cases brk <;> rfl

end

/-- A command of a master that writes a word of an engine's window. -/
theorem State.run_engWrite {s : State} {m : Master} {e : Nat} (hs : s.hears m) (he : s.hw.hasEng e = true) (off v : Nat) :
    s.run (fun h => h.byHost m (h.hasEng e) (fun h => h.engWrite e off v)) = s.wrote m (s.hw.engWrite e off v) :=
  State.run_byHost hs (fun h => h.hasEng e) (fun h => h.engWrite e off v) he

section
variable {s : State} {m : Master} {e : Nat} (hs : s.hears m) (he : s.hw.hasEng e = true)
include hs he

theorem exec_ttBind {u : Nat} (hu : u < 1024) (valid : Bool) :
    exec (.ttBind m e u valid) s = s.wrote m ((s.hw.engPass e).ttBind e u (b2n valid)) :=
  (State.run_engWrite hs he _ _).trans (by rw [Hw.engWrite_bind _ _ hu])

/-- The three commands write TT_CMD (R213 to R215). -/
theorem exec_ttCommand {c : Nat} {i : Instr} (cmd : (c = 1 ∧ i = .ttStart m e) ∨ (c = 2 ∧ i = .ttStop m e) ∨ (c = 3 ∧ i = .ttReset m e)) :
    exec i s = s.wrote m ((s.hw.engPass e).ttCmd e c) := by
  rcases cmd with ⟨rfl, rfl⟩ | ⟨rfl, rfl⟩ | ⟨rfl, rfl⟩
  all_goals exact (State.run_engWrite hs he _ _).trans (by rw [Hw.engWrite_cmd _ _ (by decide) (by decide)])

theorem exec_jumpRequest (brk : Bool) :
    exec (.jumpRequest m e brk) s = s.wrote m (((s.hw.engPass e).put TT_JUMP_BREAK e (b2n brk)).jumpRequest e) :=
  (State.run_engWrite hs he _ _).trans (by rw [Hw.engWrite_jump])

theorem exec_jumpTargetWrite (v : Nat) : exec (.jumpTargetWrite m e v) s = s.wrote m ((s.hw.engPass e).jumpTgt e true v) :=
  State.run_engWrite hs he _ _

theorem exec_srWpWrite (v : Nat) : exec (.srWpWrite m e v) s = s.wrote m ((s.hw.engPass e).srWp e v) :=
  State.run_engWrite hs he _ _

end

theorem exec_jumpTake {s : State} (on : s.on) (e : Nat) : exec (.jumpTake e) s = s.to (s.hw.jumpTake e) := s.run_live (fun h => h.jumpTake e) on

theorem exec_watchEventSeen {s : State} (on : s.on) (e k : Nat) : exec (.watchEventSeen e k) s = s.to (s.hw.watchRow e k) :=
  s.run_live (fun h => h.watchRow e k) on

/-! ### Commands (R210, R213 to R215) -/

section
variable {h : Hw} {e c : Nat}

theorem Hw.ttBind_unbinds (idle : h.get TT_STAT_STATE e = 0) (u : Nat) : h.ttBind e u 0 = (h.put TT_BIND_UNIT e u).put TT_BIND_VALID e 0 := by
  simp [Hw.ttBind, idle]

theorem Hw.ttBind_running (running : h.get TT_STAT_STATE e = 1) (u v : Nat) : h.ttBind e u v = h.put TT_STAT_BIND_ERR e 1 := by
  simp [Hw.ttBind, running]

theorem Hw.ttCmd_busy (busy : h.flag TT_CMD_BUSY e = true) : h.ttCmd e c = h.put TT_CMD_RESULT e 6 := if_pos busy

/-- TT_CMD shows the command and changes neither the engine's unit nor whether that one has ticks. -/
theorem Hw.ttCmd_waits (free : h.flag TT_CMD_BUSY e = false) (bound : h.flag TT_BIND_VALID e = true) (runs : h.runs (h.get TT_BIND_UNIT e) = true) :
    h.ttCmd e c = ((h.put TT_CMD_CMD e c).put TT_CMD_BUSY e 1).modE e (fun x => { x with cmd := some (c, false) }) := by
  have flag : (h.put TT_CMD_CMD e c).flag TT_BIND_VALID e = true := by rw [Hw.flag, Hw.get_put_pos _ _ _ _ (by decide)]; exact bound
  have unit : (h.put TT_CMD_CMD e c).get TT_BIND_UNIT e = h.get TT_BIND_UNIT e := Hw.get_put_pos _ _ _ _ (by decide)
  have ticks : (h.put TT_CMD_CMD e c).runs (h.get TT_BIND_UNIT e) = true := by rw [Hw.runs_put, runs]
  simp only [Hw.ttCmd, free, flag, unit, ticks, Bool.and_self, Bool.false_eq_true, if_false, if_true]

/-! ### Jumps (R256 to R259) -/

theorem Hw.jumpRequest_untargeted (none_ : h.flag TT_JUMP_TGT_VALID e = false) : h.jumpRequest e = h.put TT_JUMP_RESULT e 1 := by
  simp [Hw.jumpRequest, none_]

theorem Hw.jumpRequest_waits (target : h.flag TT_JUMP_TGT_VALID e = true) (new : h.flag TT_JUMP_PEND e = false)
    (running : h.get TT_STAT_STATE e = 1) :
    h.jumpRequest e = ((h.put TT_JUMP_PEND e 1).put TT_JUMP_REQ e 1).modE e (fun x => { x with jump := some false }) := by
  simp [Hw.jumpRequest, target, new, running]

/-- The engine as a jump leaves from it: a RESTART that had cut a step short is lost, and counted (R259, R260). -/
def Hw.jumpFrom (h : Hw) (e : Nat) : Hw :=
  match (h.eng e).cut with
  | some c => ((h.inc TT_EV_OVERLAP_COUNT e).engRewind e).setStacks e c.1.loops c.1.calls
  | none => h

theorem Hw.jumpTake_goes (asked : (h.eng e).jump.isSome = true) (new : (h.eng e).jumping = false) (running : h.get TT_STAT_STATE e = 1)
    (point : h.jumpPoint e = true) (early : (h.unit (h.get TT_BIND_UNIT e)).clk.guarded = false) :
    h.jumpTake e = (((h.jumpFrom e).redirect e ((h.jumpFrom e).get TT_JUMP_TGT_ADDR e) ((h.jumpFrom e).get TT_JUMP_TGT_LD e)
      ((h.jumpFrom e).get TT_JUMP_TGT_CD e) (h.jumpCloses e) false true).modE e (fun x => { x with restart := none, cut := none })) := by
  simp [Hw.jumpTake, asked, new, running, point, early]
  rfl

/-! ### The write pointer of a stream (R261) -/

theorem Hw.srWp_free (v : Nat) (idle : ∀ t, (h.eng e).act ≠ .stream t) : h.srWp e v = h.put TT_SR_WP_VALUE e (v % 2 ^ 32) := by
  unfold Hw.srWp
  split
  next t plays => exact absurd plays (idle t)
  next => rfl

theorem Hw.srWp_plays {t : StreamS} (v : Nat) (plays : (h.eng e).act = .stream t) :
    h.srWp e v =
      if 0 ≤ sx32 (v % 2 ^ 32 / 8 * 8 + (2 ^ 32 - h.get TT_SR_WP_VALUE e / 8 * 8)) then h.put TT_SR_WP_VALUE e (v % 2 ^ 32) else h := by
  rw [Hw.srWp, plays]
  rfl

/-! ### Watched events (R250) -/

theorem Hw.watchRow_seen {k : Nat} (seen : (h.eng e).seenNow.contains k = true) (free : h.waitedOn e k = false) :
    h.watchRow e k = (h.watchSeen e k).modE e (fun x => { x with seenNow := x.seenNow.filter (· != k) }) := by
  simp only [Hw.watchRow, seen, free, Bool.not_false, Bool.and_self, if_true]

end

/-- Settles O30, word by word: a bind, a command that waits or finds another, a jump's request, target and taking, the write pointer, and a
watched event. -/
theorem engineCommandsAndJumps : Obligations.EngineCommandsAndJumps := by
  refine ⟨fun s m e u c i hs he => ⟨fun hu idle => ?unbinds, fun hu running => ⟨?bindErr, ?unbindErr⟩, fun cmd => ?command⟩,
    fun s m e v k hs he => ⟨fun none_ => ?untargeted, fun target new running => ?requested, ?target, fun idle => ?wpFree,
      fun t plays => ⟨fun forward => ?wpForward, fun backward => ?wpBackward⟩, fun asked new running point early => ?taken,
      fun seen free => ?watched⟩⟩
  case unbinds => rw [exec_ttBind hs he hu, b2n, if_neg Bool.false_ne_true, Hw.ttBind_unbinds idle]
  case bindErr => rw [exec_ttBind hs he hu, Hw.ttBind_running running]
  case unbindErr => rw [exec_ttBind hs he hu, Hw.ttBind_running running]
  case command =>
    rw [exec_ttCommand hs he cmd]
    exact ⟨fun busy => by rw [Hw.ttCmd_busy busy], fun free bound runs => by rw [Hw.ttCmd_waits free bound runs]⟩
  case untargeted => rw [exec_jumpRequest hs he, b2n, if_neg Bool.false_ne_true, Hw.jumpRequest_untargeted none_]
  case requested => rw [exec_jumpRequest hs he, b2n, if_pos rfl, Hw.jumpRequest_waits target new running]
  case target => exact exec_jumpTargetWrite hs he v
  case wpFree => rw [exec_srWpWrite hs he, Hw.srWp_free v idle]
  case wpForward => rw [exec_srWpWrite hs he, Hw.srWp_plays v plays, if_pos forward]
  case wpBackward => rw [exec_srWpWrite hs he, Hw.srWp_plays v plays, if_neg (Int.not_le.mpr backward)]
  case taken =>
    rw [exec_jumpTake hs.1, Hw.jumpTake_goes asked new running point early]
    rfl
  case watched => rw [exec_watchEventSeen hs.1, Hw.watchRow_seen seen free]

end Sys2Proof.Machine
end

section
/-! Timetable engines between their step ticks: what they play next, the ends of waits and stalls, and the lines that enter their windows (R18,
R35, R212, R216, R217, R231 to R233, R249, R264, R266, R289). -/

namespace Sys2Proof.Machine

/-! ### What is staged for the next tick (R217, R231 to R233, R264) -/

theorem exec_ttStep {s : State} (on : s.on) (e : Nat) :
    exec (.ttStep e) s = s.to (((s.hw.passGuard (s.hw.get TT_BIND_UNIT e)).stepRun e 66).staged e) :=
  s.run_live (fun h => h.ttStep e) on

theorem exec_ttSweepPoint {s : State} (on : s.on) (e : Nat) : exec (.ttSweepPoint e) s = s.to (s.hw.sweepPoint e) :=
  s.run_live (fun h => h.sweepPoint e) on

theorem exec_ttListEntry {s : State} (on : s.on) (e : Nat) : exec (.ttListEntry e) s = s.to (s.hw.listNext e) :=
  s.run_live (fun h => h.listNext e) on

theorem exec_ttPlayPass {s : State} (on : s.on) (e : Nat) : exec (.ttPlayPass e) s = s.to (s.hw.playPass e) :=
  s.run_live (fun h => h.playPass e) on

theorem exec_ttStreamResume {s : State} (on : s.on) {e : Nat} (has : s.hw.hasEng e = true) :
    exec (.ttStreamResume e) s = s.to (s.hw.streamResume e) :=
  (s.run_live (fun h => h.streamRow e) on).trans (by rw [Hw.streamRow, if_pos has]; rfl)

section
variable {h : Hw} {e : Nat}

section
variable (running : h.get TT_STAT_STATE e = 1) (due : (h.eng e).togo = 1) (new : (h.eng e).ready = none)
include running due new

theorem Hw.sweepPoint_stages {sw : SweepS} (plays : (h.eng e).act = .sweep sw) (more : sw.j < sw.total) :
    h.sweepPoint e = h.stageWork e {
      close := sw.bmask
      opn := if sw.settle = 0 then sw.bmask else 0
      entry := some { value := sw.value sw.j, ovr := sw.ovr, src := 1 }
      fin := .act (.sweep sw.advance) } := by
  simp [Hw.sweepPoint, plays, running, due, new, more]

theorem Hw.listNext_stages {l : ListS} {v : Int} {dw m : Nat} {op cl hold : Bool} (plays : (h.eng e).act = .list l) (more : 0 < l.left)
    (here : h.lineMiss e (l.addr + 8) 8 true = none) (entry : h.listEntry e (l.addr + 8) = (v, dw, m, op, cl, hold, false)) :
    h.listNext e = h.stageWork e {
      close := l.close
      opn := if op then m else 0
      entry := if hold then none else some { value := v, src := 1 }
      fin := .act (.list { left := l.left - 1, addr := l.addr + 8, pc := l.pc, close := if cl then m else 0, opened := if op then m else 0 }) } := by
  simp [Hw.listNext, plays, running, due, new, more, here, entry]

theorem Hw.playPass_stages {p : PlayS} (plays : (h.eng e).act = .play p) (off : p.on = false) (more : p.left ≠ some 0)
    (here : h.lineMiss e (p.sampleAt 0).1 (p.sampleAt 0).2 true = none) :
    h.playPass e = h.stageWork e {
      entry := some (h.segEntry e { p with on := true }).1
      fin := .act (.play (h.segEntry e { p with on := true }).2) } := by
  simp [Hw.playPass, plays, running, due, new, off, more, here]

end

theorem Hw.streamResume_goes {t : StreamS} (plays : (h.eng e).act = .stream t) (stalls : h.get TT_STAT_STATE e = 3) (missed : t.stalled = true)
    (found : t.found = true) (early : (h.unit (h.headOf (h.get TT_BIND_UNIT e))).clk.guarded = false) :
    h.streamResume e = (h.modE e (fun x => { x with act := .stream { t with stalled := false, found := false } })).engState e 1 := by
  simp [Hw.streamResume, Hw.streamGo, plays, stalls, missed, found, early]

theorem Hw.streamResume_late (late : (h.unit (h.headOf (h.get TT_BIND_UNIT e))).clk.guarded = true) : h.streamResume e = h := if_pos late

/-! ### Waits (R217, R249) -/

/-- A row of an engine that follows a tick which its unit has ended. -/
theorem Hw.waitRow_after {f : Hw → Hw} (has : h.hasEng e = true) (bound : h.flag TT_BIND_VALID e = true)
    (hu : isUnit (h.get TT_BIND_UNIT e) = true) (runs : h.runs (h.get TT_BIND_UNIT e) = true)
    (head : h.headOf (h.get TT_BIND_UNIT e) = h.get TT_BIND_UNIT e) (ticked : (h.unit (h.get TT_BIND_UNIT e)).clk.ticked = true)
    (ended : (h.unit (h.get TT_BIND_UNIT e)).tail = false) :
    h.waitRow e f = ((f h).plan (h.get TT_BIND_UNIT e)).tkoReactAll (h.get TT_BIND_UNIT e) := by
  simp [Hw.waitRow, has, bound, Hw.postTick, hu, runs, head, ticked, Hw.finishTick_of_done ended]

theorem Hw.waitCondition_isolated (waits : h.get TT_STAT_STATE e = 2) (what : (h.eng e).act = .wait .isolate) (holds : (h.eng e).waitOk = true) :
    h.waitCondition e = h.waitEnd e := by
  simp [Hw.waitCondition, what, waits, holds]

theorem Hw.waitTimeout_over {k t a c : Nat} (waits : h.get TT_STAT_STATE e = 2) (what : (h.eng e).act = .wait (.event k t a c)) (limit : 0 < t)
    (past : t ≤ c) (unseen : (h.eng e).seenNow.contains k = false) : h.waitTimeout e = (h.setPc e a).waitEnd e := by
  simp only [Hw.waitTimeout, what, waits, limit, past, unseen, beq_self_eq_true, decide_true, Bool.false_and, Bool.not_false, Bool.and_self, if_true]

end

theorem exec_ttWaitCondition {s : State} (on : s.on) (e : Nat) : exec (.ttWaitCondition e) s = s.to (s.hw.waitRow e (fun h => h.waitCondition e)) :=
  s.run_live (fun h => h.waitRow e (fun h => h.waitCondition e)) on

theorem exec_ttWaitevTimeout {s : State} (on : s.on) (e : Nat) : exec (.ttWaitevTimeout e) s = s.to (s.hw.waitRow e (fun h => h.waitTimeout e)) :=
  s.run_live (fun h => h.waitRow e (fun h => h.waitTimeout e)) on

/-! ### A window with a line filled (R212, R266) -/

section
variable {w : Tab Nat (List Nat)} {ln : Nat} {b : List Nat} {keep : Option Nat}

theorem fillWin_head : (fillWin w ln b keep).head? = some (ln, b) := rfl

theorem fillWin_length : (fillWin w ln b keep).length ≤ 8 := Nat.succ_le_succ (List.length_take_le 7 _)

theorem mem_fillWin {x : Nat × List Nat} (hx : x ∈ fillWin w ln b keep) : x.1 = ln ∨ x ∈ w := by
  rcases List.mem_cons.mp hx with rfl | old
  · exact .inl rfl
  · refine .inr ?_
    rcases List.mem_append.mp (List.mem_of_mem_take old) with first | rest
    · exact (List.mem_filter.mp (List.mem_filter.mp first).1).1
    · exact (List.mem_filter.mp (List.mem_filter.mp rest).1).1

/-- A list that is not empty has its head among its first elements. -/
theorem head_mem_take_append {α : Type} {l r : List α} {x : α} (hx : x ∈ l) (n : Nat) : ∃ y ∈ l, y ∈ (l ++ r).take (n + 1) := by
  cases l with
  | nil => exact absurd hx List.not_mem_nil
  | cons y l => exact ⟨y, List.mem_cons_self, by simp⟩

/-- The line to be kept stays. -/
theorem fillWin_keeps {m : Nat} (kept : keep = some m) (here : w.any (fun x => x.1 == m) = true) :
    (fillWin w ln b keep).any (fun x => x.1 == m) = true := by
  by_cases same : ln = m
  · simp [fillWin, same]
  · obtain ⟨x, hx, hm⟩ := List.any_eq_true.mp here
    have hm : x.1 = m := by simpa using hm
    have other : x ∈ w.filter (fun p => p.1 != ln) := List.mem_filter.mpr ⟨hx, by simp [hm, Ne.symm same]⟩
    have first : x ∈ (w.filter (fun p => p.1 != ln)).filter (fun p => keep == some p.1) := List.mem_filter.mpr ⟨other, by simp [kept, hm]⟩
    obtain ⟨y, hy, taken⟩ := head_mem_take_append (r := (w.filter (fun p => p.1 != ln)).filter (fun p => keep != some p.1)) first 6
    have hym : m = y.1 := by simpa [kept] using (List.mem_filter.mp hy).2
    exact List.any_eq_true.mpr ⟨y, List.mem_cons_of_mem _ taken, by simp [hym]⟩

end

/-! ### A line that arrives, and one that is lost (R212, R213, R216, R289) -/

section
variable {h : Hw} {e ln : Nat}

/-- The data line `ln` in the engine's window, with the bytes that memory holds. -/
def Hw.dataFilled (h : Hw) (e ln : Nat) : Hw :=
  h.modE e (fun x => { x with data := fillWin x.data ln ((List.range 256).map (fun k => (h.byte (ln * 256 + k)).toNat)) (h.markLine e) })

/-- A stall for a line ended. -/
def Hw.stallEnds (h : Hw) (e : Nat) : Hw := (h.modE e (fun x => { x with need := none })).engState e 1

theorem Hw.stallEnds_state (h : Hw) (e : Nat) : (h.stallEnds e).get TT_STAT_STATE e = 1 := Hw.get_put_self _ _ _ _ _

theorem Hw.stallEnds_eng (h : Hw) (e : Nat) : (h.stallEnds e).eng e = { h.eng e with need := none } := by
  rw [Hw.stallEnds, Hw.engState, Hw.eng_of_put, Hw.modE_eng_self]

theorem Hw.lineIn_arrives (region : h.ttRange e (ln * 256) 1 = true) :
    h.lineIn e ln true false = if (h.eng e).need = some (ln, true) then (h.dataFilled e ln).stallEnds e else h.dataFilled e ln := by
  simp [Hw.lineIn, region, Hw.dataFilled, Hw.stallEnds]

theorem Hw.lineIn_data (region : h.ttRange e (ln * 256) 1 = true) :
    ((h.lineIn e ln true false).eng e).data =
      fillWin (h.eng e).data ln ((List.range 256).map (fun k => (h.byte (ln * 256 + k)).toNat)) (h.markLine e) := by
  rw [Hw.lineIn_arrives region]
  split
  · rw [Hw.stallEnds_eng, Hw.dataFilled, Hw.modE_eng_self]
  · rw [Hw.dataFilled, Hw.modE_eng_self]

variable {ue : Bool} (lost : ue = true ∨ h.ttRange e (ln * 256) 1 = false)
include lost

/-- A line whose channel has lost its capacity is as one with an uncorrectable error. -/
theorem Hw.lineIn_lost : h.lineIn e ln true ue = h.lineIn e ln true true := by
  rcases lost with rfl | gone
  · rfl
  · simp only [Hw.lineIn, gone, Bool.not_false, Bool.or_true, Bool.not_true, Bool.and_false]

theorem Hw.lineIn_lost_unneeded (other : (h.eng e).need ≠ some (ln, true)) : h.lineIn e ln true ue = h := by
  rw [Hw.lineIn_lost lost]
  simp only [Hw.lineIn, Bool.true_or, if_true, if_neg other]

variable (need : (h.eng e).need = some (ln, true))
include need

/-- A lost line that is needed for work prepared already. -/
theorem Hw.lineIn_lost_ready {a : StepAcc} (ready : (h.eng e).ready = some a) :
    h.lineIn e ln true ue = ((h.stallEnds e).setPc e (h.eng e).needPc).modE e (fun x => { x with
      ready := some { a with fin := .err (if h.ttRange e (ln * 256) 1 then 10 else 3), entry := none } }) := by
  rw [Hw.lineIn_lost lost]
  cases region : h.ttRange e (ln * 256) 1 <;> simp [Hw.lineIn, region, need, ready, Hw.stallEnds]

/-- A lost line that is needed for a step in preparation. -/
theorem Hw.lineIn_lost_step (new : (h.eng e).ready = none) :
    h.lineIn e ln true ue = (((h.stallEnds e).setPc e (h.eng e).needPc).modAcc e (fun a => { a with
      fin := .err (if h.ttRange e (ln * 256) 1 then 10 else 3) })).stepStage e := by
  rw [Hw.lineIn_lost lost]
  cases region : h.ttRange e (ln * 256) 1 <;> simp [Hw.lineIn, region, need, new, Hw.stallEnds]

end

/-! ### The fetch of a line (R18, R35, R212) -/

theorem exec_ttLineFillDone {s : State} (on : s.on) (e ln : Nat) (data ue : Bool) :
    exec (.ttLineFillDone e ln data ue) s = s.to (s.hw.lineFill e ln data ue).settle :=
  s.run_live (fun h => (h.lineFill e ln data ue).settle) on

theorem Hw.lineFill_burst (h : Hw) {e ln ch : Nat} (data ue : Bool) (hch : ddrChan (ln * 256) = some ch) :
    h.lineFill e ln data ue =
      (let g := h.twAsk (.twill (e / 8) ch) (twEng e) 4
       if g.holds (.twill (e / 8) ch) (twEng e) then (g.lineIn e ln data ue).tokRel (.twill (e / 8) ch) (twEng e) else g) := by
  simp only [Hw.lineFill, Hw.burst, hch, Hw.burstOf]

/-- Settles O35: what is staged by what the engine plays, the ends of waits, a fetch by who holds the token, and a line by whether it arrives. -/
theorem enginesGoOnBetweenSteps : Obligations.EnginesGoOnBetweenSteps := by
  refine ⟨fun s e on => ⟨?step, fun sw plays running due new more => ?sweep,
      fun l v dw m op cl hold plays running due new more here entry => ?list, fun p plays running due new off more here => ?play,
      fun t has plays stalls missed found => ⟨fun early => ?resumes, fun late => ?resumesLate⟩,
      fun has bound hu runs head ticked ended waits => ⟨fun what holds => ?isolated, fun k t a c what limit past unseen => ?timeout⟩,
      fun ln ch data ue hch => ⟨fun held => ?held, fun free waits => ?waits, fun free new => ?asks⟩⟩,
    fun h e ln => ⟨fun region => ⟨?head, ?length, ?members, fun m mark here => ?mark, fun need => ?ends, fun other => ?stands, ?mem, ?units⟩,
      fun ue lost => ⟨fun need => ⟨fun a ready => ?errReady, fun new => ?errStages⟩, fun other => ?errNothing⟩⟩⟩
  case step => exact exec_ttStep on e
  case sweep => rw [exec_ttSweepPoint on, Hw.sweepPoint_stages running due new plays more]
  case list => rw [exec_ttListEntry on, Hw.listNext_stages running due new plays more here entry]
  case play => rw [exec_ttPlayPass on, Hw.playPass_stages running due new plays off more here]
  case resumes => rw [exec_ttStreamResume on has, Hw.streamResume_goes plays stalls missed found early]
  case resumesLate => rw [exec_ttStreamResume on has, Hw.streamResume_late late]
  case isolated => rw [exec_ttWaitCondition on, Hw.waitRow_after has bound hu runs head ticked ended, Hw.waitCondition_isolated waits what holds]
  case timeout => rw [exec_ttWaitevTimeout on, Hw.waitRow_after has bound hu runs head ticked ended, Hw.waitTimeout_over waits what limit past unseen]
  case held => rw [exec_ttLineFillDone on, Hw.lineFill_burst _ _ _ hch, Hw.twAsk_held held, if_pos held]
  case waits => rw [exec_ttLineFillDone on, Hw.lineFill_burst _ _ _ hch, Hw.twAsk_waiting waits, if_neg (ne_true_of_eq_false free)]
  case asks => rw [exec_ttLineFillDone on, Hw.lineFill_burst _ _ _ hch, Hw.twAsk_new free new]
  case head => rw [Hw.lineIn_data region]; exact fillWin_head
  case length => rw [Hw.lineIn_data region]; exact fillWin_length
  case members => rw [Hw.lineIn_data region]; exact fun x => mem_fillWin
  case mark => rw [Hw.lineIn_data region]; exact fillWin_keeps mark here
  case ends =>
    rw [Hw.lineIn_arrives region, if_pos need]
    exact ⟨Hw.stallEnds_state _ e, by rw [Hw.stallEnds_eng]⟩
  case stands => rw [Hw.lineIn_arrives region, if_neg other]; rfl
  case mem => rw [Hw.lineIn_arrives region]; split <;> rfl
  case units => rw [Hw.lineIn_arrives region]; split <;> rfl
  case errReady => exact Hw.lineIn_lost_ready lost need ready
  case errStages => exact Hw.lineIn_lost_step lost need new
  case errNothing => exact Hw.lineIn_lost_unneeded lost other

end Sys2Proof.Machine
end

section
/-! Events: their scheduling with a lead, raises by a host, and the action of a pending one (R241 to R245). -/

namespace Sys2Proof.Machine

/-! ### Single bits -/

theorem bit_setBit (o j k : Nat) : bit (setBit o j) k = (decide (k = j) || bit o k) := by
  have put : setBit o j = o - o / 2 ^ j % 2 ^ 1 * 2 ^ j + 1 * 2 ^ j := by
    rcases Nat.mod_two_eq_zero_or_one (o / 2 ^ j) with clear | set
    · simp [setBit, bit, clear]
    · have least : 2 ^ j ≤ o := Nat.le_of_not_lt fun below => by
        rw [Nat.div_eq_of_lt below] at set
        exact absurd set (by decide)
      simp only [setBit, bit, set, Nat.pow_one, Nat.one_mul, beq_self_eq_true, if_true]
      omega
  rw [put, bit_eq_testBit, bit_eq_testBit, testBit_replace o j 1 1 k (by decide)]
  by_cases same : k = j
  · simp [same]
  · have outside : ¬ (j ≤ k ∧ k < j + 1) := by omega
    simp only [outside, same, if_false, decide_false, Bool.false_or]

/-- A field keeps the bits that its width covers. -/
theorem bit_cut {k w : Nat} (n : Nat) (hk : k < w) : bit (n % 2 ^ w) k = bit n k := by
  simp only [bit_eq_testBit, Nat.testBit_mod_two_pow, hk, decide_true, Bool.true_and]

/-! ### Scheduling (R241, R243) -/

section
variable {h : Hw} {ev due : Nat}

theorem Hw.evSchedule_joins (pending : (ev, due) ∈ h.evs) : h.evSchedule ev due = h := if_pos (List.contains_iff_mem.mpr pending)

section
variable (new : (ev, due) ∉ h.evs)
include new

/-- The cases of an event that joins none. -/
theorem Hw.evSchedule_new :
    h.evSchedule ev due =
      if due < h.now + 16 then (h.inc STN_EV_LATE_COUNT 0).put STN_EV_STAT_LATE_EV 0 ev
      else if 256 ≤ h.evs.length then h.inc STN_EV_OVF_COUNT 0
      else { h with evs := h.evs ++ [(ev, due)] } :=
  if_neg (mt List.contains_iff_mem.mp new)

theorem Hw.evSchedule_late (late : due < h.now + 16) :
    h.evSchedule ev due = (h.inc STN_EV_LATE_COUNT 0).put STN_EV_STAT_LATE_EV 0 ev := by
  rw [Hw.evSchedule_new new, if_pos late]

theorem Hw.evSchedule_full (early : h.now + 16 ≤ due) (full : 256 ≤ h.evs.length) : h.evSchedule ev due = h.inc STN_EV_OVF_COUNT 0 := by
  rw [Hw.evSchedule_new new, if_neg (Nat.not_lt.mpr early), if_pos full]

theorem Hw.evSchedule_waits (early : h.now + 16 ≤ due) (room : h.evs.length < 256) :
    h.evSchedule ev due = { h with evs := h.evs ++ [(ev, due)] } := by
  rw [Hw.evSchedule_new new, if_neg (Nat.not_lt.mpr early), if_neg (Nat.not_le.mpr room)]

end

theorem Hw.evSchedule_length (ev due : Nat) (bound : h.evs.length ≤ 256) : (h.evSchedule ev due).evs.length ≤ 256 := by
  by_cases pending : (ev, due) ∈ h.evs
  · rwa [Hw.evSchedule_joins pending]
  rw [Hw.evSchedule_new pending]
  split
  next late => exact bound
  next early =>
    split
    next full => exact bound
    next room =>
      rw [List.length_append, List.length_singleton]
      omega

end

/-- A local event that reaches the scheduler at an instant that has not passed. -/
theorem exec_eventSchedule_local {s : State} (on : s.on) {ev t : Nat} (due : Nat) (ht : s.hw.now ≤ t) (local_ : ev < 64) :
    exec (.eventSchedule ev due t) s = s.to (Hw.evSchedule { s.hw with now := t } ev due) := by
  refine (s.run_live (fun h => h.eventReaches ev due t) on).trans ?_
  rw [Hw.eventReaches, if_neg (by omega), if_pos local_]
  rfl

/-! ### Raises by a host (R242) -/

theorem Hw.stnWrite_raise (h : Hw) {ev : Nat} (hev : ev < 512) (nowF : Bool) :
    h.stnWrite 0x1008 (ev % 2 ^ 9 + b2n nowF * 2 ^ 9 + 2 ^ 10) = h.hostRaise ev nowF := by
  have one : b2n nowF < 2 := by cases nowF <;> decide
  have go : bit (ev % 2 ^ 9 + b2n nowF * 2 ^ 9 + 2 ^ 10) 10 = true := by simp only [bit, beq_iff_eq]; omega
  have number : bits (ev % 2 ^ 9 + b2n nowF * 2 ^ 9 + 2 ^ 10) 8 0 = ev := by simp only [bits]; omega
  have now_ : bit (ev % 2 ^ 9 + b2n nowF * 2 ^ 9 + 2 ^ 10) 9 = nowF := by
    cases nowF <;> simp only [bit, b2n, Bool.false_eq_true, if_true, if_false, beq_iff_eq, beq_eq_false_iff_ne] <;> omega
  generalize ev % 2 ^ 9 + b2n nowF * 2 ^ 9 + 2 ^ 10 = w at go number now_ ⊢
  simp [Hw.stnWrite, go, number, now_]

theorem exec_evRaise {s : State} {m : Master} (hs : s.hears m) {ev : Nat} (hev : ev < 512) (nowF : Bool) :
    exec (.evRaise m ev nowF) s = s.wrote m (s.hw.hostRaise ev nowF) :=
  (State.run_byHost hs (fun _ => true) (fun h => h.stnWrite 0x1008 _) rfl).trans (by rw [Hw.stnWrite_raise _ hev])

section
variable (h : Hw) {ev : Nat}

theorem Hw.raiseResult_unknown (nowF : Bool) (above : 319 < ev) : h.raiseResult ev nowF = 4 := if_pos above

theorem Hw.raiseResult_local_now (local_ : ev < 64) : h.raiseResult ev true = 0 := by
  simp only [Hw.raiseResult, if_neg (show ¬ 319 < ev by omega), if_pos local_, if_true, Nat.lt_irrefl, if_false]

theorem Hw.hostRaise_unknown (nowF : Bool) (above : 319 < ev) :
    h.hostRaise ev nowF = ((h.put STN_EV_RAISE_EV 0 ev).putB STN_EV_RAISE_NOW 0 nowF).put STN_EV_RAISE_RESULT 0 4 := by
  simp [Hw.hostRaise, Hw.raiseResult_unknown _ _ above]

theorem Hw.hostRaise_local_now (local_ : ev < 64) :
    h.hostRaise ev true =
      (((h.put STN_EV_RAISE_EV 0 ev).putB STN_EV_RAISE_NOW 0 true).put STN_EV_RAISE_RESULT 0 0).evSchedule ev (h.now + 32) := by
  simp only [Hw.hostRaise, Hw.raiseResult_local_now _ local_, true_or, if_true, Hw.evRaise, if_pos local_]
  rfl

end

/-- Settles O36: a local event by whether it joins one, comes late or finds no room, and a raise by its number. -/
theorem eventsAreScheduledWithTheirLead : Obligations.EventsAreScheduledWithTheirLead := by
  refine ⟨fun s ev due t on ht local_ => ⟨fun pending => ?joins, fun new late => ?late, fun new early full => ?full, fun new early room => ?waits,
      fun bound => ?bound⟩,
    fun s m ev hs hev => ⟨fun above => ?unknown, fun local_ => ?raised⟩⟩
  case joins => exact (exec_eventSchedule_local on due ht local_).trans (congrArg s.to (Hw.evSchedule_joins pending))
  case late => exact (exec_eventSchedule_local on due ht local_).trans (congrArg s.to (Hw.evSchedule_late new late))
  case full => exact (exec_eventSchedule_local on due ht local_).trans (congrArg s.to (Hw.evSchedule_full new early full))
  case waits => exact (exec_eventSchedule_local on due ht local_).trans (congrArg s.to (Hw.evSchedule_waits new early room))
  case bound => exact Hw.evSchedule_length ev due bound
  case unknown => rw [exec_evRaise hs hev, Hw.hostRaise_unknown _ _ above]
  case raised => rw [exec_evRaise hs hev, Hw.hostRaise_local_now _ local_]

/-! ### The action of an event (R241, R244, R245) -/

/-- `g` stands at the instant of `h`, with the same events pending and the same shown in STN_EV_SEEN, which has ten words. -/
structure Hw.SameEvents (h g : Hw) : Prop where
  now : g.now = h.now
  evs : g.evs = h.evs
  seen : ∀ w, w < 10 → g.get STN_EV_SEEN_SEEN 0 w = h.get STN_EV_SEEN_SEEN 0 w

namespace Hw.SameEvents
variable {h g : Hw}

theorem refl (h : Hw) : SameEvents h h := ⟨rfl, rfl, fun _ _ => rfl⟩

/-- The pins' levels lie behind the words of STN_EV_SEEN. -/
theorem setTrig (k : SameEvents h g) (p : Nat) (b : Bool) : SameEvents h (g.setTrig p b) :=
  ⟨k.now, k.evs, fun w hw => (Hw.get_put_ne _ _ _ _ _ _ _ _ (by
    simp only [Fld.key, STN_EV_SEEN_SEEN, STN_TRIG_STAT_LEVEL, ne_eq, RegKey.mk.injEq]
    omega)).trans (k.seen w hw)⟩

theorem trigOut (k : SameEvents h g) {ev t : Nat} : SameEvents h (g.trigOut ev t) := by
  refine Hw.each_keeps k fun _ p kx => Hw.ite_keeps ?_ kx
  obtain ⟨now, evs, seen⟩ := kx.setTrig p true
  exact ⟨now, evs, seen⟩

theorem modC (k : SameEvents h g) {c : Nat} {f : CapS → CapS} : SameEvents h (g.modC c f) := ⟨k.now, k.evs, k.seen⟩

theorem modE (k : SameEvents h g) {e : Nat} {f : EngS → EngS} : SameEvents h (g.modE e f) := ⟨k.now, k.evs, k.seen⟩

end Hw.SameEvents

/-- Event `k` taken from those pending at its due tick and shown in STN_EV_SEEN. -/
def Hw.evShown (h : Hw) (k due : Nat) : Hw :=
  Hw.put { h with now := due, evs := h.evs.erase (k, due) } STN_EV_SEEN_SEEN 0 (setBit (h.get STN_EV_SEEN_SEEN 0 (k / 32)) (k % 32)) (k / 32)

theorem Hw.evShown_seen_self (h : Hw) (k due : Nat) :
    (h.evShown k due).get STN_EV_SEEN_SEEN 0 (k / 32) = setBit (h.get STN_EV_SEEN_SEEN 0 (k / 32)) (k % 32) % 2 ^ 32 := Hw.get_put_self _ _ _ _ _

theorem Hw.evShown_seen_ne (h : Hw) {k w : Nat} (due : Nat) (hw : w ≠ k / 32) :
    (h.evShown k due).get STN_EV_SEEN_SEEN 0 w = h.get STN_EV_SEEN_SEEN 0 w :=
  Hw.get_put_ne _ _ _ _ _ _ _ _ (by
    simp only [Fld.key, STN_EV_SEEN_SEEN, ne_eq, RegKey.mk.injEq]
    omega)

/-- An event that acts sets its own bit and no other. -/
theorem Hw.evShown_bit (h : Hw) (k due j : Nat) :
    bit ((h.evShown k due).get STN_EV_SEEN_SEEN 0 (j / 32)) (j % 32) = (decide (j = k) || bit (h.get STN_EV_SEEN_SEEN 0 (j / 32)) (j % 32)) := by
  by_cases word : j / 32 = k / 32
  · have same : j % 32 = k % 32 ↔ j = k := by omega
    rw [word, Hw.evShown_seen_self, bit_cut _ (Nat.mod_lt j (by decide)), bit_setBit, decide_eq_decide.mpr same]
  · have other : j ≠ k := fun same => word (congrArg (· / 32) same)
    rw [Hw.evShown_seen_ne h due word, decide_eq_false other, Bool.false_or]

/-- What follows an action, at pins, captures and engines, leaves instant, pending events and STN_EV_SEEN. -/
theorem Hw.evAct_shows {h : Hw} {k due : Nat} (pending : (k, due) ∈ h.evs) (ahead : h.now ≤ due)
    (acts : k < 64 ∨ (h.mute = false ∧ h.levOn (k - 64) = true)) : (h.evShown k due).SameEvents (h.evAct k due) := by
  have taken : ¬ ((!h.evs.contains (k, due) || decide (due < h.now)) = true) := by
    simp only [List.contains_iff_mem.mpr pending, decide_eq_false (Nat.not_lt.mpr ahead), Bool.not_true, Bool.or_false, Bool.false_eq_true,
      not_false_eq_true]
  have masked : ¬ ((decide (64 ≤ k) && (h.mute || !h.levOn (k - 64))) = true) := by
    rcases acts with local_ | ⟨sends, listed⟩
    · simp only [decide_eq_false (Nat.not_le.mpr local_), Bool.false_and, Bool.false_eq_true, not_false_eq_true]
    · simp only [sends, listed, Bool.not_true, Bool.or_false, Bool.and_false, Bool.false_eq_true, not_false_eq_true]
  rw [Hw.evAct, if_neg taken]
  refine iteInduction (fun discarded => absurd discarded masked) fun _ => ?_
  exact Hw.each_keeps (Hw.each_keeps (Hw.ite_keeps (SameEvents.refl _).trigOut (SameEvents.refl _))
    fun _ _ same => Hw.ite_keeps same.modC same) fun _ _ same => Hw.ite_keeps same.modE same

theorem exec_eventAct {s : State} (on : s.on) (k due : Nat) : exec (.eventAct k due) s = s.to (s.hw.evAct k due) :=
  s.run_live (fun h => h.evAct k due) on

/-- Settles O37: the action sets the event's bit alone, and what follows it leaves STN_EV_SEEN. -/
theorem anEventThatActsIsSeen : Obligations.AnEventThatActsIsSeen := by
  intro s k due j on hk pending ahead acts
  have shows := Hw.evAct_shows pending ahead acts
  refine ⟨exec_eventAct on k due, ?own, fun hj other => ?others, shows.now, shows.evs⟩
  case own => rw [shows.seen _ (by omega), Hw.evShown_bit, decide_eq_true rfl, Bool.true_or]
  case others => rw [shows.seen _ (by omega), Hw.evShown_bit, decide_eq_false other, Bool.false_or]

end Sys2Proof.Machine
end

section
/-! Junctions as an engine's step meets them (R34, R253 to R255). -/

namespace Sys2Proof.Machine

/-- An instruction that waits for a prediction or for its value: the step has begun, and stands at it. -/
theorem Hw.stepOne_waits {g : Hw} {e : Nat} {i : TIns} {p : Bool} (meets : g.meetsIns e i) (waits : (g.stepBegin e).juncWaits e i p = true) :
    g.stepOne e i p = g.stepBegin e := by
  obtain ⟨steps, fetched, _⟩ := meets
  simp [Hw.stepOne, steps, fetched, Hw.execTIns, waits]

section
variable {h : Hw} {e kind stat op bin th neg slot flag disp : Nat}

theorem Hw.takePath_need (h : Hw) (e : Nat) (taken : Bool) (target next : Nat) :
    ((h.takePath e taken target next).eng e).need = (h.eng e).need := by
  unfold Hw.takePath
  split
  · split
    · rfl
    · rw [Hw.insErr_need]
  · rfl

/-! ### When a JUNCTION waits (R34, R255) -/

theorem Hw.juncWaits_pending (p : Bool) (pending : (h.eng e).pred ≠ none) :
    h.juncWaits e (.junction kind stat op bin th neg slot flag disp) p = true := by
  simp [Hw.juncWaits, Option.isSome_iff_ne_none.mpr pending]

theorem Hw.juncWaits_refuted (refuted : (h.eng e).noPred = true) (value : ¬ (kind = 2 ∧ flag = 7)) :
    h.juncWaits e (.junction kind stat op bin th neg slot flag disp) true = true := by
  simp only [Hw.juncWaits, refuted, Bool.true_and, Bool.or_eq_true, Bool.not_eq_true', Bool.and_eq_false_iff, beq_eq_false_iff_ne]
  omega

theorem Hw.juncWaits_goes {p : Bool} (free : (h.eng e).pred = none) (fresh : p = true → (h.eng e).noPred = false) :
    h.juncWaits e (.junction kind stat op bin th neg slot flag disp) p = false := by
  cases p with
  | false => simp [Hw.juncWaits, free]
  | true => simp [Hw.juncWaits, free, fresh rfl]

/-! ### What a JUNCTION does (R253 to R255) -/

/-- A JUNCTION of slot `slot` at the program counter evaluated with the outcome `r`, to be committed with its step. -/
def Hw.juncEvaluated (h : Hw) (e kind slot : Nat) (r : Bool × Bool) : Hw :=
  h.modAcc e (fun x => { x with juncs := x.juncs ++ [(h.pc e, r.1, if kind = 0 then some slot else none)], empty := x.empty || r.2 })

/-- The JUNCTION `cond` at the program counter predicted to go the way `k`: what the engine goes back to if that is refuted is kept, and the
step is tagged. -/
def Hw.juncPredicted (h : Hw) (e : Nat) (cond : TIns) (k : Bool) (disp : Nat) : Hw :=
  (h.put TT_JSTAT_PENDJ e 1).modE e (fun y => { y with
    pred := some {
      addr := h.pc e, taken := k, target := dispTarget (h.pc e) disp, cond := cond, acc := (h.eng e).acc, loops := (h.eng e).loops,
      calls := (h.eng e).calls, snap := h.engBack e, parts := (h.eng e).parts.length }
    acc := { y.acc with tag := true } })

theorem Hw.juncEvaluated_need (h : Hw) (e kind slot : Nat) (r : Bool × Bool) : ((h.juncEvaluated e kind slot r).eng e).need = (h.eng e).need := by
  rw [Hw.juncEvaluated, Hw.modAcc_eng]

theorem Hw.juncPredicted_need (h : Hw) (e : Nat) (cond : TIns) (k : Bool) (disp : Nat) :
    ((h.juncPredicted e cond k disp).eng e).need = (h.eng e).need := by
  rw [Hw.juncPredicted, Hw.modE_eng_self, Hw.eng_of_put]

theorem Hw.insJunction_invalid (p : Bool) (bad : junctionOk kind stat op bin th slot flag = false) :
    h.insJunction e kind stat op bin th neg slot flag disp p = h.insErr e 4 := by
  rw [Hw.insJunction, if_pos (by simp [bad])]

section
variable (ok : junctionOk kind stat op bin th slot flag = true)
include ok

theorem Hw.insJunction_evaluates :
    h.insJunction e kind stat op bin th neg slot flag disp false =
      (h.juncEvaluated e kind slot (h.evalJunction e kind stat op bin th neg slot flag)).takePath e
        (h.evalJunction e kind stat op bin th neg slot flag).1 (dispTarget (h.pc e) disp) (h.pc e + 8) := by
  rw [Hw.insJunction, if_neg (by simp [ok])]
  rfl

theorem Hw.insJunction_predicts (value : ¬ (kind = 2 ∧ flag = 7)) :
    h.insJunction e kind stat op bin th neg slot flag disp true =
      (h.juncPredicted e (.junction kind stat op bin th neg slot flag disp) (decide (2 ≤ h.predEntry e (h.pc e))) disp).takePath e
        (decide (2 ≤ h.predEntry e (h.pc e))) (dispTarget (h.pc e) disp) (h.pc e + 8) := by
  have predicted : (true && !(kind == 2 && flag == 7)) = true := by
    simp only [Bool.true_and, Bool.not_eq_true', Bool.and_eq_false_iff, beq_eq_false_iff_ne]
    omega
  rw [Hw.insJunction, if_neg (by simp [ok])]
  exact if_pos predicted

end

end

/-! ### The command of a JUNCTION -/

section
variable {s : State} {e kind stat op bin th neg slot flag disp : Nat} {p : Bool} {x : Hw} (on : s.on)
include on

theorem exec_ttJunction :
    exec (.ttJunction e kind stat op bin th neg slot flag disp p) s =
      s.to (((s.hw.passGuard (s.hw.get TT_BIND_UNIT e)).stepOne e (.junction kind stat op bin th neg slot flag disp) p).staged e) :=
  s.run_live (fun h => h.ttIns e (.junction kind stat op bin th neg slot flag disp) p) on

variable (meets : (s.hw.passGuard (s.hw.get TT_BIND_UNIT e)).meetsIns e (.junction kind stat op bin th neg slot flag disp))
include meets

/-- A JUNCTION that need not wait does to its step what it is for. -/
theorem exec_ttJunction_goes
    (goes : ((s.hw.passGuard (s.hw.get TT_BIND_UNIT e)).stepBegin e).juncWaits e (.junction kind stat op bin th neg slot flag disp) p = false)
    (does : ((s.hw.passGuard (s.hw.get TT_BIND_UNIT e)).counted e).insJunction e kind stat op bin th neg slot flag disp p = x)
    (need : (x.eng e).need = (((s.hw.passGuard (s.hw.get TT_BIND_UNIT e)).counted e).eng e).need) :
    exec (.ttJunction e kind stat op bin th neg slot flag disp p) s = s.to (x.staged e) := by
  rw [exec_ttJunction on, Hw.stepOne_meets meets goes does (need.trans ((Hw.counted_need _ e).trans (Hw.stepping_need meets.1)))]

theorem exec_ttJunction_waits
    (waits : ((s.hw.passGuard (s.hw.get TT_BIND_UNIT e)).stepBegin e).juncWaits e (.junction kind stat op bin th neg slot flag disp) p = true) :
    exec (.ttJunction e kind stat op bin th neg slot flag disp p) s =
      s.to (((s.hw.passGuard (s.hw.get TT_BIND_UNIT e)).stepBegin e).staged e) := by
  rw [exec_ttJunction on, Hw.stepOne_waits meets waits]

end

/-- Settles O34, by what the JUNCTION does (evaluated, predicted, of invalid operands) and by what it may have to wait for. -/
theorem junctionsTakeTheirPath : Obligations.JunctionsTakeTheirPath := by
  refine fun s e kind stat op bin th neg slot flag disp p on meets => ⟨fun free ok => ?evaluates, fun free ok fresh value => ?predicts,
    fun free fresh bad => ?errs, fun pending => ?pending, fun refuted value => ?refuted⟩
  case evaluates =>
    exact exec_ttJunction_goes on meets (Hw.juncWaits_goes free nofun) (Hw.insJunction_evaluates ok)
      ((Hw.takePath_need _ e _ _ _).trans (Hw.juncEvaluated_need _ e kind slot _))
  case predicts =>
    exact exec_ttJunction_goes on meets (Hw.juncWaits_goes free (fun _ => fresh)) (Hw.insJunction_predicts ok value)
      ((Hw.takePath_need _ e _ _ _).trans (Hw.juncPredicted_need _ e _ _ disp))
  case errs =>
    exact exec_ttJunction_goes on meets (Hw.juncWaits_goes free (fun _ => fresh)) (Hw.insJunction_invalid p bad) (Hw.insErr_need _ e 4)
  case pending => exact exec_ttJunction_waits on meets (Hw.juncWaits_pending p pending)
  case refuted => exact exec_ttJunction_waits on meets (Hw.juncWaits_refuted refuted value)

end Sys2Proof.Machine
end

section
/-! Trigger pins: edges of inputs, pulses of outputs, and the writes that make a pin one or the other (R12, R247). -/

namespace Sys2Proof.Machine

theorem tfind_tdel_self {κ α : Type} [DecidableEq κ] (t : Tab κ α) (k : κ) : tfind (tdel t k) k = none := by
  induction t with
  | nil => rfl
  | cons p r ih =>
    obtain ⟨k', v⟩ := p
    by_cases hk : k' = k
    · simpa [tdel, hk] using ih
    · simpa [tdel, tfind, hk, Ne.symm hk] using ih

/-! ### Edges of an input (R247) -/

/-- Level `lvl` of pin `k` taken as its qualified one at tick `q`. -/
def Hw.trigTaken (h : Hw) (k : Nat) (lvl : Bool) (q : Nat) : Hw :=
  Hw.setTrig { h with now := q, trigLvl := tset h.trigLvl k lvl, trigAt := tset h.trigAt k q, trigNew := h.trigNew.filter (· != k) } k lvl

/-- The edge on pin `k` shown in STN_TRIG_STAT, and its event raised. -/
def Hw.trigRaised (h : Hw) (k q : Nat) : Hw :=
  (h.put STN_TRIG_STAT_EDGES 0 (setBit (h.get STN_TRIG_STAT_EDGES 0) k)).evRaise (h.get STN_TRIG_CFG_EV 0 k) (q + 32)

/-- Taking a level leaves the pins' settings. -/
theorem Hw.trigTaken_edge (h : Hw) (k : Nat) (lvl : Bool) (q j : Nat) :
    (h.trigTaken k lvl q).get STN_TRIG_CFG_EDGE 0 j = h.get STN_TRIG_CFG_EDGE 0 j :=
  Hw.get_put_ne _ _ _ _ _ _ _ _ (by
    simp only [Fld.key, STN_TRIG_CFG_EDGE, STN_TRIG_STAT_LEVEL, ne_eq, RegKey.mk.injEq]
    omega)

/-- An edge has come within FILT + 1 ticks of the pin's last one. -/
def Hw.trigSoon (h : Hw) (k q : Nat) : Bool :=
  match tfind h.trigAt k with
  | some a => decide (q < a + h.get STN_TRIG_CFG_FILT 0 k + 1)
  | none => false

theorem Hw.trigSoon_iff (h : Hw) (k q : Nat) :
    h.trigSoon k q = true ↔ ∃ a, tfind h.trigAt k = some a ∧ q < a + h.get STN_TRIG_CFG_FILT 0 k + 1 := by
  unfold Hw.trigSoon
  split
  next a last => simp [last]
  next never => simp [never]

theorem Hw.trigSoon_of_gap {h : Hw} {k q : Nat} (gap : ∀ a, tfind h.trigAt k = some a → a + h.get STN_TRIG_CFG_FILT 0 k + 1 ≤ q) :
    h.trigSoon k q = false := by
  rw [Bool.eq_false_iff, ne_eq, Hw.trigSoon_iff]
  rintro ⟨a, last, within⟩
  exact absurd (gap a last) (Nat.not_le.mpr within)

/-- The cases of a level that may qualify: none does, a first one of an input, or an edge, which the pin may select. -/
theorem Hw.trigEdge_eq (h : Hw) (k : Nat) (lvl : Bool) (q : Nat) :
    h.trigEdge k lvl q =
      if !h.trigHas k || h.flag STN_TRIG_CFG_DIR 0 k || decide (q < h.now) || h.trigSoon k q || tfind h.trigLvl k == some lvl then h
      else
        let e := (h.trigTaken k lvl q).get STN_TRIG_CFG_EDGE 0 k
        if !h.trigNew.contains k && (e == 3 || (lvl && e == 1) || (!lvl && e == 2)) then (h.trigTaken k lvl q).trigRaised k q
        else h.trigTaken k lvl q := rfl

section
variable {h : Hw} {k q : Nat} {lvl : Bool}

theorem Hw.trigEdge_nothing
    (off : h.flag STN_TRIG_CFG_DIR 0 k = true ∨ h.dieUp (k / 4) = false ∨ tfind h.trigLvl k = some lvl ∨ h.trigSoon k q = true) :
    h.trigEdge k lvl q = h := by
  refine (h.trigEdge_eq k lvl q).trans (if_pos ?_)
  rcases off with output | down | stands | soon
  · simp [output]
  · simp [Hw.trigHas, down]
  · simp [stands]
  · simp [soon]

section
variable (up : h.dieUp (k / 4) = true) (input : h.flag STN_TRIG_CFG_DIR 0 k = false) (ahead : h.now ≤ q) (spaced : h.trigSoon k q = false)
  (change : tfind h.trigLvl k ≠ some lvl)
include up input ahead spaced change

theorem Hw.trigEdge_takes :
    h.trigEdge k lvl q =
      (let e := h.get STN_TRIG_CFG_EDGE 0 k
       if !h.trigNew.contains k && (e == 3 || (lvl && e == 1) || (!lvl && e == 2)) then (h.trigTaken k lvl q).trigRaised k q
       else h.trigTaken k lvl q) := by
  have qualifies : ¬ (!h.trigHas k || h.flag STN_TRIG_CFG_DIR 0 k || decide (q < h.now) || h.trigSoon k q ||
      tfind h.trigLvl k == some lvl) = true := by
    simp [Hw.trigHas, up, input, ahead, spaced, change]
  rw [Hw.trigEdge_eq, if_neg qualifies, Hw.trigTaken_edge]

theorem Hw.trigEdge_first (first : h.trigNew.contains k = true) : h.trigEdge k lvl q = h.trigTaken k lvl q := by
  rw [Hw.trigEdge_takes up input ahead spaced change]
  simp only [first, Bool.not_true, Bool.false_and, Bool.false_eq_true, if_false]

end

theorem Hw.trigEdge_rising (up : h.dieUp (k / 4) = true) (input : h.flag STN_TRIG_CFG_DIR 0 k = false) (ahead : h.now ≤ q)
    (spaced : h.trigSoon k q = false) (change : tfind h.trigLvl k ≠ some true) (later : h.trigNew.contains k = false)
    (rising : h.get STN_TRIG_CFG_EDGE 0 k = 1) : h.trigEdge k true q = (h.trigTaken k true q).trigRaised k q := by
  rw [Hw.trigEdge_takes up input ahead spaced change, later, rising]
  rfl

end

theorem exec_trigEdgeQualify {s : State} (on : s.on) {k : Nat} (hk : k < 8) (lvl : Bool) (q : Nat) :
    exec (.trigEdgeQualify k lvl q) s = s.to (s.hw.trigEdge k lvl q) :=
  (s.run_live (fun h => if k < 8 then h.trigEdge k lvl q else h) on).trans (by rw [if_pos hk]; rfl)

/-! ### Pulses and the direction of a pin (R247) -/

theorem exec_trigPulseEnd {s : State} (on : s.on) (k t : Nat) : exec (.trigPulseEnd k t) s = s.to (s.hw.trigPulseEnd k t) :=
  s.run_live (fun h => h.trigPulseEnd k t) on

theorem Hw.trigPulseEnd_ends {h : Hw} {k t : Nat} (pulse : tfind h.trigEnd k = some t) (ahead : h.now ≤ t) (up : h.dieUp (k / 4) = true)
    (output : h.flag STN_TRIG_CFG_DIR 0 k = true) :
    h.trigPulseEnd k t = Hw.setTrig { h with now := t, trigEnd := tdel h.trigEnd k } k false := by
  rw [Hw.trigPulseEnd, pulse]
  exact if_pos ⟨rfl, ahead, up, output⟩

/-- The eight words of STN_TRIG_CFG. -/
theorem Hw.stnWrite_trig (h : Hw) {k : Nat} (hk : k < 8) (v : Nat) : h.stnWrite (0x1100 + 4 * k) v = h.trigCfg k v := by
  have word : (0x1100 + 4 * k - 0x1100) / 4 = k := by omega
  rw [Hw.stnWrite, if_neg (by omega), if_neg (by omega), if_neg (by omega), if_neg (by omega), if_neg (by omega), if_neg (by omega),
    if_neg (by omega), if_pos (by omega), word]

theorem exec_trigDirWrite {s : State} {m : Master} (hs : s.hears m) {k : Nat} (hk : k < 8) (v : Nat) :
    exec (.trigDirWrite m k v) s = s.wrote m (s.hw.trigCfg k v) :=
  (State.run_byHost hs (fun _ => decide (k < 8)) (fun h => h.stnWrite (0x1100 + 4 * k) v) (decide_eq_true hk)).trans
    (by rw [Hw.stnWrite_trig _ hk])

/-- A pin whose direction changes has no pulse and no known level, and its next level is a first one. -/
theorem Hw.trigCfg_turns {h : Hw} {k v : Nat} (turns : h.get STN_TRIG_CFG_DIR 0 k ≠ bits v 0 0) :
    (h.trigCfg k v).trigEnd = tdel h.trigEnd k ∧ (h.trigCfg k v).trigLvl = tdel h.trigLvl k ∧
      (h.trigCfg k v).trigNew = k :: h.trigNew.filter (· != k) := by
  simp only [Hw.trigCfg, if_neg turns]
  split
  next output => exact ⟨rfl, rfl, rfl⟩
  next input => exact ⟨rfl, rfl, rfl⟩

/-- Settles O38, by what a sampled level is to its pin, by the end of a pulse and by what a change of direction drops. That a first level, one
that stands and one within FILT + 1 ticks of the last raise nothing is the model's choice (log 25). -/
theorem triggerPinsRaiseAndDrive : Obligations.TriggerPinsRaiseAndDrive := by
  refine fun s m k q v lvl on hk => ⟨fun up input ahead gap change first => ?first, fun up input ahead gap change later rising => ?rising,
    fun off => ?nothing, fun up pulse ahead output => ?ends, fun serves => exec_trigDirWrite ⟨on, serves⟩ hk v, fun turns => ?turns⟩
  case first =>
    exact (exec_trigEdgeQualify on hk lvl q).trans (congrArg s.to (Hw.trigEdge_first up input ahead (Hw.trigSoon_of_gap gap) change first))
  case rising =>
    exact (exec_trigEdgeQualify on hk true q).trans (congrArg s.to (Hw.trigEdge_rising up input ahead (Hw.trigSoon_of_gap gap) change later rising))
  case nothing => rw [exec_trigEdgeQualify on hk, Hw.trigEdge_nothing (by rwa [Hw.trigSoon_iff])]
  case ends => exact (exec_trigPulseEnd on k q).trans (congrArg s.to (Hw.trigPulseEnd_ends pulse ahead up output))
  case turns =>
    obtain ⟨ends, level, fresh⟩ := Hw.trigCfg_turns turns
    rw [ends, level, fresh]
    exact ⟨tfind_tdel_self _ k, tfind_tdel_self _ k, by simp⟩

end Sys2Proof.Machine
end

section
/-! Queues: what a write of their registers does, the pop of a copied head, the placing of records, and bursts to DDR5 under the Twill path's
token (R18, R35, R271 to R279). -/

namespace Sys2Proof.Machine

/-! ### Bursts under the Twill path's token (R18, R35) -/

section
variable {h : Hw} {r : Res} {who rank : Nat} (f : Hw → Hw)

/-- The holder of the token makes its burst and releases it. -/
theorem Hw.burstOf_held (held : h.holds r who = true) : h.burstOf r who rank f = (f h).tokRel r who := by
  rw [Hw.burstOf, Hw.twAsk_held held, if_pos held]

section
variable (free : h.holds r who = false)
include free

theorem Hw.burstOf_waiting (waits : ((h.arb r).pend.any (fun x => x.who == who)) = true) : h.burstOf r who rank f = h := by
  rw [Hw.burstOf, Hw.twAsk_waiting waits, if_neg (ne_true_of_eq_false free)]

/-- A token that nobody has asked for is asked for, and the burst follows where it is granted. -/
theorem Hw.burstOf_new (new : ((h.arb r).pend.any (fun x => x.who == who)) = false) :
    h.burstOf r who rank f =
      (let g := h.tokReq r { who := who, rank := rank }
       if g.holds r who then (f g).tokRel r who else g) := by
  rw [Hw.burstOf, Hw.twAsk_new free new]

end

end

/-! ### A write to a queue's registers (R39, R446) -/

theorem Hw.queueWrite_cfg (h : Hw) (m : Master) (q v : Nat) : h.queueWrite m q 0x0 v = h.qCfgWrite q v := if_pos rfl

theorem Hw.queueWrite_drop (h : Hw) (m : Master) (q : Nat) : h.queueWrite m q 0x20 1 = h.dropRest m q := by
  rw [Hw.queueWrite, if_neg (by decide), if_pos rfl, if_neg (by decide), if_pos (by decide)]

theorem Hw.queueWrite_flush (h : Hw) (m : Master) (q : Nat) : h.queueWrite m q 0x20 2 = h.qFlush q := by
  rw [Hw.queueWrite, if_neg (by decide), if_pos rfl, if_pos (by decide), if_neg (by decide)]

theorem Hw.queueWrite_release (h : Hw) (m : Master) (q v : Nat) : h.queueWrite m q 0x24 v = h.qRelease q v := by
  rw [Hw.queueWrite, if_neg (by decide), if_neg (by decide), if_pos rfl]

section
variable {s : State} {m : Master} {q : Nat} (hs : s.hears m) (hq : s.hw.hasQueue q = true)
include hs hq

theorem State.run_queueWrite (off v : Nat) :
    s.run (fun h => h.byHost m (h.hasQueue q) (fun h => h.queueWrite m q off v)) = s.wrote m (s.hw.queueWrite m q off v) :=
  State.run_byHost hs (fun h => h.hasQueue q) (fun h => h.queueWrite m q off v) hq

theorem exec_queueEnable {v : Nat} (enable : bit v 2 = true) : exec (.queueEnable m q v) s = s.wrote m (s.hw.qCfgWrite q v) :=
  (State.run_queueWrite hs hq 0x0 (setBit v 2)).trans (by rw [setBit, if_pos enable, Hw.queueWrite_cfg])

theorem exec_queueDisable {v : Nat} (disable : bit v 2 = false) : exec (.queueDisable m q v) s = s.wrote m (s.hw.qCfgWrite q v) :=
  (State.run_queueWrite hs hq 0x0 (clrBit v 2)).trans (by rw [clrBit, if_neg (ne_true_of_eq_false disable), Hw.queueWrite_cfg])

theorem exec_dropRest : exec (.dropRest m q) s = s.wrote m (s.hw.dropRest m q) :=
  (State.run_queueWrite hs hq 0x20 1).trans (by rw [Hw.queueWrite_drop])

theorem exec_queueFlush : exec (.queueFlush m q) s = s.wrote m (s.hw.qFlush q) :=
  (State.run_queueWrite hs hq 0x20 2).trans (by rw [Hw.queueWrite_flush])

theorem exec_queueRelease (v : Nat) : exec (.queueRelease m q v) s = s.wrote m (s.hw.qRelease q v) :=
  (State.run_queueWrite hs hq 0x24 v).trans (by rw [Hw.queueWrite_release])

end

/-! ### Pointers and pops (R273, R277, R283) -/

section
variable {h : Hw} {q : Nat}

theorem Hw.qCheck_ok (ok : (h.que q).ok = true) : h.qCheck q = h := if_pos ok

/-- The pointers stand as they were set, in 64 bits. -/
theorem Hw.qSet_que (h : Hw) (q wp rp : Nat) :
    (h.qSet q wp rp).que q = { h.que q with wp := wp % 2 ^ 64, wpN := 2 ^ 64 - 1 - wp % 2 ^ 64, rp := rp % 2 ^ 64, rpN := 2 ^ 64 - 1 - rp % 2 ^ 64 } := by
  simp only [Hw.qSet, Hw.qShow, Hw.que_of_put, Hw.modQ_que_self]

section
variable {g rp : Nat} (ok : (h.que q).ok = true)
include ok

/-- A pop by its guard: the queue is on and not empty, of the copy's generation, with the copied packet at RP. -/
theorem Hw.qPop_eq :
    h.qPop q g rp =
      if h.qOn q = true ∧ 0 < h.qLevel q ∧ h.get Q_STAT_GEN q = g ∧ (h.que q).rp = rp then h.qSet q (h.que q).wp ((h.que q).rp + h.qP q) else h := by
  simp only [Hw.qPop, Hw.qCheck_ok ok, Bool.and_eq_true, decide_eq_true_eq, beq_iff_eq, and_assoc]

theorem Hw.qPop_head (on : h.qOn q = true) (nonempty : 0 < h.qLevel q) (gen : h.get Q_STAT_GEN q = g) (head : (h.que q).rp = rp) :
    h.qPop q g rp = h.qSet q (h.que q).wp (rp + h.qP q) := by
  rw [Hw.qPop_eq ok, if_pos ⟨on, nonempty, gen, head⟩, head]

theorem Hw.qPop_nothing (gone : h.qOn q = false ∨ h.qLevel q = 0 ∨ h.get Q_STAT_GEN q ≠ g ∨ (h.que q).rp ≠ rp) : h.qPop q g rp = h := by
  rw [Hw.qPop_eq ok, if_neg]
  rintro ⟨on, nonempty, gen, head⟩
  rcases gone with off | empty | other | moved
  · exact ne_true_of_eq_false off on
  · omega
  · exact other gen
  · exact moved head

end

/-! ### Heads of queues (R276 to R278) -/

/-- DROP_REST by a master that holds no slot. -/
theorem Hw.dropRest_none {m : Master} (none_ : h.slotOf (q / 64) (masterNo m) = none) : h.dropRest m q = h.put Q_CMD_RESULT q 1 := by
  simp only [Hw.dropRest, none_]

/-- DROP_REST by the holder of a copy of this queue's head. -/
theorem Hw.dropRest_held {m : Master} {sl : SlotS} {g rp : Nat} (held : h.slotOf (q / 64) (masterNo m) = some sl)
    (same : sl.blk = .queue ∧ sl.inst = q ∧ sl.off = 0x80) (copied : sl.head = some (g, rp)) :
    h.dropRest m q = ((h.qPop q g rp).put Q_CMD_RESULT q 0).slotRelease (q / 64) (masterNo m) := by
  simp only [Hw.dropRest, held, if_pos same, copied]

end

/-- Address of word `i` of Q_HEAD. -/
def headAddr (q i : Nat) : Nat := 0x100000 + q / 64 * 0x100000 + 0x50000 + q % 64 * 0x100 + 0x80 + 4 * i

theorem Hw.headRead_eq {h : Hw} {q : Nat} (hq : h.hasQueue q = true) (m : Master) (i : Nat) :
    h.headRead m q i = (h.snapCmd m (headAddr q i) (decide (i = 0))).settle := if_pos hq

section
variable {s : State} {q : Nat} (on : s.on) (hq : s.hw.hasQueue q = true) (m : Master)
include on hq

theorem exec_headCopy (ecc : List (Nat × Bool)) :
    exec (.headCopy m q ecc) s = s.to (((s.hw.meets ecc).snapCmd m (headAddr q 0) true).settle) :=
  (s.run_live (fun h => (h.meets ecc).headRead m q 0) on).trans (by rw [Hw.headRead_eq (show (s.hw.meets ecc).hasQueue q = true from hq)]; rfl)

theorem exec_headPop :
    exec (.headPop m q) s = s.to ((s.hw.snapCmd m (headAddr q (s.hw.qP q / 4 - 1)) (decide (s.hw.qP q / 4 - 1 = 0))).settle) :=
  (s.run_live (fun h => h.headRead m q (h.qP q / 4 - 1)) on).trans (by rw [Hw.headRead_eq hq]; rfl)

end

/-- Settles O40: a read of Q_HEAD by its place, DROP_REST by the slot that its master holds, and a pop by its guard. -/
theorem headsArePoppedOncePerPacket : Obligations.HeadsArePoppedOncePerPacket := by
  refine ⟨fun s m q ecc hs hq => ⟨⟨?copy, ?last⟩, fun none_ => ?dropNone, fun sl g rp held blk inst off copied => ?dropHeld⟩,
    fun h q g rp ok => ⟨fun on nonempty gen head => ?pops, fun gone => Hw.qPop_nothing ok gone⟩⟩
  case copy => exact exec_headCopy hs.1 hq m ecc
  case last => exact exec_headPop hs.1 hq m
  case dropNone => rw [exec_dropRest hs hq, Hw.dropRest_none none_]
  case dropHeld => rw [exec_dropRest hs hq, Hw.dropRest_held held ⟨blk, inst, off⟩ copied]
  case pops =>
    rw [Hw.qPop_head ok on nonempty gen head]
    exact ⟨rfl, by rw [Hw.qSet_que]⟩

/-! ### Enabling and disabling (R272, R273) -/

section
variable {h : Hw} {q v : Nat}

section
variable (off : h.qOn q = false) (enable : bit v 2 = true)
include off enable

theorem Hw.qCfgWrite_refused (bad : ((h.qCfgFields q v).put Q_CFG_EN q 0).qRefused q = true) :
    h.qCfgWrite q v = ((h.qCfgFields q v).put Q_CFG_EN q 0).put Q_STAT_BADCFG q 1 := by
  simp only [Hw.qCfgWrite, off, enable, bad, Bool.not_true, Bool.false_eq_true, if_false, if_true]

/-- A queue that starts is empty, with its storage as SPILL says and a new generation. -/
theorem Hw.qCfgWrite_starts (good : ((h.qCfgFields q v).put Q_CFG_EN q 0).qRefused q = false) :
    h.qCfgWrite q v =
      (let g := (((((h.qCfgFields q v).put Q_CFG_EN q 0).put Q_CFG_EN q 1).put Q_STAT_EN_ACT q 1).qSet q 0 0)
       (g.modQ q (fun x => { x with stage := [], ring := g.flag Q_CFG_SPILL q })).qGen q) := by
  simp only [Hw.qCfgWrite, off, enable, good, Bool.not_true, Bool.false_eq_true, if_false]

end

section
variable (on : h.qOn q = true)
include on

theorem Hw.qCfgWrite_stops (disable : bit v 2 = false) (fmt : bits v 1 0 = h.get Q_CFG_FMT q) (spill : bits v 3 3 = h.get Q_CFG_SPILL q)
    (size : bits v 12 8 = h.get Q_CFG_LOG2 q) (base : bits v 25 16 = h.get Q_CFG_BASE q) :
    h.qCfgWrite q v =
      ((((h.put Q_CFG_EN q 0).put Q_STAT_EN_ACT q 0).qSet q 0 0).modQ q (fun x => { x with stage := [], ring := false })).qGen q := by
  simp only [Hw.qCfgWrite, on, disable, fmt, spill, size, base, beq_self_eq_true, Bool.and_self, Bool.not_true, Bool.false_eq_true, if_true, if_false]

/-- The format of a queue that is on stands. -/
theorem Hw.qCfgWrite_ignored (fmt : bits v 1 0 ≠ h.get Q_CFG_FMT q) : h.qCfgWrite q v = h.put Q_STAT_CFG_IGN q 1 := by
  simp only [Hw.qCfgWrite, on, beq_eq_false_iff_ne.mpr fmt, Bool.false_and, Bool.not_false, if_true]

end

/-! ### Flush and release (R279) -/

theorem Hw.qFlush_on (on : h.qOn q = true) :
    h.qFlush q = ((h.qCheck q).qSet q ((h.qCheck q).que q).wp ((h.qCheck q).que q).wp).put Q_CMD_RESULT q 0 := if_pos on

theorem Hw.qFlush_off (off : h.qOn q = false) : h.qFlush q = h.put Q_CMD_RESULT q 2 := if_neg (ne_true_of_eq_false off)

theorem Hw.qRelease_off (off : h.qOn q = false) : h.qRelease q v = h.put Q_STAT_REL_IGN q 1 := by
  simp only [Hw.qRelease, off, Bool.not_false, if_true]

/-- A release of `d` bytes is read back from the low word of RP + d. -/
theorem release_distance_eq (rp : Nat) {d : Nat} (near : d < 2 ^ 31) : ((rp + d) % 2 ^ 32 % 2 ^ 32 + 2 ^ 32 - rp % 2 ^ 32) % 2 ^ 32 = d := by
  omega

/-- Two counts less than 2^64 apart are as far apart modulo 2^64. -/
theorem level_bytes_eq {rp wp : Nat} (order : rp ≤ wp) (bound : wp < 2 ^ 64) : (wp + 2 ^ 64 - rp) % 2 ^ 64 = wp - rp := by
  omega

theorem Hw.qRelease_moves {d : Nat} (on : h.qOn q = true) (same : h.qCheck q = h) (covered : (h.que q).rp + d ≤ (h.que q).wp)
    (bound : (h.que q).wp < 2 ^ 64) (near : d < 2 ^ 31) (whole : d % h.qP q = 0) :
    h.qRelease q (((h.que q).rp + d) % 2 ^ 32) = h.qSet q (h.que q).wp ((h.que q).rp + d) := by
  have level := level_bytes_eq (Nat.le_of_add_right_le covered) bound
  have within : d ≤ (h.que q).wp - (h.que q).rp := Nat.le_sub_of_add_le' covered
  simp only [Hw.qRelease, on, same, release_distance_eq (h.que q).rp near, level, Bool.not_true, Bool.false_eq_true, if_false]
  exact if_pos ⟨near, within, whole⟩

end

/-! ### Records and spilled packets (R271, R274, R275) -/

section
variable {h : Hw} {d : Nat}

/-- The first record of a die leaves it, for its queue or for the count of those discarded. -/
theorem Hw.recordPlace_first {r : Rec} (first : firstRec (h.die d).recs = some r) :
    h.recordPlace d =
      (let g := h.modD d (fun x => { x with recs := x.recs.erase r })
       if g.qOn (d * 64 + r.q) then g.qPlace (d * 64 + r.q) (packet (g.get Q_CFG_FMT (d * 64 + r.q)) r.words)
       else g.inc DIE_REC_DISC_COUNT d) := by
  simp only [Hw.recordPlace, first]

theorem Hw.recordPlace_none (none_ : firstRec (h.die d).recs = none) : h.recordPlace d = h := by simp only [Hw.recordPlace, none_]

theorem exec_recordPlace {s : State} (on : s.on) (d : Nat) :
    exec (.recordPlace d) s = s.to (if s.hw.dieUp d then s.hw.recordPlace d else s.hw) :=
  s.run_live (fun h => if h.dieUp d then h.recordPlace d else h) on

end

theorem exec_spillMove {s : State} (on : s.on) (q : Nat) : exec (.spillMove q) s = s.to (s.hw.spillMove q).settle :=
  s.run_live (fun h => (h.spillMove q).settle) on

/-- The oldest staged packet leaves for the log ring in a burst of its own. -/
theorem Hw.spillMove_burst {h : Hw} {q ch : Nat} {w : List Nat} {rest : List (List Nat)} (oldest : (h.que q).stage = w :: rest)
    (ring : (h.que q).ring = true) (on : h.qOn q = true) (hc : ddrChan (h.get Q_LR_BASE_ADDR q) = some ch) :
    h.spillMove q = h.burstOf (.twill (q / 64) ch) (twQueue q) 6 (fun h => (h.modQ q (fun x => { x with stage := rest })).qStoreAt q w) := by
  simp only [Hw.spillMove, oldest, ring, on, Bool.and_self, if_true, Hw.burst, hc]

theorem Hw.spillMove_empty {h : Hw} {q : Nat} (empty : (h.que q).stage = []) : h.spillMove q = h := by simp only [Hw.spillMove, empty]

/-- Settles O39: each register write of a queue by whether the queue is on, a record by its queue, and a staged packet's move by who holds the
Twill path's token. That a refused enable still sets the other fields of Q_CFG is the model's choice (log 58). -/
theorem queuesStartFlushReleaseAndFill : Obligations.QueuesStartFlushReleaseAndFill := by
  refine ⟨fun s m q v hs hq => ⟨fun off enable => ⟨fun bad => ?refused, fun good => ?starts⟩, fun on disable fmt spill size base => ?stops,
      fun on disable fmt => ?ignored, fun on => ?flush, fun off => ⟨?flushOff, ?releaseOff⟩, fun d on same covered bound near whole => ?release⟩,
    fun s d q r w rest on => ⟨fun up first => ⟨fun queueOn => ?placed, fun queueOff => ?discarded⟩, fun none_ => ?noRecord,
      fun oldest ring queueOn ch hc => ⟨fun held => ?moves, fun free waits => ?waits, fun free new => ?asks⟩, fun empty => ?noPacket⟩⟩
  case refused => rw [exec_queueEnable hs hq enable, Hw.qCfgWrite_refused off enable bad]
  case starts => rw [exec_queueEnable hs hq enable, Hw.qCfgWrite_starts off enable good]
  case stops => rw [exec_queueDisable hs hq disable, Hw.qCfgWrite_stops on disable fmt spill size base]
  case ignored => rw [exec_queueDisable hs hq disable, Hw.qCfgWrite_ignored on fmt]
  case flush => rw [exec_queueFlush hs hq, Hw.qFlush_on on]
  case flushOff => rw [exec_queueFlush hs hq, Hw.qFlush_off off]
  case releaseOff => rw [exec_queueRelease hs hq, Hw.qRelease_off off]
  case release => rw [exec_queueRelease hs hq, Hw.qRelease_moves on same covered bound near whole]
  case placed =>
    rw [exec_recordPlace on, if_pos up, Hw.recordPlace_first first]
    exact congrArg s.to (if_pos queueOn)
  case discarded =>
    rw [exec_recordPlace on, if_pos up, Hw.recordPlace_first first]
    exact congrArg s.to (if_neg (ne_true_of_eq_false queueOff))
  case noRecord => rw [exec_recordPlace on, Hw.recordPlace_none none_, ite_self]
  case moves => rw [exec_spillMove on, Hw.spillMove_burst oldest ring queueOn hc, Hw.burstOf_held _ held]
  case waits => rw [exec_spillMove on, Hw.spillMove_burst oldest ring queueOn hc, Hw.burstOf_waiting _ free waits]
  case asks => rw [exec_spillMove on, Hw.spillMove_burst oldest ring queueOn hc, Hw.burstOf_new _ free new]
  case noPacket => rw [exec_spillMove on, Hw.spillMove_empty empty]

end Sys2Proof.Machine
end

section
/-! DDR5: the begin and the end of training, and the patrol scrub (R18, R35, R287 to R289). -/

namespace Sys2Proof.Machine

/-! ### Training (R288, R289) -/

theorem Hw.dieWrite_train (h : Hw) {c : Nat} (hc : c < 2) : h.dieWrite c 0x804 1 = h.ddrTrain c := by
  rw [Hw.dieWrite, if_neg (by omega), if_pos rfl, if_pos (by decide), if_neg (by decide)]

theorem exec_ddrTrain {s : State} {m : Master} (hs : s.hears m) {c : Nat} (hc : c < 2) (up : s.hw.dieUp c = true) :
    exec (.ddrTrain m c) s = s.wrote m (s.hw.ddrTrain c) :=
  (State.run_byHost hs (fun h => decide (c < 2) && h.dieUp c) (fun h => h.dieWrite c 0x804 1) (by simp [hc, up])).trans
    (by rw [Hw.dieWrite_train _ hc])

theorem exec_ddrTrainDone {s : State} (on : s.on) (c : Nat) (ok : Bool) : exec (.ddrTrainDone c ok) s = s.to (s.hw.ddrTrainDone c ok) :=
  s.run_live (fun h => h.ddrTrainDone c ok) on

section
variable {h : Hw} {c : Nat}

/-- Training goes by the settings that stand when it begins. -/
theorem Hw.ddrTrain_begins (hc : c < 2) (up : h.dieUp c = true) (idle : h.flag DDR_STAT_BUSY c = false) :
    h.ddrTrain c =
      (let g := ((h.put DDR_CMD_TRAIN c 1).put DDR_STAT_BUSY c 1).put DDR_STAT_TRAINED c 0
       ((g.put DDR_CAP_MIB c 0).modD c (fun x => { x with ddrCfg := some (g.ddrCfgWord c) })).ringsLost c) :=
  if_pos ⟨hc, up, by rw [idle]; rfl⟩

theorem Hw.ddrTrainDone_idle {ok : Bool} (idle : h.flag DDR_STAT_BUSY c = false) : h.ddrTrainDone c ok = h :=
  if_neg fun runs => ne_true_of_eq_false idle runs.2

/-- Training that ends is no longer BUSY. -/
def Hw.ddrEnded (h : Hw) (c : Nat) : Hw := (h.put DDR_CMD_TRAIN c 0).put DDR_STAT_BUSY c 0

/-- The settings that training went by. -/
def Hw.ddrTrainCfg (h : Hw) (c : Nat) : Nat := (h.die c).ddrCfg.getD ((h.ddrEnded c).ddrCfgWord c)

/-- The capacity that the settings of a training name, in MiB. -/
def Hw.ddrTrainMib (h : Hw) (c : Nat) : Nat := ddrMib (bits (h.ddrTrainCfg c) 3 3) (bits (h.ddrTrainCfg c) 4 4) (bits (h.ddrTrainCfg c) 6 5)

section
variable (hc : c < 2) (busy : h.flag DDR_STAT_BUSY c = true)
include hc busy

theorem Hw.ddrTrainDone_busy (ok : Bool) :
    h.ddrTrainDone c ok =
      if 4 < bits (h.ddrTrainCfg c) 2 0 ∨ 65536 < h.ddrTrainMib c then (h.ddrEnded c).put DDR_STAT_RESULT c 2
      else if ok then (((h.ddrEnded c).put DDR_STAT_RESULT c 0).put DDR_STAT_TRAINED c 1).put DDR_CAP_MIB c (h.ddrTrainMib c)
      else (h.ddrEnded c).put DDR_STAT_RESULT c 1 :=
  if_pos ⟨hc, busy⟩

theorem Hw.ddrTrainDone_refused (ok : Bool) (rate : 4 < bits (h.ddrTrainCfg c) 2 0) :
    h.ddrTrainDone c ok = (h.ddrEnded c).put DDR_STAT_RESULT c 2 := by
  rw [Hw.ddrTrainDone_busy hc busy, if_pos (.inl rate)]

theorem Hw.ddrTrainDone_possible (ok : Bool) (rate : bits (h.ddrTrainCfg c) 2 0 ≤ 4) (size : h.ddrTrainMib c ≤ 65536) :
    h.ddrTrainDone c ok =
      if ok then (((h.ddrEnded c).put DDR_STAT_RESULT c 0).put DDR_STAT_TRAINED c 1).put DDR_CAP_MIB c (h.ddrTrainMib c)
      else (h.ddrEnded c).put DDR_STAT_RESULT c 1 := by
  rw [Hw.ddrTrainDone_busy hc busy, if_neg (not_or.mpr ⟨Nat.not_lt.mpr rate, Nat.not_lt.mpr size⟩)]

end

/-! ### Patrol scrub (R287) -/

theorem exec_scrubPass {s : State} (on : s.on) (c : Nat) (ecc : List (Nat × Bool)) :
    exec (.scrubPass c ecc) s = s.to ((s.hw.meets ecc).scrubPass c).settle :=
  s.run_live (fun h => ((h.meets ecc).scrubPass c).settle) on

/-- The words in error that a pass over channel `c` meets are counted, the uncorrectable ones logged. -/
def Hw.scrubbed (h : Hw) (c : Nat) : Hw :=
  h.each (h.ecc.filter (fun e => ddrChan e.1 == some c)) (fun h e => if e.2 then h.eccUe e.1 else h.eccCe e.1)

theorem Hw.scrubPass_burst (hc : c < 2) (period : 0 < h.get DDR_SCRUB_PERIOD c) (installed : 0 < h.ddrCap c) :
    h.scrubPass c = h.burstOf (.twill c c) twScrub 6 (fun h => h.scrubbed c) := if_pos ⟨hc, period, installed⟩

theorem Hw.scrubPass_stopped (stopped : h.get DDR_SCRUB_PERIOD c = 0) : h.scrubPass c = h :=
  if_neg fun runs => Nat.ne_of_gt runs.2.1 stopped

end

/-- Settles O41: training by BUSY and by the settings that it went by, a scrub pass by who holds the Twill path's token. -/
theorem ddr5TrainsAndScrubs : Obligations.Ddr5TrainsAndScrubs := by
  refine fun s m c ok ecc hs hc => ⟨fun up idle => ?begins, fun idle => ?idle,
    fun busy => ⟨fun rate => ?refused, fun rate size => ?fails, fun rate size => ?trained⟩, fun period installed => ?scrub, fun stopped => ?stopped⟩
  case begins => rw [exec_ddrTrain hs hc up, Hw.ddrTrain_begins hc up idle]
  case idle => rw [exec_ddrTrainDone hs.1, Hw.ddrTrainDone_idle idle]
  case refused => exact (exec_ddrTrainDone hs.1 c ok).trans (congrArg s.to (Hw.ddrTrainDone_refused hc busy ok rate))
  case fails => exact (exec_ddrTrainDone hs.1 c false).trans (congrArg s.to (Hw.ddrTrainDone_possible hc busy false rate size))
  case trained => exact (exec_ddrTrainDone hs.1 c true).trans (congrArg s.to (Hw.ddrTrainDone_possible hc busy true rate size))
  case scrub =>
    rw [exec_scrubPass hs.1, Hw.scrubPass_burst (h := s.hw.meets ecc) hc period installed]
    refine ⟨fun held => ?holds, fun free waits => ?waits, fun free new => ?asks⟩
    case holds => rw [Hw.burstOf_held _ held]; rfl
    case waits => rw [Hw.burstOf_waiting _ free waits]
    case asks => rw [Hw.burstOf_new _ free new]; rfl
  case stopped => rw [exec_scrubPass hs.1, Hw.scrubPass_stopped (h := s.hw.meets ecc) stopped]

end Sys2Proof.Machine
end

section
/-! Calibration commands: the write of CAL_CMD that each of them is, and the results that it shows (R306, R310 to R316). -/

namespace Sys2Proof.Machine

/-! ### The word of CAL_CMD (R11, R310 to R316) -/

theorem Hw.dieWrite_calCmd (h : Hw) (d v : Nat) : h.dieWrite d 0x80010 v = h.calCmd d v := rfl

section
variable (h : Hw) (d : Nat) {ch : Nat} (hch : ch < 64)
include hch

/-- A command with a channel for its only operand has its number in OP and the channel in CH. -/
theorem calCmd_word {op : Nat} (hop : op < 8) : bits (op + ch % 2 ^ 6 * 2 ^ 3) 2 0 = op ∧ bits (op + ch % 2 ^ 6 * 2 ^ 3) 8 3 = ch := by
  constructor <;> simp only [bits] <;> omega

theorem Hw.calCmd_visit : h.calCmd d (1 + ch % 2 ^ 6 * 2 ^ 3) = h.calVisit d ch := by
  obtain ⟨op, channel⟩ := calCmd_word hch (op := 1) (by decide)
  simp only [Hw.calCmd, op, channel]

theorem Hw.calCmd_return : h.calCmd d (4 + ch % 2 ^ 6 * 2 ^ 3) = h.calReturn d ch := by
  obtain ⟨op, channel⟩ := calCmd_word hch (op := 4) (by decide)
  simp only [Hw.calCmd, op, channel]

theorem Hw.calCmd_standin {sd : Nat} (hsd : sd < 2) (force : Bool) :
    h.calCmd d (3 + ch % 2 ^ 6 * 2 ^ 3 + sd % 2 * 2 ^ 9 + b2n force * 2 ^ 10) = h.calStandin d ch sd force := by
  have one : b2n force < 2 := by cases force <;> decide
  have op : bits (3 + ch % 2 ^ 6 * 2 ^ 3 + sd % 2 * 2 ^ 9 + b2n force * 2 ^ 10) 2 0 = 3 := by simp only [bits]; omega
  have channel : bits (3 + ch % 2 ^ 6 * 2 ^ 3 + sd % 2 * 2 ^ 9 + b2n force * 2 ^ 10) 8 3 = ch := by simp only [bits]; omega
  have siding : bits (3 + ch % 2 ^ 6 * 2 ^ 3 + sd % 2 * 2 ^ 9 + b2n force * 2 ^ 10) 9 9 = sd := by simp only [bits]; omega
  have forced : bit (3 + ch % 2 ^ 6 * 2 ^ 3 + sd % 2 * 2 ^ 9 + b2n force * 2 ^ 10) 10 = force := by
    cases force <;> simp only [bit, b2n, Bool.false_eq_true, if_true, if_false, beq_iff_eq, beq_eq_false_iff_ne] <;> omega
  simp only [Hw.calCmd, op, channel, siding, forced]

end

theorem Hw.calCmd_extRange (h : Hw) (d : Nat) {pt : Nat} (hpt : pt < 2) : h.calCmd d (6 + pt % 2 * 2 ^ 11) = h.extRange d pt := by
  have op : bits (6 + pt % 2 * 2 ^ 11) 2 0 = 6 := by simp only [bits]; omega
  have point : bits (6 + pt % 2 * 2 ^ 11) 11 11 = pt := by simp only [bits]; omega
  simp only [Hw.calCmd, op, point]

section
variable {s : State} {m : Master} {d : Nat} (hs : s.hears m) (up : s.hw.dieUp d = true)
include hs up

/-- A master's write of CAL_CMD on a die that is up. -/
theorem State.run_calCmd (v : Nat) :
    s.run (fun h => h.byHost m (h.dieUp d) (fun h => h.dieWrite d 0x80010 v)) = s.wrote m (s.hw.calCmd d v) :=
  State.run_byHost hs (fun h => h.dieUp d) (fun h => h.dieWrite d 0x80010 v) up

theorem exec_calVisit {ch : Nat} (hch : ch < 64) : exec (.calVisit m d ch) s = s.wrote m (s.hw.calVisit d ch) :=
  (State.run_calCmd hs up _).trans (by rw [Hw.calCmd_visit _ d hch])

theorem exec_calStandin {ch sd : Nat} (hch : ch < 64) (hsd : sd < 2) (force : Bool) :
    exec (.calStandin m d ch sd force) s = s.wrote m (s.hw.calStandin d ch sd force) :=
  (State.run_calCmd hs up _).trans (by rw [Hw.calCmd_standin _ d hch hsd])

theorem exec_calReturn {ch : Nat} (hch : ch < 64) : exec (.calReturn m d ch) s = s.wrote m (s.hw.calReturn d ch) :=
  (State.run_calCmd hs up _).trans (by rw [Hw.calCmd_return _ d hch])

theorem exec_calExtStdv : exec (.calExtStdv m d) s = s.wrote m (s.hw.calExtStdv d) := State.run_calCmd hs up 5

theorem exec_calExtRange {pt : Nat} (hpt : pt < 2) : exec (.calExtRange m d pt) s = s.wrote m (s.hw.extRange d pt) :=
  (State.run_calCmd hs up _).trans (by rw [Hw.calCmd_extRange _ d hpt])

theorem exec_calFactoryStore : exec (.calFactoryStore m d) s = s.wrote m (s.hw.calFactoryStore d) := State.run_calCmd hs up 7

theorem exec_calStore : exec (.calStore m d) s = s.wrote m (s.hw.calStore d) := State.run_calCmd hs up 2

end

/-! ### The results (R306, R311, R312, R314, R316, R447) -/

section
variable {h : Hw} {d ch : Nat}

theorem Hw.calVisit_unknown (above : 33 < ch) : h.calVisit d ch = (h.calCmdOp d 1 ch).put CAL_CMD_RESULT d 1 := if_pos above

section
variable (known : ch ≤ 33)
include known

/-- VISIT of a channel that there is, by its siding and by whether a command runs. -/
theorem Hw.calVisit_known :
    h.calVisit d ch =
      (let k := h.sidFor d (unitAt d ch) 0
       let g := h.calCmdOp d 1 ch
       if (g.visit (d * 2 + k)).phase ≠ 0 then g.put CAL_CMD_RESULT d 2
       else if g.flag CAL_CMD_BUSY d then g.put CAL_CMD_RESULT d 4
       else ((g.put CAL_CMD_RESULT d 0).put CAL_CMD_BUSY d 1).visStart d k (unitAt d ch) true) :=
  if_neg (Nat.not_lt.mpr known)

theorem Hw.calVisit_engaged (engaged : ((h.calCmdOp d 1 ch).visit (d * 2 + h.sidFor d (unitAt d ch) 0)).phase ≠ 0) :
    h.calVisit d ch = (h.calCmdOp d 1 ch).put CAL_CMD_RESULT d 2 :=
  (Hw.calVisit_known known).trans (if_pos engaged)

section
variable (free : ((h.calCmdOp d 1 ch).visit (d * 2 + h.sidFor d (unitAt d ch) 0)).phase = 0)
include free

theorem Hw.calVisit_busy (busy : (h.calCmdOp d 1 ch).flag CAL_CMD_BUSY d = true) :
    h.calVisit d ch = (h.calCmdOp d 1 ch).put CAL_CMD_RESULT d 4 :=
  ((Hw.calVisit_known known).trans (if_neg fun engaged => engaged free)).trans (if_pos busy)

theorem Hw.calVisit_starts (idle : (h.calCmdOp d 1 ch).flag CAL_CMD_BUSY d = false) :
    h.calVisit d ch =
      (((h.calCmdOp d 1 ch).put CAL_CMD_RESULT d 0).put CAL_CMD_BUSY d 1).visStart d (h.sidFor d (unitAt d ch) 0) (unitAt d ch) true :=
  ((Hw.calVisit_known known).trans (if_neg fun engaged => engaged free)).trans (if_neg (ne_true_of_eq_false idle))

end

end

theorem Hw.calStandin_unknown (above : 31 < ch) (sd : Nat) (force : Bool) : (h.calStandin d ch sd force).get CAL_CMD_RESULT d = 1 := by
  rw [Hw.calStandin, if_pos (.inl above)]
  exact Hw.get_put_self _ _ _ _ _

theorem Hw.calReturn_none
    (none_ : ([16 + d * 2, 17 + d * 2].find? (fun k => ((h.calCmdOp d 4 ch).visit k).u == unitAt d ch && ((h.calCmdOp d 4 ch).visit k).phase == 7)) =
      none) :
    h.calReturn d ch = (h.calCmdOp d 4 ch).put CAL_CMD_RESULT d 1 := by
  simp only [Hw.calReturn, none_]

/-- CAL_CMD's operands leave the sidings' tokens. -/
theorem Hw.calCmdOp_sidFree (h : Hw) (d op ch sd : Nat) : (h.calCmdOp d op ch).sidFree d sd = h.sidFree d sd := by
  rw [Hw.calCmdOp]
  split <;> rfl

theorem Hw.calExtStdv_engaged (first : h.sidFree d 0 = false) (second : h.sidFree d 1 = false) : (h.calExtStdv d).get CAL_CMD_RESULT d = 2 := by
  have result : h.calExtStdv d = (h.calCmdOp d 5 (h.get CAL_CMD_CH d)).put CAL_CMD_RESULT d 2 := by
    simp only [Hw.calExtStdv, Hw.calCmdOp_sidFree, List.find?, first, second, Bool.false_and]
  rw [result]
  exact Hw.get_put_self _ _ _ _ _

/-- The rewrites left of slot F stand while CAL_CMD takes its command. -/
theorem Hw.calFactoryStore_spent (spent : h.get CAL_NVM_STAT_F_LEFT d = 0) : (h.calFactoryStore d).get CAL_CMD_RESULT d = 3 := by
  have left (c : Bool) : (h.cond c (fun h => h.put CAL_CMD_OP d 7)).get CAL_NVM_STAT_F_LEFT d = 0 := by
    cases c
    · exact spent
    · exact (h.get_put_pos d 7 d (by decide)).trans spent
  rw [Hw.calFactoryStore, if_pos (left _)]
  exact Hw.get_put_self _ _ _ _ _

theorem Hw.calStore_busy (busy : h.flag CAL_CMD_BUSY d = true) : h.calStore d = h.put CAL_CMD_RESULT d 4 :=
  if_pos (by rw [busy, Bool.or_true])

theorem Hw.calStore_starts (resting : h.flag CAL_NVM_STAT_STORING d = false) (idle : h.flag CAL_CMD_BUSY d = false) :
    h.calStore d = (((h.put CAL_CMD_OP d 2).put CAL_CMD_RESULT d 0).put CAL_CMD_BUSY d 1).storeBegin d (h.storeSlot d) true :=
  if_neg (by rw [resting, idle]; decide)

end

/-- Settles O42, command by command: what a write of CAL_CMD does, and the result by the operands and what stands. -/
theorem calibrationCommandsShowTheirResult : Obligations.CalibrationCommandsShowTheirResult := by
  refine fun s m d ch sd pt force hs up hch hsd hpt => ⟨⟨fun above => ?unknown, fun known engaged => ?engaged,
      fun known free busy => ?busy, fun known free idle => ?starts⟩,
    exec_calStandin hs up hch hsd force, fun above => Hw.calStandin_unknown above sd force, exec_calReturn hs up hch, Hw.calReturn_none,
    exec_calExtStdv hs up, Hw.calExtStdv_engaged, exec_calExtRange hs up hpt, exec_calFactoryStore hs up, Hw.calFactoryStore_spent,
    fun resting idle => ?stores, fun busy => ?storeBusy⟩
  case unknown => rw [exec_calVisit hs up hch, Hw.calVisit_unknown above]
  case engaged => rw [exec_calVisit hs up hch, Hw.calVisit_engaged known engaged]
  case busy => rw [exec_calVisit hs up hch, Hw.calVisit_busy known free busy]
  case starts => rw [exec_calVisit hs up hch, Hw.calVisit_starts known free idle]
  case stores => rw [exec_calStore hs up, Hw.calStore_starts resting idle]
  case storeBusy => rw [exec_calStore hs up, Hw.calStore_busy busy]

end Sys2Proof.Machine
end

section
/-! Visits and stores of calibration, phase by phase (R298 to R301, R304, R307, R310, R315, R316). -/

namespace Sys2Proof.Machine

/-! ### The commands of phases and pages -/

section
variable {s : State} (on : s.on) (d t : Nat)
include on

theorem exec_rotaVisit : exec (.rotaVisit d t) s = s.to (s.hw.rotaVisit d t) := s.run_live (fun h => h.rotaVisit d t) on

theorem exec_sidingTokenTimeout (sd : Nat) : exec (.sidingTokenTimeout d sd t) s = s.to (s.hw.sidTokenTimeout d sd t) :=
  s.run_live (fun h => h.sidTokenTimeout d sd t) on

theorem exec_takeoverStart (sd : Nat) : exec (.takeoverStart d sd) s = s.to (s.hw.takeoverStart d sd) :=
  s.run_live (fun h => h.takeoverStart d sd) on

theorem exec_handover (sd n : Nat) (own other : Sample) : exec (.handover d sd n own other) s = s.to (s.hw.handover d sd n own other) :=
  s.run_live (fun h => h.handover d sd n own other) on

theorem exec_takeoverTimeout (sd : Nat) : exec (.takeoverTimeout d sd t) s = s.to (s.hw.takeoverTimeout d sd t) :=
  s.run_live (fun h => h.takeoverTimeout d sd t) on

theorem exec_sidingReturn (sd n : Nat) (own other : Sample) :
    exec (.sidingReturn d sd n own other) s = s.to (s.hw.sidingReturn d sd n own other) :=
  s.run_live (fun h => h.sidingReturn d sd n own other) on

theorem exec_returnTimeout (sd : Nat) : exec (.returnTimeout d sd t) s = s.to (s.hw.returnTimeout d sd t) :=
  s.run_live (fun h => h.returnTimeout d sd t) on

theorem exec_calStep (sd : Nat) (outs : List (Int × Int × Int)) (ovl : Bool) : exec (.calStep d sd outs ovl) s = s.to (s.hw.calStep d sd outs ovl) :=
  s.run_live (fun h => h.calStep d sd outs ovl) on

theorem exec_storeDue : exec (.storeDue d t) s = s.to (s.hw.storeDue d t) := s.run_live (fun h => h.storeDue d t) on

theorem exec_nvmPageDone (ok : Bool) : exec (.nvmPageDone d ok) s = s.to (s.hw.nvmPageDone d ok) := s.run_live (fun h => h.nvmPageDone d ok) on

end

/-! ### A visit of the rota (R310) -/

/-- The siding that the rota's first visit takes on die `d`. -/
def Hw.rotaFirstSid (h : Hw) (d : Nat) : Nat := h.sidFor d (unitAt d ((h.rotaList d).headD 0)) (1 - (h.die d).rotaSid % 2)

section
variable {h : Hw} {d t : Nat}

/-- The first visit of a rota that has made none is due at once, on the first of its channels. -/
theorem Hw.rotaVisit_first (up : h.dieUp d = true) (en : h.flag CAL_ROTA_CFG_EN d = true) (never : (h.die d).rotaAt = none)
    (first : (h.die d).rotaCh = none) (ht : h.now ≤ t) (some_ : h.rotaList d ≠ []) (free : (h.visit (d * 2 + h.rotaFirstSid d)).phase = 0) :
    h.rotaVisit d t =
      (({ h with now := t }).modD d (fun x => { x with rotaCh := some ((h.rotaList d).headD 0), rotaAt := some t, rotaSid := h.rotaFirstSid d })).visStart
        d (h.rotaFirstSid d) (unitAt d ((h.rotaList d).headD 0)) false := by
  have chosen : (h.rotaList d).isEmpty = false := List.isEmpty_eq_false_iff.mpr some_
  have due : decide (t < h.now) = false := decide_eq_false (Nat.not_lt.mpr ht)
  simp only [Hw.rotaVisit, up, en, never, first, chosen, due, Bool.not_true, Bool.or_false, Bool.false_eq_true, if_false]
  exact if_neg fun engaged => engaged free

end

/-! ### The siding's token and the takeover (R292, R298, R299, R307) -/

/-- A visit whose shadow begins at `t`. -/
def VisitS.shadowing (v : VisitS) (t : Nat) : VisitS := { v with phase := 3, taken := true, at_ := t, periods := 0, diffs := [], tolBad := false }

section
variable {h : Hw} {d sd k t : Nat}

theorem Hw.sidTokenTimeout_fails (waits : (h.visit (d * 2 + sd % 2)).phase = 2)
    (free : h.holds (visTok (d * 2 + sd % 2)) (visWho (d * 2 + sd % 2)) = false) (late : (h.visit (d * 2 + sd % 2)).at_ + t1s ≤ t) (ht : h.now ≤ t) :
    h.sidTokenTimeout d sd t = ({ h with now := t }).visFail (d * 2 + sd % 2) 1 6 :=
  if_pos ⟨waits, by rw [free]; rfl, late, ht⟩

section
variable (waits : h.visIn d sd 2 = some k) (channel : isSiding (h.visit k).u = false) (held : h.holds (visTok k) (visWho k) = true)
include waits channel held

/-- With the siding's token held, a channel's takeover by whether the channel can be taken over and whether its range changes. -/
theorem Hw.takeoverStart_held :
    h.takeoverStart d sd =
      (let u := (h.visit k).u
       if !(h.st u == stOPEN || h.st u == stCLOSED) || (h.servedBy u).isSome || (h.unit u).shadow.isSome then h.visFail k 1 5
       else if h.rngBusy u then h
       else (((h.modVis k (fun v => v.shadowing h.now)).put CAL_SID_PHASE d 1 (visSid k)).put CAL_SID_CH d (chanOf u) (visSid k)).modU u
         (fun x => { x with shadow := some k })) := by
  simp only [Hw.takeoverStart, waits, channel, held, Bool.not_true, Bool.false_eq_true, if_false]
  rfl

theorem Hw.takeoverStart_shadow (connected : h.st (h.visit k).u = stOPEN ∨ h.st (h.visit k).u = stCLOSED)
    (unserved : h.servedBy (h.visit k).u = none) (clear : (h.unit (h.visit k).u).shadow = none) (still : h.rngBusy (h.visit k).u = false) :
    h.takeoverStart d sd =
      (((h.modVis k (fun v => v.shadowing h.now)).put CAL_SID_PHASE d 1 (visSid k)).put CAL_SID_CH d (chanOf (h.visit k).u) (visSid k)).modU
        (h.visit k).u (fun x => { x with shadow := some k }) := by
  have fit : (!(h.st (h.visit k).u == stOPEN || h.st (h.visit k).u == stCLOSED) || (h.servedBy (h.visit k).u).isSome ||
      (h.unit (h.visit k).u).shadow.isSome) = false := by
    rcases connected with st | st <;> rw [st, unserved, clear] <;> rfl
  rw [Hw.takeoverStart_held waits channel held]
  exact (if_neg (ne_true_of_eq_false fit)).trans (if_neg (ne_true_of_eq_false still))

theorem Hw.takeoverStart_fails
    (lost : (h.st (h.visit k).u ≠ stOPEN ∧ h.st (h.visit k).u ≠ stCLOSED) ∨ h.servedBy (h.visit k).u ≠ none ∨
      (h.unit (h.visit k).u).shadow ≠ none) :
    h.takeoverStart d sd = h.visFail k 1 5 := by
  rw [Hw.takeoverStart_held waits channel held]
  refine if_pos ?_
  simpa only [Bool.or_eq_true, Bool.not_eq_true', Bool.or_eq_false_iff, beq_eq_false_iff_ne, Option.isSome_iff_ne_none, or_assoc] using lost

end

theorem Hw.takeoverTimeout_fails (shadows : h.visIn d sd 3 = some k) (late : (h.visit k).at_ + h.get CAL_TKO_WAIT d * t1s ≤ t) (ht : h.now ≤ t) :
    h.takeoverTimeout d sd t = ({ h with now := t }).visFail k 1 (if (h.visit k).tolBad then 9 else 11) := by
  simp only [Hw.takeoverTimeout, shadows]
  exact if_pos ⟨late, ht⟩

end

/-! ### The handover and the return (R300, R301, R311) -/

section
variable {h : Hw} {d sd k n t : Nat} {own other : Sample}

/-- An action before tick `n` of a unit acts on what the tick before left to do done. -/
theorem Hw.preTick_due {u : Nat} (due : h.tickOk u n = true) (f : Hw → Hw) : h.preTick u n f = (f (h.finishTick u)).tkoReactAll u := if_pos due

theorem Hw.handover_passes (shadows : h.visIn d sd 3 = some k) (due : h.tickOk (h.headOf (h.visit k).u) n = true)
    (still : (h.finishTick (h.headOf (h.visit k).u)).rngBusy (h.visit k).u = false)
    (agreed : let u := (h.visit k).u
      let g := h.finishTick (h.headOf u)
      ((g.visit k).force = true ∧ g.st u = stOPEN) ∨
        ((g.visit k).force = false ∧ (g.st u = stOPEN ∨ g.st u = stCLOSED) ∧ g.tkoOk k n own other = true)) :
    h.handover d sd n own other = ((h.finishTick (h.headOf (h.visit k).u)).handOver k n).tkoReactAll (h.headOf (h.visit k).u) := by
  simp only [Hw.handover, shadows, Hw.preTick_due due]
  refine congrArg (fun g => Hw.tkoReactAll g _) (if_pos ?_)
  obtain ⟨forced, open_⟩ | ⟨unforced, connected, within⟩ := agreed
  · simp [still, forced, open_]
  · simp [still, unforced, connected, within]

theorem Hw.sidingReturn_returns (returns : h.visIn d sd 6 = some k) (due : h.tickOk (h.headOf (h.visit k).u) n = true)
    (sided : let g := h.finishTick (h.headOf (h.visit k).u)
      g.st (g.visit k).u = stSIDED)
    (within : (h.finishTick (h.headOf (h.visit k).u)).tkoOk k n own other = true) :
    h.sidingReturn d sd n own other = ((h.finishTick (h.headOf (h.visit k).u)).sidReturn k n).tkoReactAll (h.headOf (h.visit k).u) := by
  simp only [Hw.sidingReturn, returns, Hw.preTick_due due]
  exact congrArg (fun g => Hw.tkoReactAll g _) (if_pos (by simp [sided, within]))

/-- A stand-in, which has no outcome to tell, starts its return again. -/
theorem Hw.returnTimeout_restarts (returns : h.visIn d sd 6 = some k) (bad : (h.visit k).tolBad = true) (standin : (h.visit k).kind ≠ 0)
    (late : (h.visit k).at_ + h.get CAL_TKO_WAIT d * t1s ≤ t) (ht : h.now ≤ t) :
    h.returnTimeout d sd t = (({ h with now := t }).modVis k (fun v => { v with words := [], ok := false })).startReturn k := by
  simp only [Hw.returnTimeout, returns, if_pos (And.intro bad (And.intro late ht)), if_neg standin]

end

/-! ### Steps (R304, R312) -/

/-- A visit whose step `key` gave `val`, with the steps `r` to come. -/
def VisitS.measured (v : VisitS) (r : List (Nat × Nat)) (key : Nat × Nat) (val : Int × Int × Int) : VisitS :=
  { v with steps := r, stepAt := none, got := tset v.got key val }

/-- The means of a step's outputs, converter by converter. -/
def stepMeans (outs : List (Int × Int × Int)) : Int × Int × Int :=
  (meanOf (outs.map (fun x => x.1)), meanOf (outs.map (fun x => x.2.1)), meanOf (outs.map (fun x => x.2.2)))

/-- The instant at which the running step of a visit is complete. -/
def Hw.stepEnd (h : Hw) (k : Nat) : Nat := max h.now ((h.visit k).stepAt.getD h.now + 4915200)

/-- A step of the voltage standard that is not the last: its means are kept, and the bus is asked for again. -/
theorem Hw.calStep_standard {h : Hw} {d sd i : Nat} {r : List (Nat × Nat)} {outs : List (Int × Int × Int)}
    (step : (h.visit (d * 2 + sd % 2)).steps = (8, i) :: r) (more : r ≠ []) (steps : (h.visit (d * 2 + sd % 2)).phase = 5)
    (held : h.holds (.cal d) (visSid (d * 2 + sd % 2)) = true) (all : outs.length = 16) :
    h.calStep d sd outs false =
      ((((({ h with now := h.stepEnd (d * 2 + sd % 2) }).tokRel (.cal d) (visSid (d * 2 + sd % 2))).modVis (d * 2 + sd % 2)
        (fun v => v.measured r (8, i) (stepMeans outs))).calBus (d * 2 + sd % 2)).calBusGrant d) := by
  have left : r.isEmpty = false := List.isEmpty_eq_false_iff.mpr more
  have ready : ¬ ((h.visit (d * 2 + sd % 2)).phase ≠ 5 ∨ (!h.holds (.cal d) (visSid (d * 2 + sd % 2))) = true ∨ outs.length ≠ 16) := by
    simp [steps, held, all]
  simp only [Hw.calStep, step, if_neg ready, left, Bool.false_eq_true, if_false, if_true]
  rfl

/-! ### The store of calibration and its pages (R35, R315, R316) -/

section
variable {h : Hw} {d t : Nat} {ok : Bool}

theorem Hw.storeDue_begins (up : h.dieUp d = true) (hours : h.get CAL_STORE_CFG_HOURS d ≠ 0) (ht : h.now ≤ t)
    (due : (h.die d).storedAt + h.get CAL_STORE_CFG_HOURS d * tHour ≤ t) (resting : h.flag CAL_NVM_STAT_STORING d = false) :
    h.storeDue d t = ({ h with now := t }).storeBegin d (({ h with now := t }).storeSlot d) false :=
  if_pos (by simp [up, hours, ht, due, resting])

theorem Hw.storeDue_never (never : h.get CAL_STORE_CFG_HOURS d = 0) : h.storeDue d t = h :=
  if_neg (by simp [never])

theorem Hw.nvmPageDone_free (free : (h.arb (.nvm d)).hold = []) : h.nvmPageDone d ok = h := by simp only [Hw.nvmPageDone, free]

/-- A page program goes by the number under which the token's holder asked for it. -/
theorem Hw.nvmPageDone_held {q : Req} {r : List Req} (held : (h.arb (.nvm d)).hold = q :: r) :
    h.nvmPageDone d ok =
      if q.who = 1 then h.ceilPage d else if q.who = 2 then h.storePage d ok
      else if q.who = 3 ∧ d = h.logDie then h.auditWrite else h.tokRel (.nvm d) q.who := by
  simp only [Hw.nvmPageDone, held]

end

/-- Settles O43: a visit phase by phase, by its token, its channel and the agreement of the converters, a store by its hours, and a page
program by the token's holder. -/
theorem visitsAndStoresGoThroughTheirPhases : Obligations.VisitsAndStoresGoThroughTheirPhases := by
  refine ⟨fun s d sd k t n own other on => ⟨fun up en never first ht some_ free => ?rota, fun waits free late ht => ?noToken,
      fun waits channel held connected unserved clear still => ?shadow, fun waits channel held lost => ?refused,
      fun shadows due still agreed => ?handover, fun shadows late ht => ?abandoned, fun returns due sided within => ?returned,
      fun returns bad standin late ht => ?again, fun outs i r step more steps held all => ?step⟩,
    fun s d t ok q r on => ⟨fun up hours ht due resting => ?stores, fun never => ?never, fun held who => ?ceiling, fun held who => ?store,
      fun held who log => ?audit, fun free => ?free⟩⟩
  case rota => exact (exec_rotaVisit on d t).trans (congrArg s.to (Hw.rotaVisit_first up en never first ht some_ free))
  case noToken => rw [exec_sidingTokenTimeout on, Hw.sidTokenTimeout_fails waits free late ht]
  case shadow =>
    rw [exec_takeoverStart on, Hw.takeoverStart_shadow waits channel held connected unserved clear still]
    rfl
  case refused => rw [exec_takeoverStart on, Hw.takeoverStart_fails waits channel held lost]
  case handover => rw [exec_handover on, Hw.handover_passes shadows due still agreed]
  case abandoned => rw [exec_takeoverTimeout on, Hw.takeoverTimeout_fails shadows late ht]
  case returned => rw [exec_sidingReturn on, Hw.sidingReturn_returns returns due sided within]
  case again => rw [exec_returnTimeout on, Hw.returnTimeout_restarts returns bad standin late ht]
  case step => exact (exec_calStep on d sd outs false).trans (congrArg s.to (Hw.calStep_standard step more steps held all))
  case stores => rw [exec_storeDue on, Hw.storeDue_begins up hours ht due resting]
  case never => rw [exec_storeDue on, Hw.storeDue_never never]
  case ceiling => rw [exec_nvmPageDone on, Hw.nvmPageDone_held held, if_pos who]
  case store => rw [exec_nvmPageDone on, Hw.nvmPageDone_held held, if_neg (by omega), if_pos who]
  case audit => rw [exec_nvmPageDone on, Hw.nvmPageDone_held held, if_neg (by omega), if_neg (by omega), if_pos ⟨who, log⟩]
  case free => rw [exec_nvmPageDone on, Hw.nvmPageDone_free free]

end Sys2Proof.Machine
end

section
/-! The inputs of the panel: when a level of the lid, a key, ABORT or a fixture counts, and what it does then (R322 to R325). -/

namespace Sys2Proof.Machine

/-! ### The commands of the panel -/

section
variable {s : State} (on : s.on) (k t : Nat)
include on

theorem exec_ilkOpening (i0 i1 both : Bool) : exec (.ilkOpening t i0 i1 both) s = s.to (s.hw.ilkOpening t i0 i1 both) :=
  s.run_live (fun h => h.ilkOpening t i0 i1 both) on

theorem exec_ilkClosing : exec (.ilkClosing t) s = s.to (s.hw.ilkClosing t).enterRun := s.run_live (fun h => (h.ilkClosing t).enterRun) on

theorem exec_ilkDiscrepancy (i0 : Bool) : exec (.ilkDiscrepancy t i0) s = s.to (s.hw.ilkDiscrepancy t i0) :=
  s.run_live (fun h => h.ilkDiscrepancy t i0) on

theorem exec_keyPress : exec (.keyPress k t) s = s.to (s.hw.keyPress k t) := s.run_live (fun h => h.keyPress k t) on

theorem exec_keyRelease : exec (.keyRelease k t) s = s.to (s.hw.keyRelease k t) := s.run_live (fun h => h.keyRelease k t) on

theorem exec_abortPress : exec (.abortPress t) s = s.to (s.hw.abortPress t) := s.run_live (fun h => h.abortPress t) on

theorem exec_abortRelease : exec (.abortRelease t) s = s.to (s.hw.abortRelease t) := s.run_live (fun h => h.abortRelease t) on

theorem exec_fixAbsent : exec (.fixAbsent k t) s = s.to (s.hw.fixAbsent k t) := s.run_live (fun h => h.fixAbsent k t) on

theorem exec_fixPresent : exec (.fixPresent k t) s = s.to (s.hw.fixPresent k t) := s.run_live (fun h => h.fixPresent k t) on

end

/-! ### The lid (R322, R323, R332) -/

/-- The lid seen open at both inputs at instant `t`, which ends a discrepancy (R322). -/
def Hw.lidOpened (h : Hw) (t : Nat) : Hw := ({ h with discLock := false }.lidRead t false false).put STN_PANEL_ILK_OK 0 0

/-- ILK_OPEN asserted and counted. -/
def Hw.ilkCounted (h : Hw) : Hw := (h.ilkLine true).incSat STN_ILK_CNT_OPENS 0

/-- T_SAFE started at instant `t` on every die whose Interlocking is live (R335). -/
def Hw.ilkTimed (h : Hw) (t : Nat) : Hw := h.each h.liveDies (fun h d => h.modD d (fun x => { x with ilkBack := some (t + h.tSafe d) }))

section
variable {h : Hw} {t : Nat} {i0 i1 both : Bool}

/-- An opening that both inputs have held, by whether the line stands already. -/
theorem Hw.ilkOpening_both (ht : h.now ≤ t) (sensed : h.sensed = true) (held0 : h.lid.open0 + t10us ≤ t) (held1 : h.lid.open1 + t10us ≤ t) :
    h.ilkOpening t false false true =
      if (h.lidOpened t).headLine (fun x => x.ilkA) then h.lidOpened t
      else ((h.lidOpened t).ilkCounted.ilkTimed t).causeAll 1 t (fun _ => true) := by
  have due : decide (t < h.now) = false := decide_eq_false (Nat.not_lt.mpr ht)
  have together : max h.lid.open0 h.lid.open1 + t10us ≤ t := by omega
  simp only [Hw.ilkOpening, due, sensed, held0, together, decide_true, Bool.not_true, Bool.not_false, Bool.and_true, Bool.true_or, Bool.or_false,
    Bool.and_false, Bool.false_eq_true, if_false]
  rfl

theorem Hw.ilkOpening_soon (soon0 : t < h.lid.open0 + t10us) (soon1 : t < h.lid.open1 + t10us) : h.ilkOpening t i0 i1 both = h :=
  if_pos (by simp [soon0, soon1])

theorem Hw.ilkOpening_closed : h.ilkOpening t true true both = h := if_pos (by simp)

/-- A closing that both inputs have held: the line falls, but not after a discrepancy. -/
theorem Hw.ilkClosing_held (ht : h.now ≤ t) (sensed : h.sensed = true) (held0 : h.lid.shut0 + 50 * t1ms ≤ t) (held1 : h.lid.shut1 + 50 * t1ms ≤ t) :
    h.ilkClosing t =
      if h.discLock then h.lidRead t true true else ((h.lidRead t true true).put STN_PANEL_ILK_OK 0 1).ilkLine false :=
  if_neg (by rw [sensed, Bool.not_true]; simp only [Bool.false_eq_true, or_false]; omega)

theorem Hw.ilkClosing_soon (soon : t < h.lid.shut0 + 50 * t1ms ∨ t < h.lid.shut1 + 50 * t1ms) : h.ilkClosing t = h := if_pos (.inl (by omega))

theorem Hw.ilkDiscrepancy_held (ht : h.now ≤ t) (sensed : h.sensed = true) (held : h.lid.apart + 100 * t1ms ≤ t) :
    h.ilkDiscrepancy t i0 = ({ h with discLock := true }.lidRead t i0 (!i0)).put STN_PANEL_DISC 0 1 :=
  if_neg (by rw [sensed, Bool.not_true]; simp only [Bool.false_eq_true, or_false]; omega)

theorem Hw.ilkDiscrepancy_soon (soon : t < h.lid.apart + 100 * t1ms) : h.ilkDiscrepancy t i0 = h := if_pos (.inl (by omega))

end

/-! ### Debounce (R324) -/

theorem Hw.debounce_range (h : Hw) : 5 * t1ms ≤ h.debounce ∧ h.debounce ≤ 50 * t1ms :=
  ⟨Nat.mul_le_mul_right _ (Nat.le_max_left 5 _), Nat.mul_le_mul_right _ (by omega)⟩

theorem Hw.debounce_within {h : Hw} (least : 5 ≤ h.get STN_KEY_CFG_DEB 0) (most : h.get STN_KEY_CFG_DEB 0 ≤ 50) :
    h.debounce = h.get STN_KEY_CFG_DEB 0 * t1ms := by
  rw [Hw.debounce, Nat.min_eq_right most, Nat.max_eq_right least]

section
variable {h : Hw} {p t : Nat}

theorem Hw.qualified_held (ht : h.now ≤ t) (sensed : h.sensed = true) (held : tget h.keyAt p 0 + h.debounce ≤ t) : h.qualified p t = true := by
  simp only [Hw.qualified, ht, held, sensed, decide_true, Bool.and_self]

theorem Hw.qualified_soon (soon : t < tget h.keyAt p 0 + h.debounce) : h.qualified p t = false := by
  simp only [Hw.qualified, decide_eq_false (Nat.not_le.mpr soon), Bool.and_false, Bool.false_and]

end

/-! ### Keys, ABORT and fixtures (R324, R325, R332) -/

/-- The ABORT line asserted by a press at instant `t`, shown and counted. -/
def Hw.abortCounted (h : Hw) (t : Nat) : Hw := (((h.pinMark 1 t).put STN_PANEL_ABORT 0 1).incSat STN_ILK_CNT_ABORTS 0).abortLine true

/-- T_SAFE started by ABORT at instant `t` on every die whose Interlocking is live (R335). -/
def Hw.abortTimed (h : Hw) (t : Nat) : Hw := h.each h.liveDies (fun h d => h.modD d (fun x => { x with abortBack := some (t + h.tSafe d) }))

section
variable {h : Hw} {k t : Nat}

/-! A level that is not qualified does nothing. -/

theorem Hw.keyPress_unqualified (soon : h.qualified (keyPin k) t = false) : h.keyPress k t = h := if_pos (.inr (.inr (by rw [soon]; rfl)))

theorem Hw.keyRelease_unqualified (soon : h.qualified (keyPin k) t = false) : h.keyRelease k t = h := if_pos (.inr (.inr (by rw [soon]; rfl)))

theorem Hw.abortPress_unqualified (soon : h.qualified 1 t = false) : h.abortPress t = h := if_pos (.inr (by rw [soon]; rfl))

theorem Hw.abortRelease_unqualified (soon : h.qualified 1 t = false) : h.abortRelease t = h := if_pos (.inr (by rw [soon]; rfl))

theorem Hw.fixAbsent_unqualified (soon : h.qualified (8 + k) t = false) : h.fixAbsent k t = h := if_pos (.inr (.inr (by rw [soon]; rfl)))

theorem Hw.fixPresent_unqualified (soon : h.qualified (8 + k) t = false) : h.fixPresent k t = h := if_pos (.inr (.inr (by rw [soon]; rfl)))

/-! A qualified change of the level. -/

theorem Hw.keyPress_qualified (hk : k < 5) (up : h.keyDown k = false) (held : h.qualified (keyPin k) t = true) :
    h.keyPress k t = ((h.pinMark (keyPin k) t).keyShow k true).keyEvent (keyPin k) t :=
  if_neg (by simp [Nat.le_of_lt_succ hk, up, held])

theorem Hw.keyRelease_qualified (hk : k < 5) (down : h.keyDown k = true) (held : h.qualified (keyPin k) t = true) :
    h.keyRelease k t = (h.pinMark (keyPin k) t).keyShow k false :=
  if_neg (by simp [Nat.le_of_lt_succ hk, down, held])

theorem Hw.abortPress_qualified (up : h.flag STN_PANEL_ABORT 0 = false) (held : h.qualified 1 t = true) :
    h.abortPress t = (((h.abortCounted t).abortTimed t).causeAll 2 t (fun _ => true)).keyEvent 1 t :=
  if_neg (by simp [up, held])

theorem Hw.abortRelease_qualified (down : h.flag STN_PANEL_ABORT 0 = true) (held : h.qualified 1 t = true) :
    h.abortRelease t = ((h.pinMark 1 t).put STN_PANEL_ABORT 0 0).abortLine false :=
  if_neg (by simp [down, held])

theorem Hw.fixAbsent_qualified (hk : k < 8) (present : bit (h.get STN_PANEL_FIX 0) k = true) (held : h.qualified (8 + k) t = true) :
    h.fixAbsent k t =
      (let f := (h.pinMark (8 + k) t).put STN_PANEL_FIX 0 (clrBit (h.get STN_PANEL_FIX 0) k)
       f.causeAll 3 t (fun u => (f.tree u).any (fun m => bit (f.get U_ILK_CFG_FIXMASK m) k))) :=
  if_neg (by simp [Nat.le_of_lt_succ hk, present, held])

theorem Hw.fixPresent_qualified (hk : k < 8) (absent : bit (h.get STN_PANEL_FIX 0) k = false) (held : h.qualified (8 + k) t = true) :
    h.fixPresent k t = (h.pinMark (8 + k) t).put STN_PANEL_FIX 0 (setBit (h.get STN_PANEL_FIX 0) k) :=
  if_neg (by simp [Nat.le_of_lt_succ hk, absent, held])

end

/-- Settles O44, input by input: what a level does that has held for its time, and that one which has not does nothing. -/
theorem panelInputsAct : Obligations.PanelInputsAct := by
  refine fun s t k j i0 i1 both on ht hk hj sensed =>
    ⟨fun held0 held1 => ⟨fun released => ?opens, fun asserted => ?stands⟩, fun soon0 soon1 => ?openedSoon, ?notOpened,
      fun held0 held1 => ⟨fun agreed => ?closes, fun locked => ?staysOpen⟩, fun soon => ?closedSoon,
      fun held => ?disagrees, fun soon => ?disagreedSoon, ⟨s.hw.debounce_range.1, s.hw.debounce_range.2, Hw.debounce_within⟩,
      fun held => ⟨fun up => ?pressed, fun down => ?released⟩, fun soon => ⟨?pressedSoon, ?releasedSoon⟩,
      fun held => ⟨fun up => ?abort, fun down => ?abortEnds⟩, fun soon => ⟨?abortSoon, ?abortEndsSoon⟩,
      fun held => ⟨fun present => ?leaves, fun absent => ?comes⟩, fun soon => ⟨?leavesSoon, ?comesSoon⟩⟩
  case opens =>
    rw [exec_ilkOpening on, Hw.ilkOpening_both ht sensed held0 held1]
    exact congrArg s.to (if_neg (ne_true_of_eq_false released))
  case stands =>
    rw [exec_ilkOpening on, Hw.ilkOpening_both ht sensed held0 held1]
    exact congrArg s.to (if_pos asserted)
  case openedSoon => rw [exec_ilkOpening on, Hw.ilkOpening_soon soon0 soon1]
  case notOpened => rw [exec_ilkOpening on, Hw.ilkOpening_closed]
  case closes => rw [exec_ilkClosing on, Hw.ilkClosing_held ht sensed held0 held1, if_neg (ne_true_of_eq_false agreed)]
  case staysOpen => rw [exec_ilkClosing on, Hw.ilkClosing_held ht sensed held0 held1, if_pos locked]
  case closedSoon => rw [exec_ilkClosing on, Hw.ilkClosing_soon soon]
  case disagrees => rw [exec_ilkDiscrepancy on, Hw.ilkDiscrepancy_held ht sensed held]
  case disagreedSoon => rw [exec_ilkDiscrepancy on, Hw.ilkDiscrepancy_soon soon]
  case pressed => rw [exec_keyPress on, Hw.keyPress_qualified hk up (Hw.qualified_held ht sensed held)]
  case released => rw [exec_keyRelease on, Hw.keyRelease_qualified hk down (Hw.qualified_held ht sensed held)]
  case pressedSoon => rw [exec_keyPress on, Hw.keyPress_unqualified (Hw.qualified_soon soon)]
  case releasedSoon => rw [exec_keyRelease on, Hw.keyRelease_unqualified (Hw.qualified_soon soon)]
  case abort =>
    rw [exec_abortPress on, Hw.abortPress_qualified up (Hw.qualified_held ht sensed held)]
    rfl
  case abortEnds => rw [exec_abortRelease on, Hw.abortRelease_qualified down (Hw.qualified_held ht sensed held)]
  case abortSoon => rw [exec_abortPress on, Hw.abortPress_unqualified (Hw.qualified_soon soon)]
  case abortEndsSoon => rw [exec_abortRelease on, Hw.abortRelease_unqualified (Hw.qualified_soon soon)]
  case leaves => rw [exec_fixAbsent on, Hw.fixAbsent_qualified hj present (Hw.qualified_held ht sensed held)]
  case comes => rw [exec_fixPresent on, Hw.fixPresent_qualified hj absent (Hw.qualified_held ht sensed held)]
  case leavesSoon => rw [exec_fixAbsent on, Hw.fixAbsent_unqualified (Hw.qualified_soon soon)]
  case comesSoon => rw [exec_fixPresent on, Hw.fixPresent_unqualified (Hw.qualified_soon soon)]

end Sys2Proof.Machine
end

section
/-! The backstop and T_SAFE (R335, R336), and the rows of connecting and isolating that belong to a unit's tick (R328 to R333). -/

namespace Sys2Proof.Machine

/-! ### The backstop (R335) -/

theorem exec_isoBackstop {s : State} (on : s.on) (d t : Nat) : exec (.isoBackstop d t) s = s.to (s.hw.isoBackstop d t) :=
  s.run_live (fun h => h.isoBackstop d t) on

section
variable {h : Hw} {d t : Nat}

/-- At T_SAFE after ILK_OPEN, with the line still asserted, an ISO_N that had been released is asserted, and BACKSTOP shows it. -/
theorem Hw.isoBackstop_acts (ht : h.now ≤ t) (due : (h.die d).ilkBack = some t) (asserted : h.flag ILK_STAT_ILK_OPEN d = true)
    (released : h.flag ILK_STAT_ISO_REL d = true) : h.isoBackstop d t = (({ h with now := t }).isoAssert d).put ILK_STAT_BACKSTOP d 1 := by
  have late : ({ h with now := t } : Hw).flag ILK_STAT_ISO_REL d = true := released
  simp only [Hw.isoBackstop, due, asserted, ht, late, beq_self_eq_true, Bool.true_or, Bool.and_self, decide_true, if_true]

theorem Hw.isoBackstop_never (ilk : (h.die d).ilkBack ≠ some t) (abort : (h.die d).abortBack ≠ some t) : h.isoBackstop d t = h :=
  if_neg (by simp [ilk, abort])

end

/-- ISO_N asserted by the backstop reads as asserted, and BACKSTOP shows it. -/
theorem Hw.flags_of_backstop (h : Hw) (d : Nat) :
    ((h.isoAssert d).put ILK_STAT_BACKSTOP d 1).flag ILK_STAT_ISO_REL d = false ∧
      ((h.isoAssert d).put ILK_STAT_BACKSTOP d 1).flag ILK_STAT_BACKSTOP d = true := by
  constructor
  · rw [Hw.flag, Hw.get_put_pos _ d 1 d (by decide), Hw.get_isoAssert, Hw.get_put_self]
    rfl
  · rw [Hw.flag, Hw.get_put_self]
    rfl

/-! ### T_SAFE (R336) -/

section
variable (h : Hw) (d : Nat)

theorem Hw.tSafe_range : 24576 ≤ h.tSafe d ∧ h.tSafe d ≤ 100 * 24576 := by
  rw [Hw.tSafe]
  omega

variable {h d}

theorem Hw.tSafe_zero (zero : h.get ILK_CFG_TSAFE d = 0) : h.tSafe d = 24576 := by rw [Hw.tSafe, zero]; rfl

theorem Hw.tSafe_above (above : 100 < h.get ILK_CFG_TSAFE d) : h.tSafe d = 100 * 24576 := by
  rw [Hw.tSafe, Nat.min_eq_left (Nat.le_of_lt above)]
  rfl

theorem Hw.tSafe_within (least : 1 ≤ h.get ILK_CFG_TSAFE d) (most : h.get ILK_CFG_TSAFE d ≤ 100) : h.tSafe d = h.get ILK_CFG_TSAFE d * 24576 := by
  rw [Hw.tSafe, Nat.min_eq_right most, Nat.max_eq_right least]

end

/-- Settles O45: the backstop by the instant that its die waits for, and T_SAFE by the value of TSAFE. -/
theorem backstopIsolatesAtTSafe : Obligations.BackstopIsolatesAtTSafe := by
  refine ⟨fun s d t on ht => ⟨fun due asserted released => ⟨?acts, Hw.flags_of_backstop { s.hw with now := t } d⟩, fun ilk abort => ?never⟩,
    fun h d => ⟨(h.tSafe_range d).1, (h.tSafe_range d).2, Hw.tSafe_zero, Hw.tSafe_above, Hw.tSafe_within⟩⟩
  case acts =>
    rw [exec_isoBackstop on, Hw.isoBackstop_acts ht due asserted released]
    rfl
  case never => rw [exec_isoBackstop on, Hw.isoBackstop_never ilk abort]

/-! ### Rows before a unit's tick (R328, R332, R333) -/

section
variable {s : State} {u n : Nat} (on : s.on) (ended : (s.hw.unit u).tail = false)
include on ended

section
variable (due : s.hw.tickOk u n = true)
include due

/-- A row before a tick of a unit whose tick before has ended. -/
theorem State.run_preTick (f : Hw → Hw) : s.run (fun h => h.preTick u n f) = s.to ((f s.hw).tkoReactAll u) := by
  rw [State.run_live s _ on, Hw.preTick_due due, Hw.finishTick_of_done ended]
  rfl

theorem exec_checkLatchRequest :
    exec (.checkLatchRequest u n) s = s.to ((if s.hw.chkLatchDue u n then s.hw.chkLatchReq u n else s.hw).tkoReactAll u) :=
  State.run_preTick on ended due _

theorem exec_checkSettled :
    exec (.checkSettled u n) s = s.to ((if s.hw.chkSettledDue u n then s.hw.chkSettled u n else s.hw).tkoReactAll u) :=
  State.run_preTick on ended due _

theorem exec_unitSafing : exec (.unitSafing u n) s = s.to ((s.hw.unitSafing u n).tkoReactAll u) := State.run_preTick on ended due _

theorem exec_isolationComplete :
    exec (.isolationComplete u n) s =
      s.to ((if s.hw.isolationDone u n then (s.hw.isolated u n).each (s.hw.leaves u) (fun h m => h.sidIsolated m n) else s.hw).tkoReactAll u) :=
  State.run_preTick on ended due _

end

/-! ### Rows after a unit's tick (R329, R333) -/

section
variable (hu : isUnit u = true) (runs : s.hw.runs u = true) (head : s.hw.headOf u = u) (ticked : (s.hw.unit u).clk.ticked = true)
include hu runs head ticked

/-- A row after a unit's last tick, which has ended: the period's work is planned again. -/
theorem State.run_postTick (f : Hw → Hw) : s.run (fun h => h.postTick u f) = s.to (((f s.hw).plan u).tkoReactAll u) := by
  have last : (isUnit u && s.hw.runs u && s.hw.headOf u == u && (s.hw.unit u).clk.ticked) = true := by
    rw [hu, runs, head, ticked, beq_self_eq_true]
    rfl
  rw [State.run_live s _ on, Hw.postTick, if_pos last, Hw.finishTick_of_done ended]
  rfl

theorem exec_checkResult :
    exec (.checkResult u) s = s.to (((if s.hw.chkEnd u then s.hw.chkResult u else s.hw).plan u).tkoReactAll u) :=
  State.run_postTick on ended hu runs head ticked _

theorem exec_isolationRequest :
    exec (.isolationRequest u) s = s.to (((if s.hw.isolationDue u then s.hw.isolationRequest u else s.hw).plan u).tkoReactAll u) :=
  State.run_postTick on ended hu runs head ticked _

end

end

/-! ### The way to SAFING (R332) -/

section
variable {h : Hw} {u n : Nat}

theorem Hw.unitSafing_none (none_ : (h.unit u).safe.cause = none) : h.unitSafing u n = h := by
  rw [Hw.unitSafing, none_]

/-- A cause becomes due at a tick that comes at least 30 metronome ticks after it. -/
theorem Hw.unitSafing_cause {c t : Nat} (cause : (h.unit u).safe.cause = some (c, t)) :
    h.unitSafing u n =
      if t + 30 ≤ n then h.modS u (fun x => { x with cause := none, causeDl := 0, due := some (c, x.causeDl) }) else h := by
  simp only [Hw.unitSafing, cause, safingTick, decide_eq_true_eq]

theorem Hw.safingDue_some {c dl : Nat} (due : (h.unit u).safe.due = some (c, dl)) :
    h.safingDue u n = (h.modS u (fun x => { x with due := none })).isolateReq u n dl c false := by
  simp only [Hw.safingDue, due]

end

/-- Settles O46, row by row: before a tick the pattern, the check, the cause and the readback, after it the check's result and the latch. -/
theorem connectingAndIsolatingGoByTicks : Obligations.ConnectingAndIsolatingGoByTicks := by
  refine fun s u n on ended =>
    ⟨fun due => ⟨fun latch => ?pattern, fun settled => ?begins, fun c t cause reached => ?taken, fun c t cause early => ?waits,
        fun c dl => Hw.safingDue_some, fun none_ => ?untouched, fun done => ?isolated, fun undone => ?notYet⟩,
      fun hu runs head ticked => ⟨fun finished => ?result, fun unfinished => ?goesOn, fun latch => ?requested, fun notDue => ?notRequested⟩⟩
  case pattern => rw [exec_checkLatchRequest on ended due, if_pos latch]
  case begins =>
    rw [exec_checkSettled on ended due, if_pos settled]
    rfl
  case taken => rw [exec_unitSafing on ended due, Hw.unitSafing_cause cause, if_pos reached]
  case waits => rw [exec_unitSafing on ended due, Hw.unitSafing_cause cause, if_neg (Nat.not_le.mpr early)]
  case untouched => rw [exec_unitSafing on ended due, Hw.unitSafing_none none_]
  case isolated => rw [exec_isolationComplete on ended due, if_pos done]
  case notYet => rw [exec_isolationComplete on ended due, if_neg (ne_true_of_eq_false undone)]
  case result => rw [exec_checkResult on ended hu runs head ticked, if_pos finished]
  case goesOn => rw [exec_checkResult on ended hu runs head ticked, if_neg (ne_true_of_eq_false unfinished)]
  case requested => rw [exec_isolationRequest on ended hu runs head ticked, if_pos latch]
  case notRequested => rw [exec_isolationRequest on ended hu runs head ticked, if_neg (ne_true_of_eq_false notDue)]

end Sys2Proof.Machine
end

section
/-! Conversions that thermal supervision asks for, and the values of compensation (R345, R354, R355). -/

namespace Sys2Proof.Machine

/-! ### The commands -/

section
variable {s : State} (on : s.on)
include on

theorem exec_thermPass (d t : Nat) : exec (.thermPass d t) s = s.to (s.hw.thermPass d t) := s.run_live (fun h => h.thermPass d t) on

theorem exec_thermEmergency (d t : Nat) : exec (.thermEmergency d t) s = s.to (s.hw.thermEmergency d t) :=
  s.run_live (fun h => h.thermEmergency d t) on

theorem exec_compUpdate (d : Nat) : exec (.compUpdate d) s = s.to (s.hw.compUpdate d) := s.run_live (fun h => h.compUpdate d) on

theorem exec_oscCompApply (t : Nat) : exec (.oscCompApply t) s = s.to (s.hw.oscApply t) := s.run_live (fun h => h.oscApply t) on

end

/-- The write of TH_CMD that asks for a conversion has GO set and the sensor in SENSOR. -/
theorem Hw.dieWrite_thCmd (h : Hw) (d : Nat) {k : Nat} (hk : k < 16) : h.dieWrite d 0x60010 (k % 16 + 16) = h.thConvert d k := by
  have go : bit (k % 16 + 16) 4 = true := by simp only [bit, beq_iff_eq]; omega
  have sensor : bits (k % 16 + 16) 3 0 = k := by simp only [bits]; omega
  have command (v : Nat) : h.dieWrite d 0x60010 v =
    if bit v 4 then h.thConvert d (bits v 3 0) else h.writeFields .die d 0x60010 v (fun _ => true) := rfl
  rw [command, if_pos go, sensor]

theorem exec_thConvert {s : State} {m : Master} {d k : Nat} (hs : s.hears m) (up : s.hw.dieUp d = true) (hk : k < 16) :
    exec (.thConvert m d k) s = s.wrote m (s.hw.thConvert d k) :=
  (State.run_byHost hs (fun h => h.dieUp d) (fun h => h.dieWrite d 0x60010 (k % 16 + 16)) up).trans (by rw [Hw.dieWrite_thCmd _ d hk])

/-! ### Passes (R345) -/

/-- The sensors in emergency whose conversion is neither queued nor asked for. -/
def Hw.emergencyDue (h : Hw) (d : Nat) : List Nat :=
  (h.thOn d).filter (fun n => bit (h.get TH_SUP_STAT_EMERG d) n &&
    !((h.die d).thQ.any (fun p => p.2 == n) || ((h.arb (.aux d)).hold ++ (h.arb (.aux d)).pend).any (fun q => q.who == 32 + n || q.who == 16 + n)))

section
variable {h : Hw} {d t : Nat} (up : h.dieUp d = true) (ht : h.now ≤ t)
include up ht

theorem Hw.thermPass_first (first : (h.die d).passAt = none) (idle : h.passOn d = false) (booted : 3 ≤ h.get STN_BOOT_STEP 0) :
    h.thermPass d t =
      (({ h with now := t }).modD d (fun x => { x with
        passAt := some t
        thQ := x.thQ ++ ((h.thOn d).filter (fun n => !bit (h.get TH_SUP_STAT_EMERG d) n)).map (fun n => (1, n)) })).thIssue 12 d := by
  simp only [Hw.thermPass, first]
  exact if_pos (by simp [up, idle, ht, booted])

theorem Hw.thermEmergency_first (first : (h.die d).emergAt = none) (some_ : h.emergencyDue d ≠ []) :
    h.thermEmergency d t =
      (({ h with now := t }).modD d (fun x => { x with
        emergAt := some t
        thQ := (h.emergencyDue d).map (fun n => (2, n)) ++ x.thQ })).thIssue 12 d := by
  have chosen : (h.emergencyDue d).isEmpty = false := List.isEmpty_eq_false_iff.mpr some_
  have due : (h.dieUp d && true && decide (h.now ≤ t) && !(h.emergencyDue d).isEmpty) = true := by rw [up, decide_eq_true ht, chosen]; rfl
  simp only [Hw.thermEmergency, first]
  exact if_pos due

end

/-! ### A conversion for a host (R345) -/

section
variable {h : Hw} {d k : Nat}

theorem Hw.thConvert_starts (hk : k < 12) (idle : h.flag TH_CMD_GO d = false) (used : (h.put TH_CMD_SENSOR d k).get TH_SCFG_TYPE (d * 12 + k) ≠ 0) :
    h.thConvert d k =
      (((h.put TH_CMD_SENSOR d k).put TH_CMD_GO d 1).put TH_CMD_RESULT d 0).tokReq (.aux d) { who := 3 * 16 + k, rank := 6 } := by
  simp only [Hw.thConvert, idle, Bool.not_false, Hw.cond, if_true, Bool.false_eq_true, if_false]
  exact if_neg (not_or.mpr ⟨Nat.not_lt.mpr (Nat.le_of_lt_succ hk), used⟩)

section
variable (runs : h.flag TH_CMD_GO d = true)
include runs

/-- While a conversion runs, SENSOR stands, and a GO has its result alone. -/
theorem Hw.thConvert_running :
    h.thConvert d k =
      if 11 < k ∨ h.get TH_SCFG_TYPE (d * 12 + k) = 0 then h.put TH_CMD_RESULT d 1 else h.put TH_CMD_RESULT d 2 := by
  simp only [Hw.thConvert, runs, Bool.not_true, Hw.cond, Bool.false_eq_true, if_false, if_true]

theorem Hw.thConvert_unused (unused : 11 < k ∨ h.get TH_SCFG_TYPE (d * 12 + k) = 0) : h.thConvert d k = h.put TH_CMD_RESULT d 1 :=
  (Hw.thConvert_running runs).trans (if_pos unused)

theorem Hw.thConvert_busy (hk : k < 12) (used : h.get TH_SCFG_TYPE (d * 12 + k) ≠ 0) : h.thConvert d k = h.put TH_CMD_RESULT d 2 :=
  (Hw.thConvert_running runs).trans (if_neg (not_or.mpr ⟨Nat.not_lt.mpr (Nat.le_of_lt_succ hk), used⟩))

end

end

/-! ### Compensation (R354, R355) -/

/-- The instant at which the next compensation period begins. -/
def Hw.compNext (h : Hw) (d : Nat) : Nat :=
  match (h.die d).compAt with
  | some a => max h.now (a + h.get TH_SUP_CFG_COMPP d * 100 * t1ms)
  | none => h.now

section
variable {h : Hw} {d t : Nat}

theorem Hw.compUpdate_begins (up : h.dieUp d = true) (period : h.get TH_SUP_CFG_COMPP d ≠ 0) (done : (h.die d).compW = []) :
    h.compUpdate d =
      ({ h.modD d (fun x => { x with compAt := some (h.compNext d) }) with now := h.compNext d }).each [0, 1, 2, 3] (fun h n =>
        (h.modD d (fun x => { x with compW := x.compW ++ [n] })).tokReq (.aux d) { who := 4 * 16 + n, rank := 5 }) :=
  if_pos (by simp [up, period, done])

theorem Hw.oscApply_takes {v : Int} (waits : (h.die h.bootDie).osc = some v) (boundary : t % 4096 = 0) (ht : h.now ≤ t)
    (src : h.get STN_METRO_STAT_ACT_SRC 0 = 3) :
    h.oscApply t = (({ h with now := t }).putC TH_COMP_OSC_PPB h.bootDie v).modD h.bootDie (fun x => { x with osc := none }) := by
  simp only [Hw.oscApply, waits]
  exact if_pos ⟨boundary, ht, .inl src⟩

end

/-- Settles O47, command by command: the passes, the results of TH_CMD, and the two steps of compensation. -/
theorem thermalSupervisionAsksForConversions : Obligations.ThermalSupervisionAsksForConversions := by
  refine fun s m d t k hs up ht => ⟨fun first idle booted => ?pass, fun first some_ => ?emergency, fun hk idle used => ?starts,
    fun hk runs unused => ?unused, fun hk runs used => ?busy, fun period done => ?compensates, fun v waits boundary src => ?corrects⟩
  case pass =>
    rw [exec_thermPass hs.1, Hw.thermPass_first up ht first idle booted]
    rfl
  case emergency =>
    rw [exec_thermEmergency hs.1, Hw.thermEmergency_first up ht first some_]
    rfl
  case starts => rw [exec_thConvert hs up (by omega), Hw.thConvert_starts hk idle used]
  case unused => rw [exec_thConvert hs up hk, Hw.thConvert_unused runs unused]
  case busy => rw [exec_thConvert hs up (by omega), Hw.thConvert_busy runs hk used]
  case compensates =>
    rw [exec_compUpdate hs.1, Hw.compUpdate_begins up period done]
    rfl
  case corrects => rw [exec_oscCompApply hs.1, Hw.oscApply_takes waits boundary ht src]

end Sys2Proof.Machine
end

section
/-! Flash commands, and the copy of a flash command in bursts of 256 bytes that the ring guard judges one by one (R35, R267, R364, R382). -/

namespace Sys2Proof.Machine

/-! ### The write of STN_XSPI_CMD (R364) -/

theorem Hw.stnWrite_xspi (h : Hw) {op hd : Nat} (some_ : 0 < op) (hop : op < 4) (hhd : hd < 2) :
    h.stnWrite 0x200 (op + hd % 2 * 4) = h.xspiCmd op hd := by
  have command : bits (op + hd % 2 * 4) 1 0 = op := by simp only [bits]; omega
  have head : bits (op + hd % 2 * 4) 2 2 = hd := by simp only [bits]; omega
  have word (v : Nat) : h.stnWrite 0x200 v = if bits v 1 0 = 0
    then (if h.flag STN_XSPI_CMD_BUSY 0 then h else h.writeFields .stn 0 0x200 v (fun _ => true)) else h.xspiCmd (bits v 1 0) (bits v 2 2) := rfl
  rw [word, command, head, if_neg (by omega)]

theorem exec_xspiCommand {s : State} {m : Master} {op hd : Nat} {i : Instr} (hs : s.hears m) (hhd : hd < 2)
    (cmd : (op = 1 ∧ i = .xspiRead m hd) ∨ (op = 2 ∧ i = .xspiProgram m hd) ∨ (op = 3 ∧ i = .xspiErase m hd)) :
    exec i s = s.wrote m (s.hw.xspiCmd op hd) := by
  have run (c : Nat) := State.run_byHost hs (fun _ => true) (fun h => h.stnWrite 0x200 (c + hd % 2 * 4)) rfl
  rcases cmd with ⟨rfl, rfl⟩ | ⟨rfl, rfl⟩ | ⟨rfl, rfl⟩
  · exact (run 1).trans (by rw [Hw.stnWrite_xspi _ (by decide) (by decide) hhd])
  · exact (run 2).trans (by rw [Hw.stnWrite_xspi _ (by decide) (by decide) hhd])
  · exact (run 3).trans (by rw [Hw.stnWrite_xspi _ (by decide) (by decide) hhd])

section
variable {h : Hw} {hd : Nat} (op : Nat)

theorem Hw.xspiCmd_busy (busy : h.flag STN_XSPI_CMD_BUSY 0 = true) : h.xspiCmd op hd = h.put STN_XSPI_CMD_RESULT 0 1 := by
  simp [Hw.xspiCmd, busy]

theorem Hw.xspiCmd_absent (idle : h.flag STN_XSPI_CMD_BUSY 0 = false) (absent : h.dieUp hd = false) :
    h.xspiCmd op hd = h.put STN_XSPI_CMD_RESULT 0 2 := by
  simp [Hw.xspiCmd, idle, absent]

end

/-! ### The end of an operation (R35, R364, R382) -/

theorem exec_xspiDone {s : State} (on : s.on) (ok : Bool) : exec (.xspiDone ok) s = s.to (s.hw.xspiDone ok).settle :=
  s.run_live (fun h => (h.xspiDone ok).settle) on

section
variable {h : Hw}

theorem Hw.xspiDone_none (none_ : h.boot.xspi = none) (ok : Bool) : h.xspiDone ok = h := by rw [Hw.xspiDone, none_]

theorem Hw.xspiDone_some {x : XspiS} (runs : h.boot.xspi = some x) (ok : Bool) :
    h.xspiDone ok = if x.op = 3 then h.xspiEnd x ok else h.burst x.head x.maddr twBox 6 (fun h => h.xspiEnd x ok) := by
  rw [Hw.xspiDone, runs]

/-- No operation runs any more. -/
def Hw.xspiIdle (h : Hw) : Hw := ({ h with boot := { h.boot with xspi := none } } : Hw).put STN_XSPI_CMD_BUSY 0 0

variable {x : XspiS} (read : x.op = 1)
include read

theorem Hw.xspiEnd_read :
    h.xspiEnd x true = (h.xspiIdle.put STN_XSPI_CMD_RESULT 0 0).copyBytes (flashBase x.head + x.faddr) x.maddr x.len := by
  simp only [Hw.xspiEnd, Hw.xspiIdle, read, if_true, Bool.not_true, Bool.false_eq_true, if_false]

theorem Hw.xspiEnd_read_fails : h.xspiEnd x false = h.xspiIdle.put STN_XSPI_CMD_RESULT 0 4 := by
  simp only [Hw.xspiEnd, Hw.xspiIdle, read, if_true, Bool.not_false, Bool.false_eq_true, if_false]

end

/-! ### A burst of a copy -/

/-- The bytes that a copy has read, each with its place, of burst `k`. -/
def Hw.burstBytes (h : Hw) (src n k : Nat) : List (Nat × Nat) := (((h.rdBytes src n).zipIdx).drop (256 * k)).take 256

/-- Bytes written at their places from `dst` on. -/
def Hw.wrPlaces (h : Hw) (dst : Nat) (c : List (Nat × Nat)) : Hw := h.each c (fun h p => h.wrByte (dst + p.2) p.1)

/-- The first `m` bursts of a copy, whose bytes are read in `h0`. -/
def Hw.copied (h0 : Hw) (src dst n : Nat) : Nat → Hw
  | 0 => h0
  | m + 1 => (h0.copied src dst n m).ringGuard (dst + 256 * m) (h0.burstBytes src n m).length (fun h => h.wrPlaces dst (h0.burstBytes src n m))

theorem Hw.copyBytes_eq_copied (h : Hw) (src dst n : Nat) : h.copyBytes src dst n = h.copied src dst n ((n + 255) / 256) := by
  have bursts (m : Nat) : h.each (List.range m) (fun g k => g.ringGuard (dst + 256 * k) (h.burstBytes src n k).length
      (fun g => g.wrPlaces dst (h.burstBytes src n k))) = h.copied src dst n m := by
    induction m with
    | zero => rfl
    | succ m ih =>
      rw [Hw.each, List.range_succ, List.foldl_append, ← Hw.each, ← Hw.each, ih]
      rfl
  exact bursts _

/-! ### The bytes of a burst -/

theorem Hw.rdBytes_getElem? (h : Hw) (a n i : Nat) : (h.rdBytes a n)[i]? = if i < n then some (h.byte (a + i)).toNat else none := by
  induction n generalizing a i with
  | zero => rfl
  | succ n ih =>
    cases i with
    | zero => rfl
    | succ i => simpa [Hw.rdBytes, Nat.add_assoc, Nat.add_comm 1] using ih (a + 1) i

theorem Hw.rdBytes_length (h : Hw) (a n : Nat) : (h.rdBytes a n).length = n := by
  induction n generalizing a with
  | zero => rfl
  | succ n ih => simp [Hw.rdBytes, ih]

section
variable (h : Hw) (src n k : Nat)

theorem Hw.burstBytes_length : (h.burstBytes src n k).length = min 256 (n - 256 * k) := by
  simp [Hw.burstBytes, Hw.rdBytes_length]

theorem Hw.burstBytes_getElem? (j : Nat) : (h.burstBytes src n k)[j]? =
    if j < 256 ∧ 256 * k + j < n then some ((h.byte (src + (256 * k + j))).toNat, 256 * k + j) else none := by
  rw [Hw.burstBytes, List.getElem?_take, List.getElem?_drop, List.getElem?_zipIdx, Hw.rdBytes_getElem?]
  by_cases within : j < 256 <;> by_cases inside : 256 * k + j < n <;> simp [within, inside]

/-- Burst `k` holds, with its place, each byte of the source from `256 * k` on, 256 of them or as many as are left. -/
theorem Hw.mem_burstBytes (p : Nat × Nat) :
    p ∈ h.burstBytes src n k ↔ p.1 = (h.byte (src + p.2)).toNat ∧ 256 * k ≤ p.2 ∧ p.2 < 256 * k + 256 ∧ p.2 < n := by
  obtain ⟨b, i⟩ := p
  simp only [List.mem_iff_getElem?, Hw.burstBytes_getElem?]
  constructor
  · rintro ⟨j, hj⟩
    split at hj
    next within =>
      simp only [Option.some.injEq, Prod.mk.injEq] at hj
      obtain ⟨rfl, rfl⟩ := hj
      exact ⟨rfl, by omega, by omega, by omega⟩
    next => exact absurd hj (by simp)
  · rintro ⟨rfl, least, most, inside⟩
    obtain ⟨j, rfl⟩ := Nat.exists_eq_add_of_le least
    exact ⟨j, if_pos ⟨by omega, inside⟩⟩

end

/-! ### What a burst writes -/

section
variable {h : Hw} {dst a : Nat} {c : List (Nat × Nat)}

theorem Hw.wrPlaces_eq (h : Hw) (dst : Nat) (c : List (Nat × Nat)) : h.wrPlaces dst c = { h with wrq := (h.wrPlaces dst c).wrq } :=
  Hw.each_keeps (P := fun g => g = { h with wrq := g.wrq }) rfl fun g _ hg => by rw [hg]; rfl

/-- A byte at which no byte of the list has its place stands. -/
theorem Hw.byte_wrPlaces_other (other : ∀ p ∈ c, a ≠ dst + p.2) : (h.wrPlaces dst c).byte a = h.byte a := by
  induction c generalizing h with
  | nil => rfl
  | cons p c ih =>
    have rest := ih (h := h.wrByte (dst + p.2) p.1) fun q hq => other q (List.mem_cons_of_mem p hq)
    exact rest.trans (h.byte_wrByte_ne _ _ _ (other p List.mem_cons_self))

/-- A byte written at a place, to which the list gives no other one, reads back. -/
theorem Hw.byte_wrPlaces {b i : Nat} (here : (b, i) ∈ c) (one : ∀ p ∈ c, p.2 = i → p.1 = b) :
    (h.wrPlaces dst c).byte (dst + i) = BitVec.ofNat 8 b := by
  induction c generalizing h with
  | nil => exact absurd here List.not_mem_nil
  | cons p c ih =>
    by_cases later : (b, i) ∈ c
    · exact ih later fun q hq => one q (List.mem_cons_of_mem p hq)
    · have first : p = (b, i) := ((List.mem_cons.mp here).resolve_right later).symm
      have last : ∀ q ∈ c, dst + i ≠ dst + q.2 := fun q hq same => later <| by
        have place : q.2 = i := by omega
        have value := one q (List.mem_cons_of_mem p hq) place
        rwa [← place, ← value]
      subst first
      exact (Hw.byte_wrPlaces_other last).trans (h.byte_wrByte_self _ _)

end

/-! ### The ring guard (R267) -/

/-- The fields that give the protected region of an engine's stream ring. -/
def ringFields : List Fld := [TT_SR_BASE_ADDR, TT_SR_SIZE_LOG2, TT_SR_MARK_VALUE, TT_SR_STAT_MARKED, TT_SR_RP_VALUE]

/-- `g` has the protected regions of `h`. -/
structure Hw.SameRings (h g : Hw) : Prop where
  fields : Hw.SameFields ringFields h g
  engs : g.engs = h.engs

namespace Hw.SameRings

variable {h g : Hw}

theorem refl (h : Hw) : SameRings h h := ⟨fun _ _ _ => rfl, rfl⟩

theorem ringHit (k : SameRings h g) (e a n : Nat) : g.ringHit e a n = h.ringHit e a n := by
  obtain ⟨fields, engs⟩ := k
  have base := fields TT_SR_BASE_ADDR (by decide) e
  have size := fields TT_SR_SIZE_LOG2 (by decide) e
  have mark := fields TT_SR_MARK_VALUE (by decide) e
  have marked := fields TT_SR_STAT_MARKED (by decide) e
  have rp := fields TT_SR_RP_VALUE (by decide) e
  have eng : g.eng e = h.eng e := by simp only [Hw.eng, engs]
  unfold Hw.ringHit Hw.ringMark Hw.ringSize Hw.flag
  rw [base, size, mark, marked, rp, eng]

theorem wrPlaces (k : SameRings h g) (dst : Nat) (c : List (Nat × Nat)) : SameRings h (g.wrPlaces dst c) := by
  rw [g.wrPlaces_eq dst c]
  exact ⟨k.fields, k.engs⟩

/-- A write that is dropped is counted and shown, in registers that say nothing of the ring. -/
theorem dropped (k : SameRings h g) (e : Nat) : SameRings h ((g.inc TT_SR_PDROP_COUNT e).put TT_SR_STAT_PROT e 1) :=
  ⟨(k.fields.put (f := TT_SR_PDROP_COUNT)).put, k.engs⟩

theorem ringGuard (k : SameRings h g) {a n : Nat} {f : Hw → Hw} (hf : SameRings h (f g)) : SameRings h (g.ringGuard a n f) :=
  Hw.ite_keeps hf (Hw.each_keeps k fun _ e kx => kx.dropped e)

theorem copied (h : Hw) (src dst n m : Nat) : SameRings h (h.copied src dst n m) := by
  induction m with
  | zero => exact refl h
  | succ m ih => exact ih.ringGuard (ih.wrPlaces _ _)

end Hw.SameRings

section
variable {h : Hw} {a n : Nat}

theorem Hw.ringGuard_free (free : ∀ e, e < 64 → h.ringHit e a n = false) (f : Hw → Hw) : h.ringGuard a n f = f h := by
  have none : (List.range 64).filter (fun e => h.ringHit e a n) = [] := by
    simpa [List.filter_eq_nil_iff] using free
  simp [Hw.ringGuard, none]

/-- A write that the guard stops leaves every byte. -/
theorem Hw.byte_ringGuard_stopped {e : Nat} (he : e < 64) (ddr : (ddrChan a).isSome = true) (hit : h.ringHit e a n = true) (f : Hw → Hw) (j : Nat) :
    (h.ringGuard a n f).byte j = h.byte j := by
  have some_ : ((List.range 64).filter (fun e => h.ringHit e a n)).isEmpty = false :=
    List.isEmpty_eq_false_iff_exists_mem.mpr ⟨e, List.mem_filter.mpr ⟨List.mem_range.mpr he, hit⟩⟩
  simp only [Hw.ringGuard, ddr, if_true, some_, Bool.false_eq_true, if_false]
  exact Hw.each_keeps (P := fun g => g.byte j = h.byte j) rfl fun _ _ kx => kx

/-- A byte that a write leaves stands, whatever the guard says of the write. -/
theorem Hw.byte_ringGuard {f : Hw → Hw} {j : Nat} (hf : (f h).byte j = h.byte j) : (h.ringGuard a n f).byte j = h.byte j :=
  Hw.ite_keeps (P := fun g => g.byte j = h.byte j) hf (Hw.each_keeps (P := fun g => g.byte j = h.byte j) rfl fun _ _ kx => kx)

end

/-! ### A copy, burst by burst -/

section
variable {h : Hw} {src dst n m : Nat}

/-- A burst leaves a byte that none of its own has its place at. -/
theorem Hw.copied_succ_other {a : Nat} (other : ∀ i, 256 * m ≤ i → i < 256 * m + 256 → i < n → a ≠ dst + i) :
    (h.copied src dst n (m + 1)).byte a = (h.copied src dst n m).byte a :=
  Hw.byte_ringGuard <| Hw.byte_wrPlaces_other fun p hp => by
    obtain ⟨_, least, most, inside⟩ := (h.mem_burstBytes src n m p).mp hp
    exact other p.2 least most inside

theorem Hw.byte_copied_outside {a : Nat} (outside : a < dst ∨ dst + n ≤ a) : (h.copied src dst n m).byte a = h.byte a := by
  induction m with
  | zero => rfl
  | succ m ih => exact (Hw.copied_succ_other fun i _ _ inside => by omega).trans ih

/-- The bytes of a burst that the ring guard stops stand. -/
theorem Hw.byte_copied_stopped {e k i : Nat} (he : e < 64) (ddr : (ddrChan (dst + 256 * k)).isSome = true)
    (hit : h.ringHit e (dst + 256 * k) (min 256 (n - 256 * k)) = true) (least : 256 * k ≤ i) (most : i < 256 * k + 256) :
    (h.copied src dst n m).byte (dst + i) = h.byte (dst + i) := by
  induction m with
  | zero => rfl
  | succ m ih =>
    by_cases own : m = k
    · subst own
      have stopped : (h.copied src dst n m).ringHit e (dst + 256 * m) (h.burstBytes src n m).length = true := by
        rw [h.burstBytes_length, (Hw.SameRings.copied h src dst n m).ringHit, hit]
      exact (Hw.byte_ringGuard_stopped he ddr stopped _ _).trans ih
    · exact (Hw.copied_succ_other fun j _ _ _ => by omega).trans ih

section
variable (free : ∀ e k, e < 64 → k * 256 < n → h.ringHit e (dst + 256 * k) (min 256 (n - 256 * k)) = false)
include free

theorem Hw.copied_succ_free (more : 256 * m < n) :
    h.copied src dst n (m + 1) = (h.copied src dst n m).wrPlaces dst (h.burstBytes src n m) :=
  Hw.ringGuard_free (fun e he => by rw [h.burstBytes_length, (Hw.SameRings.copied h src dst n m).ringHit, free e m he (by omega)]) _

/-- Bursts that the ring guard lets pass have put the bytes that the source held before the copy. -/
theorem Hw.byte_copied {i : Nat} (bursts : 256 * m < n + 256) (inside : i < n) (done : i < 256 * m) :
    (h.copied src dst n m).byte (dst + i) = h.byte (src + i) := by
  induction m with
  | zero => omega
  | succ m ih =>
    by_cases own : 256 * m ≤ i
    · have here : ((h.byte (src + i)).toNat, i) ∈ h.burstBytes src n m := (h.mem_burstBytes src n m _).mpr ⟨rfl, own, by omega, inside⟩
      have one : ∀ p ∈ h.burstBytes src n m, p.2 = i → p.1 = (h.byte (src + i)).toNat :=
        fun p hp place => place ▸ ((h.mem_burstBytes src n m p).mp hp).1
      rw [Hw.copied_succ_free free (by omega), Hw.byte_wrPlaces here one, BitVec.ofNat_toNat, BitVec.setWidth_eq]
    · exact (Hw.copied_succ_other fun j _ _ _ => by omega).trans (ih (by omega) (by omega))

theorem Hw.copied_regs (bursts : 256 * m < n + 256) : (h.copied src dst n m).regs = h.regs := by
  induction m with
  | zero => rfl
  | succ m ih =>
    rw [Hw.copied_succ_free free (by omega), Hw.wrPlaces_eq]
    exact ih (by omega)

end

end

/-! ### The copy as a whole (R35, R267) -/

section
variable {h : Hw} {src dst n : Nat}

theorem Hw.byte_copyBytes_outside {a : Nat} (outside : a < dst ∨ dst + n ≤ a) : (h.copyBytes src dst n).byte a = h.byte a := by
  rw [h.copyBytes_eq_copied, Hw.byte_copied_outside outside]

theorem Hw.byte_copyBytes_stopped {e k i : Nat} (he : e < 64) (ddr : (ddrChan (dst + 256 * k)).isSome = true)
    (hit : h.ringHit e (dst + 256 * k) (min 256 (n - 256 * k)) = true) (least : 256 * k ≤ i) (most : i < 256 * k + 256) :
    (h.copyBytes src dst n).byte (dst + i) = h.byte (dst + i) := by
  rw [h.copyBytes_eq_copied, Hw.byte_copied_stopped he ddr hit least most]

/-- A copy of which the ring guard stops no burst puts the bytes that the source held, and changes no register. -/
theorem Hw.copyBytes_free (free : ∀ e k, e < 64 → k * 256 < n → h.ringHit e (dst + 256 * k) (min 256 (n - 256 * k)) = false) :
    (∀ i, i < n → (h.copyBytes src dst n).byte (dst + i) = h.byte (src + i)) ∧ (h.copyBytes src dst n).regs = h.regs := by
  rw [h.copyBytes_eq_copied]
  exact ⟨fun i inside => Hw.byte_copied free (by omega) inside (by omega), Hw.copied_regs free (by omega)⟩

end

/-- What O50 says of a flash copy. -/
theorem flashCopy_writes_its_bytes (h : Hw) (src dst n : Nat) :
    (∀ a, a < dst ∨ dst + n ≤ a → (h.copyBytes src dst n).byte a = h.byte a) ∧
    ((∀ e k, e < 64 → k * 256 < n → h.ringHit e (dst + 256 * k) (min 256 (n - 256 * k)) = false) →
      (∀ i, i < n → (h.copyBytes src dst n).byte (dst + i) = h.byte (src + i)) ∧ (h.copyBytes src dst n).regs = h.regs) ∧
    (∀ e k i, e < 64 → (ddrChan (dst + 256 * k)).isSome = true → h.ringHit e (dst + 256 * k) (min 256 (n - 256 * k)) = true →
      256 * k ≤ i → i < 256 * k + 256 → i < n → (h.copyBytes src dst n).byte (dst + i) = h.byte (dst + i)) :=
  ⟨fun _ outside => Hw.byte_copyBytes_outside outside, Hw.copyBytes_free,
    fun _ _ _ he ddr hit least most _ => Hw.byte_copyBytes_stopped he ddr hit least most⟩

/-! ### The commands and their ends -/

/-- What O50 says of a command. -/
theorem flashCommands_are_checked {s : State} {m : Master} {hd op : Nat} {i : Instr} (hs : s.hears m) (hhd : hd < 2)
    (cmd : (op = 1 ∧ i = .xspiRead m hd) ∨ (op = 2 ∧ i = .xspiProgram m hd) ∨ (op = 3 ∧ i = .xspiErase m hd)) :
    (s.hw.flag STN_XSPI_CMD_BUSY 0 = true → exec i s = s.wrote m (s.hw.put STN_XSPI_CMD_RESULT 0 1)) ∧
    (s.hw.flag STN_XSPI_CMD_BUSY 0 = false → s.hw.dieUp hd = false → exec i s = s.wrote m (s.hw.put STN_XSPI_CMD_RESULT 0 2)) ∧
    exec i s = s.wrote m (s.hw.xspiCmd op hd) := by
  have run := exec_xspiCommand hs hhd cmd
  exact ⟨fun busy => by rw [run, Hw.xspiCmd_busy op busy], fun idle absent => by rw [run, Hw.xspiCmd_absent op idle absent], run⟩

/-- What holds of the end of an operation: as O50 says it, but for an end that finds none, after which what waited goes on all the same. -/
theorem flashCommands_end {s : State} (on : s.on) (ok : Bool) :
    (∀ x, s.hw.boot.xspi = some x →
      (x.op ≠ 3 → exec (.xspiDone ok) s = s.to ((s.hw.burst x.head x.maddr twBox 6 (fun h => h.xspiEnd x ok)).settle)) ∧
      (x.op = 3 → exec (.xspiDone ok) s = s.to (s.hw.xspiEnd x ok).settle)) ∧
    (s.hw.boot.xspi = none → exec (.xspiDone ok) s = s.to s.hw.settle) := by
  refine ⟨fun x runs => ⟨fun copy => ?copy, fun erase => ?erase⟩, fun none_ => ?none⟩
  case copy => rw [exec_xspiDone on, Hw.xspiDone_some runs, if_neg copy]
  case erase => rw [exec_xspiDone on, Hw.xspiDone_some runs, if_pos erase]
  case none => rw [exec_xspiDone on, Hw.xspiDone_none none_]

/-! ### An end without an operation -/

/-- A station that has entered RUN and has not yet taken up step 10 of start-up (R357). -/
def enteredRun : State := { State.reset with hw := (State.reset.hw.put STN_STATE_STATE 0 3).put STN_BOOT_STEP 0 9 }

theorem enteredRun_goes_on : enteredRun.hw.settle.get STN_BOOT_STEP 0 = 10 ∧ enteredRun.hw.get STN_BOOT_STEP 0 = 9 := by decide

/-- Refutes O50, by its clause on an XSPI_DONE that finds no operation: the clause has nothing change in any state, but what waited goes on
after each XSPI_DONE. A station in RUN at step 9 of start-up is at step 10 after it. The other clauses hold: `flashCommands_are_checked`,
`flashCommands_end`, `Hw.xspiEnd_read`, `Hw.xspiEnd_read_fails` and `flashCopy_writes_its_bytes`. -/
theorem not_flashCommandsCopyAndErase : ¬ Obligations.FlashCommandsCopyAndErase := by
  intro claim
  obtain ⟨commands, _⟩ := claim
  obtain ⟨_, _, _, _, _, unchanged⟩ := commands enteredRun .spi 0 1 (.xspiRead .spi 0) (by decide) (by decide) (.inl ⟨rfl, rfl⟩)
  obtain ⟨_, goesOn⟩ := flashCommands_end (s := enteredRun) rfl true
  have same : enteredRun.commit enteredRun.hw.settle = enteredRun.commit enteredRun.hw :=
    Host.Outcome.next.inj ((goesOn rfl).symm.trans (unchanged rfl))
  have step : enteredRun.hw.settle.get STN_BOOT_STEP 0 = enteredRun.hw.get STN_BOOT_STEP 0 := by
    rw [← State.commit_get enteredRun, same, State.commit_get]
  rw [enteredRun_goes_on.1, enteredRun_goes_on.2] at step
  exact absurd step (by decide)

end Sys2Proof.Machine
end

section
/-! Images loaded in HELD, attestations, and the audit log's records (R373, R375, R376, R381, R382). -/

namespace Sys2Proof.Machine

/-! ### Images (R373) -/

section
variable {s : State} {m : Master} (hs : s.hears m)
include hs

theorem exec_imgLoadMemory : exec (.imgLoadMemory m) s = s.wrote m (s.hw.imgLoad 1) :=
  State.run_byHost hs (fun _ => true) (fun h => h.stnWrite 0x14 1) rfl

theorem exec_imgLoadFlashA : exec (.imgLoadFlashA m) s = s.wrote m (s.hw.imgLoad 2) :=
  State.run_byHost hs (fun _ => true) (fun h => h.stnWrite 0x14 2) rfl

theorem exec_imgLoadFlashB : exec (.imgLoadFlashB m) s = s.wrote m (s.hw.imgLoad 3) :=
  State.run_byHost hs (fun _ => true) (fun h => h.stnWrite 0x14 3) rfl

end

section
variable {h : Hw} (op : Nat)

theorem Hw.imgLoad_not_held (other : h.get STN_STATE_STATE 0 ≠ 2) : h.imgLoad op = h.put STN_IMG_LOAD_RESULT 0 1 := by
  simp [Hw.imgLoad, other]

theorem Hw.imgLoad_forbidden (held : h.get STN_STATE_STATE 0 = 2) (cause : 2 ≤ h.get STN_BOOT_HELD_CAUSE 0) :
    h.imgLoad op = h.put STN_IMG_LOAD_RESULT 0 2 := by
  simp [Hw.imgLoad, held, cause]

end

/-! ### Attestation (R375, R376) -/

/-- The write of STN_ATT_CMD that asks for a report has GO set and the signer in SIGNER. -/
theorem Hw.stnWrite_attest (h : Hw) {g : Nat} (hg : g < 4) : h.stnWrite 0x2020 (1 + g % 4 * 2) = h.attest g := by
  have go : bit (1 + g % 4 * 2) 0 = true := by simp only [bit, beq_iff_eq]; omega
  have signer : bits (1 + g % 4 * 2) 2 1 = g := by simp only [bits]; omega
  have word (v : Nat) : h.stnWrite 0x2020 v = if bit v 0 then h.attest (bits v 2 1) else h.writeFields .stn 0 0x2020 v (fun _ => true) := rfl
  rw [word, if_pos go, signer]

theorem exec_attest {s : State} {m : Master} {g : Nat} (hs : s.hears m) (hg : g < 4) : exec (.attest m g) s = s.wrote m (s.hw.attest g) :=
  (State.run_byHost hs (fun _ => true) (fun h => h.stnWrite 0x2020 (1 + g % 4 * 2)) rfl).trans (by rw [Hw.stnWrite_attest _ hg])

theorem exec_attestDone {s : State} (on : s.on) : exec .attestDone s = s.to s.hw.attestDone := s.run_live (fun h => h.attestDone) on

section
variable {h : Hw}

theorem Hw.attest_unknown {g : Nat} (above : 2 < g) : h.attest g = h.put STN_ATT_CMD_RESULT 0 1 := if_pos (.inl above)

section
variable (up : h.dieUp 0 = true)
include up

/-- SIGNER 1 names die 0. -/
theorem Hw.attest_first : h.attest 1 =
    if h.flag STN_ATT_CMD_BUSY 0 then h.put STN_ATT_CMD_RESULT 0 2
    else
      let g := ((((h.put STN_ATT_CMD_SIGNER 0 1).put STN_ATT_CMD_BUSY 0 1).put STN_ATT_CMD_DONE 0 0).put STN_ATT_CMD_RESULT 0 0).put STN_ATT_CMD_GO 0 1
      { g with boot := { g.boot with att := some (0, g.attWords 0) } } :=
  if_neg (by simp [up])

theorem Hw.attest_busy (busy : h.flag STN_ATT_CMD_BUSY 0 = true) : h.attest 1 = h.put STN_ATT_CMD_RESULT 0 2 :=
  (Hw.attest_first up).trans (if_pos busy)

theorem Hw.attest_starts (idle : h.flag STN_ATT_CMD_BUSY 0 = false) :
    let g := ((((h.put STN_ATT_CMD_SIGNER 0 1).put STN_ATT_CMD_BUSY 0 1).put STN_ATT_CMD_DONE 0 0).put STN_ATT_CMD_RESULT 0 0).put STN_ATT_CMD_GO 0 1
    h.attest 1 = { g with boot := { g.boot with att := some (0, g.attWords 0) } } :=
  (Hw.attest_first up).trans (if_neg (ne_true_of_eq_false idle))

end

theorem Hw.attestDone_none (none_ : h.boot.att = none) : h.attestDone = h := by rw [Hw.attestDone, none_]

/-- The report's words, with those of its signature. -/
def signedWords (d : Nat) (w : List Nat) : List Nat :=
  w ++ (List.range 24).map (fun i => leAt (Config.ecdsaSign d (sha384 (w.flatMap (bytesOf 4)))) (4 * i) 4)

theorem Hw.attestDone_signed {d : Nat} {w : List Nat} (formed : h.boot.att = some (d, w)) :
    let g := (((h.each (signedWords d w).zipIdx (fun h p => h.put STN_ATT_REP_WORD 0 p.1 p.2)).put STN_ATT_CMD_BUSY 0 0).put STN_ATT_CMD_DONE 0 1).put
      STN_ATT_CMD_GO 0 0
    h.attestDone = { g with boot := { g.boot with att := none } } := by
  simp only [Hw.attestDone, formed]
  rfl

end

/-- Settles O48: the results of a load and of an attestation, command by command, and the report that an attestation's end shows. -/
theorem imagesLoadAndAttest : Obligations.ImagesLoadAndAttest := by
  refine fun s m g hs hg => ⟨fun other => ⟨?memory, ?flashA, ?flashB⟩, fun held cause => ?forbidden,
    ⟨exec_imgLoadMemory hs, exec_imgLoadFlashA hs, exec_imgLoadFlashB hs⟩, fun none_ => ?unsigned, fun first up busy => ?busy,
    fun first up idle => ?starts, fun d w formed => ?signed, fun none_ => ?unformed⟩
  case memory => rw [exec_imgLoadMemory hs, Hw.imgLoad_not_held 1 other]
  case flashA => rw [exec_imgLoadFlashA hs, Hw.imgLoad_not_held 2 other]
  case flashB => rw [exec_imgLoadFlashB hs, Hw.imgLoad_not_held 3 other]
  case forbidden => rw [exec_imgLoadFlashA hs, Hw.imgLoad_forbidden 2 held cause]
  case unsigned => rw [exec_attest hs hg, Hw.attest_unknown (by omega)]
  case busy => rw [exec_attest hs hg, first, Hw.attest_busy up busy]
  case starts =>
    rw [exec_attest hs hg, first, Hw.attest_starts up idle]
  case signed =>
    rw [exec_attestDone hs.1, Hw.attestDone_signed formed]
    rfl
  case unformed => rw [exec_attestDone hs.1, Hw.attestDone_none none_]

/-! ### The audit log (R381, R382) -/

theorem exec_audNote {s : State} {m : Master} (hs : s.hears m) (v : Nat) :
    exec (.audNote m v) s = s.wrote m (s.hw.audit 0x0C s.hw.logDie (bits v 19 0)) :=
  State.run_byHost hs (fun _ => true) (fun h => h.stnWrite 0x300C v) rfl

theorem exec_auditWrite {s : State} (on : s.on) : exec .auditWrite s = s.to s.hw.auditWrite := s.run_live (fun h => h.auditWrite) on

section
variable {h : Hw}

theorem Hw.auditWrite_waits (waits : h.holds (.nvm h.logDie) 3 = false) : h.auditWrite = h.audAsk := if_pos (by rw [waits]; rfl)

/-- The holder of the NVM with nothing lost writes the oldest record. -/
theorem Hw.auditWrite_oldest {e : AudPend} {r : List AudPend} (held : h.holds (.nvm h.logDie) 3 = true) (kept : h.audLost = 0)
    (oldest : h.audQ = e :: r) (other : e.kind ≠ 5) :
    h.auditWrite = (({ h.setAud (h.aud.write e) with audQ := r } : Hw).tokRel (.nvm h.logDie) 3).audAsk.audShow := by
  simp only [Hw.auditWrite, held, kept, oldest, Bool.not_true, Bool.false_eq_true, Nat.lt_irrefl, if_false, if_neg other]

theorem Hw.audAsk_audQ (h : Hw) : h.audAsk.audQ = h.audQ := Hw.ite_keeps (P := fun g => g.audQ = h.audQ) rfl rfl

variable (k d a : Nat) (x : List Nat)

theorem Hw.audit_full (full : 32 ≤ h.audQ.length) : (h.audit k d a x).audQ = h.audQ ∧ (h.audit k d a x).audLost = h.audLost + 1 := by
  rw [Hw.audit, if_pos full]
  exact ⟨rfl, rfl⟩

theorem Hw.audit_audQ (room : h.audQ.length < 32) : (h.audit k d a x).audQ = h.audQ ++
    [{ kind := k, die := d, arg := a % 2 ^ 20, ext := x, time := h.now, line := h.flag TW_LINE_STAT_LOCKED 0 || h.flag TW_LINE_STAT_IS_MASTER 0 }] := by
  rw [Hw.audit, if_neg (Nat.not_le.mpr room)]
  exact Hw.audAsk_audQ _

end

/-- Settles O51: the note, the two cases of a write of the log, and the two of a record's entry. -/
theorem auditKeepsItsRecordsInOrder : Obligations.AuditKeepsItsRecordsInOrder := by
  refine fun s m v e r hs => ⟨exec_audNote hs v, fun waits => ?waits, fun held kept oldest other => ?writes,
    fun k d a x => ⟨?bound, Hw.audit_full k d a x, fun room => ⟨_, Hw.audit_audQ k d a x room, rfl, rfl, rfl, rfl⟩⟩⟩
  case waits => rw [exec_auditWrite hs.1, Hw.auditWrite_waits waits]
  case writes => rw [exec_auditWrite hs.1, Hw.auditWrite_oldest held kept oldest other]
  case bound =>
    rcases Nat.lt_or_ge s.hw.audQ.length 32 with room | full
    · rw [Hw.audit_audQ k d a x room, List.length_append, List.length_singleton]
      omega
    · rw [(Hw.audit_full k d a x full).1]
      omega

end Sys2Proof.Machine
end

section
/-! The SPI target port's frames (R415). -/

namespace Sys2Proof.Machine

theorem exec_spiRead {s : State} (on : s.on) (start : Option (Nat × Nat)) (ecc : List (Nat × Bool)) :
    exec (.spiRead start ecc) s = s.to ((s.hw.meets ecc).spiRead start) := s.run_live (fun h => (h.meets ecc).spiRead start) on

theorem exec_spiWrite {s : State} (on : s.on) (start : Option (Nat × Nat)) (v : Nat) : exec (.spiWrite start v) s = s.to (s.hw.spiWrite start v) :=
  s.run_live (fun h => h.spiWrite start v) on

/-! ### The address of a frame's word -/

section
variable {h : Hw} {cmd : Nat} {rd : Bool}

theorem Hw.spiAddr_begins (a : Nat) (off : h.spi.on = false) (nibble : bits cmd 7 4 = 0xA) (dir : bit cmd 3 = rd) :
    h.spiAddr (some (cmd, a)) rd =
      (some (a % 2 ^ 40), { h with spi := { on := true, rd := rd, inc := bit cmd 2, addr := a % 2 ^ 40, words := 1 } }) := by
  simp [Hw.spiAddr, off, nibble, dir]

theorem Hw.spiAddr_ignored (a : Nat) (off : h.spi.on = false) (nibble : bits cmd 7 4 ≠ 0xA) (dir : bit cmd 3 = rd) :
    h.spiAddr (some (cmd, a)) rd = (none, ({ h with spi := { on := true, ignored := true } } : Hw).inc SPI_ERR_COUNT 0) := by
  simp [Hw.spiAddr, off, nibble, dir]

theorem Hw.spiAddr_goes_on (on : h.spi.on = true) (heard : h.spi.ignored = false) (dir : h.spi.rd = rd) (inc : h.spi.inc = true) :
    h.spiAddr none rd = (some ((h.spi.addr + 4) % 2 ^ 40),
      { h with spi := { h.spi with addr := (h.spi.addr + 4) % 2 ^ 40, words := h.spi.words + 1 } }) := by
  simp [Hw.spiAddr, on, heard, dir, inc]

end

/-! ### The word accessed -/

section
variable {h g k : Hw} {start : Option (Nat × Nat)} {a : Nat} (serves : h.servesMaster .spi = true)
include serves

theorem Hw.spiRead_word {r w : Nat} (addr : h.spiAddr start true = (some a, g)) (read : g.masterRead .spi a 4 = (some (r, w), k)) :
    h.spiRead start = (k.answer .spi r [w]).settle := by
  simp only [Hw.spiRead, serves, Bool.not_true, Bool.false_eq_true, if_false, addr, read]

theorem Hw.spiWrite_word {v st : Nat} (addr : h.spiAddr start false = (some a, g)) (written : g.masterWrite .spi a 4 v = (some st, k)) :
    h.spiWrite start v = (k.answer .spi st []).settle := by
  simp only [Hw.spiWrite, serves, Bool.not_true, Bool.false_eq_true, if_false, addr, written]

theorem Hw.spiWrite_none (v : Nat) (addr : h.spiAddr start false = (none, g)) : h.spiWrite start v = g := by
  simp only [Hw.spiWrite, serves, Bool.not_true, Bool.false_eq_true, if_false, addr]

end

/-- Settles O16: what each form of a frame addresses, and the access to the word there. -/
theorem spiFramesReadAndWriteWords : Obligations.SpiFramesReadAndWriteWords := by
  refine fun s cmd a v ecc hs => ⟨fun r w g off nibble dir read => ?reads, fun st g off nibble dir written => ?writes,
    fun off nibble dir => ?ignored, fun st g on heard dir inc written => ?next, s.run_live (fun h => h.spiEnd) hs.1⟩
  case reads =>
    have serves : (s.hw.meets ecc).servesMaster .spi = true := hs.2
    rw [exec_spiRead hs.1, Hw.spiRead_word serves (Hw.spiAddr_begins a off nibble dir) read]
  case writes => rw [exec_spiWrite hs.1, Hw.spiWrite_word hs.2 (Hw.spiAddr_begins a off nibble dir) written]
  case ignored => rw [exec_spiWrite hs.1, Hw.spiWrite_none hs.2 v (Hw.spiAddr_ignored a off nibble dir)]
  case next => rw [exec_spiWrite hs.1, Hw.spiWrite_word hs.2 (Hw.spiAddr_goes_on on heard dir inc) written]

end Sys2Proof.Machine
end

section
/-! Ports: their mode, their link, the words of a link, and the frame that goes next (R384, R385, R389 to R391). -/

namespace Sys2Proof.Machine

/-! ### The commands of ports -/

theorem exec_portModeWrite {s : State} {m : Master} {p md : Nat} (hs : s.hears m) (hp : p < 4) (hmd : md < 4) :
    exec (.portModeWrite m p md) s =
      s.wrote m (if s.hw.get TW_PORT_CFG_MODE p = md then s.hw else (s.hw.portDown p).put TW_PORT_CFG_MODE p md) := by
  have mode : bits (md % 4) 1 0 = md := by simp only [bits]; omega
  have word (h : Hw) (v : Nat) : h.portWrite p 0 v =
    if h.get TW_PORT_CFG_MODE p = bits v 1 0 then h else (h.portDown p).put TW_PORT_CFG_MODE p (bits v 1 0) := rfl
  exact (State.run_byHost hs (fun _ => decide (p < 4)) (fun h => h.portWrite p 0 (md % 4)) (decide_eq_true hp)).trans (by rw [word, mode])

section
variable {s : State} (on : s.on)
include on

theorem exec_portUp {p : Nat} (hp : p < 4) : exec (.portUp p) s = s.to (s.hw.portUp p) :=
  (s.run_live (fun h => if p < 4 then h.portUp p else h) on).trans (by rw [if_pos hp]; rfl)

theorem exec_portDown (p t : Nat) (lock : Bool) : exec (.portDown p t lock) s = s.to (s.hw.portLost p t lock) :=
  s.run_live (fun h => h.portLost p t lock) on

theorem exec_linkWord (p lane cr ack t : Nat) :
    exec (.linkWord p lane cr ack t) s = s.to (s.hw.linkWord p (lane % 4) (cr % 64) (ack % 2 ^ 16) t) :=
  s.run_live (fun h => h.linkWord p (lane % 4) (cr % 64) (ack % 2 ^ 16) t) on

theorem exec_linkWordSend (p lane t : Nat) : exec (.linkWordSend p lane t) s = s.to (s.hw.linkWordSend p (lane % 4) t) :=
  s.run_live (fun h => h.linkWordSend p (lane % 4) t) on

theorem exec_goBackResend (p lane t : Nat) : exec (.goBackResend p lane t) s = s.to (s.hw.goBack p lane t) :=
  s.run_live (fun h => h.goBack p lane t) on

theorem exec_frameBoundary (p t ph : Nat) : exec (.frameBoundary p t ph) s = s.to (s.hw.frameBoundary p t ph) :=
  s.run_live (fun h => h.frameBoundary p t ph) on

end

/-- The time of a command says nothing of a port. -/
theorem Hw.port_of_now (h : Hw) (t p : Nat) : ({ h with now := t } : Hw).port p = h.port p := rfl

/-! ### Training (R385) -/

section
variable {h : Hw} {p t : Nat}

theorem Hw.portUp_ethernet (mode : h.portMode p = 2) (down : h.get TW_PORT_STAT_LINK p ≠ 2) :
    h.portUp p = (h.setLink p 2).put ETH_STAT_BLOCK_LOCK p 1 := by
  simp [Hw.portUp, mode, down]

theorem Hw.portUp_early (mode : h.portMode p = 1) (early : (h.port p).words < 64) : h.portUp p = h :=
  if_pos (.inr (.inr ⟨mode, .inr early⟩))

theorem Hw.portLost_down (down : h.get TW_PORT_STAT_LINK p = 0) (lock : Bool) : h.portLost p t lock = h := if_pos (.inr (.inl down))

variable (ht : h.now ≤ t)
include ht

theorem Hw.portLost_lock (hp : p < 4) (some_ : h.get TW_PORT_STAT_LINK p ≠ 0) : h.portLost p t true = ({ h with now := t } : Hw).portDown p := by
  rw [Hw.portLost, if_neg (by omega)]
  rfl

/-! ### Link words (R385, R390) -/

/-- The port with the instant of its last link word. -/
def Hw.wordNoted (h : Hw) (p t : Nat) : Hw := ({ h with now := t } : Hw).modP p (fun x => { x with wordAt := t })

section
variable (mode : h.portMode p = 1)
include mode

theorem Hw.linkWord_training (trains : h.get TW_PORT_STAT_LINK p = 1) (lane cr ack : Nat) :
    h.linkWord p lane cr ack t = (h.wordNoted p t).modP p (fun x => { x with words := x.words + 1 }) := by
  rw [Hw.linkWord, if_neg (by omega)]
  dsimp only
  split
  next first => exact absurd (trains.symm.trans first) (by decide)
  next => rfl
  next other => exact absurd trains other

theorem Hw.linkWord_ctrl (up : h.get TW_PORT_STAT_LINK p = 2) (cr ack : Nat) :
    h.linkWord p 1 cr ack t = (h.wordNoted p t).modP p (fun x => { x with cred := tset x.cred 1 (tget x.cred 1 0 + cr) }) := by
  rw [Hw.linkWord, if_neg (by omega)]
  dsimp only
  split
  next first => exact absurd (up.symm.trans first) (by decide)
  next trains => exact absurd (up.symm.trans trains) (by decide)
  next => rfl

theorem Hw.linkWordSend_tweed (lane : Nat) : h.linkWordSend p lane t = ({ h with now := t } : Hw).modP p (fun x =>
    let c := min 63 (tget x.ret lane 0)
    { x with ret := tset x.ret lane (tget x.ret lane 0 - c), sentWord := some (lane, c, tget x.rxSeq lane 0), sentWordAt := t }) :=
  if_neg (by omega)

end

/-! ### Frames sent again (R391) -/

section
variable (up : h.tweedUp p = true)
include up

theorem Hw.goBack_late {lane : Nat} (kept : 2 ≤ lane) (some_ : (h.port p).unack.filter (fun (f : Frame) => f.lane == lane) ≠ [])
    (late : tget (h.port p).ackAt lane 0 + ticksOfUs 2 ≤ t) :
    h.goBack p lane t = (({ h with now := t } : Hw).modP p (fun x => { x with
      again := x.again.filter (fun (f : Frame) => f.lane != lane) ++ (h.port p).unack.filter (fun (f : Frame) => f.lane == lane)
      ackAt := tset x.ackAt lane t })).inc TW_PORT_RETRY_COUNT p := by
  have unacked := List.isEmpty_eq_false_iff.mpr some_
  exact if_neg (by simp [up, unacked, Nat.not_lt.mpr kept, Nat.not_lt.mpr ht, Nat.not_lt.mpr late])

/-! ### The next frame (R389) -/

section
variable (ph : Nat)

theorem Hw.frameBoundary_dup {f : Frame} (dup : (h.port p).dup = some f) : h.frameBoundary p t ph =
    ({ h with now := t } : Hw).modP p (fun x => { x.useCtrl t (Frame.size f) with dup := none, sent := some f, cut := false }) := by
  rw [Hw.frameBoundary, if_neg (by simp [up, ht])]
  simp only [Hw.port_of_now, dup]

variable {i l : Nat} (once : (h.port p).dup = none)
include once

theorem Hw.frameBoundary_time (ready : (h.port p).ready 0 = some (l, some i)) :
    h.frameBoundary p t ph = ({ h with now := t } : Hw).sendNew p i t ph := by
  rw [Hw.frameBoundary, if_neg (by simp [up, ht])]
  simp only [Hw.port_of_now, once, ready]

variable (noTime : (h.port p).ready 0 = none)
include noTime

theorem Hw.frameBoundary_ctrl (share : (h.port p).ctrlOk t = true) (ready : (h.port p).ready 1 = some (l, some i)) :
    h.frameBoundary p t ph = ({ h with now := t } : Hw).sendNew p i t ph := by
  rw [Hw.frameBoundary, if_neg (by simp [up, ht])]
  simp only [Hw.port_of_now, once, noTime, share, ready]

theorem Hw.frameBoundary_idle (noCtrl : (h.port p).ready 1 = none) (noMgmt : (h.port p).ready 2 = none) (noData : (h.port p).ready 3 = none) :
    h.frameBoundary p t ph = { h with now := t } := by
  rw [Hw.frameBoundary, if_neg (by simp [up, ht])]
  simp [Hw.port_of_now, once, noTime, noCtrl, noMgmt, noData]

end

end

end

/-- Settles O52, command by command: the mode and the link of a port, its link words, and what a frame boundary sends. -/
theorem portsTrainSendAndResend : Obligations.PortsTrainSendAndResend := by
  refine ⟨fun s m p md lane cr ack t on hp hmd ht => ⟨fun serves other => ?changes, fun serves same => ?stands, fun mode down => ?ethernet,
      fun mode early => ?early, fun some_ => ?lost, fun down => ?down, fun mode trains => ?counts, fun mode up hcr => ?credits,
      fun mode hlane => ?sends, fun up kept some_ late => ?again⟩,
    fun s p t ph i l f on up ht => ⟨fun dup => ?copy, fun once ready => ?time, fun once noTime share ready => ?ctrl,
      fun once noTime noCtrl noMgmt noData => ?idle⟩⟩
  case changes => rw [exec_portModeWrite ⟨on, serves⟩ hp hmd, if_neg other]
  case stands => rw [exec_portModeWrite ⟨on, serves⟩ hp hmd, if_pos same]
  case ethernet => rw [exec_portUp on hp, Hw.portUp_ethernet mode down]
  case early => rw [exec_portUp on hp, Hw.portUp_early mode early]
  case lost => rw [exec_portDown on, Hw.portLost_lock ht hp some_]
  case down => rw [exec_portDown on, Hw.portLost_down down]
  case counts =>
    rw [exec_linkWord on, Hw.linkWord_training ht mode trains]
    rfl
  case credits =>
    rw [exec_linkWord on, Nat.mod_eq_of_lt hcr, Hw.linkWord_ctrl ht mode up]
    rfl
  case sends => rw [exec_linkWordSend on, Nat.mod_eq_of_lt hlane, Hw.linkWordSend_tweed ht mode]
  case again => rw [exec_goBackResend on, Hw.goBack_late ht up kept some_ late]
  case copy => rw [exec_frameBoundary on, Hw.frameBoundary_dup ht up ph dup]
  case time => rw [exec_frameBoundary on, Hw.frameBoundary_time ht up ph once ready]
  case ctrl => rw [exec_frameBoundary on, Hw.frameBoundary_ctrl ht up ph once noTime share ready]
  case idle => rw [exec_frameBoundary on, Hw.frameBoundary_idle ht up ph once noTime noCtrl noMgmt noData]

end Sys2Proof.Machine
end

section
/-! Frames that arrive: which are taken, where they are routed, and what a bad copy does (R386, R387, R390 to R397). -/

namespace Sys2Proof.Machine

/-! ### The commands that receive frames -/

section
variable {s : State} (on : s.on) (p : Nat) (f : Frame) (crc : Crc)
include on

theorem exec_sync (r : Nat) : exec (.sync p f crc r) s = s.to (s.hw.recv p f crc (r / 256) (isFrame 0 0) (fun h => h.syncRecv p f r)) :=
  s.run_live (fun h => h.recv p f crc (r / 256) (isFrame 0 0) (fun h => h.syncRecv p f r)) on

theorem exec_delayReq (r : Nat) : exec (.delayReq p f crc r) s = s.to (s.hw.recv p f crc (r / 256) (isFrame 0 1) (fun h => h.delayAnswer p r)) :=
  s.run_live (fun h => h.recv p f crc (r / 256) (isFrame 0 1) (fun h => h.delayAnswer p r)) on

theorem exec_delayRsp (r : Nat) : exec (.delayRsp p f crc r) s = s.to (s.hw.recv p f crc (r / 256) (isFrame 0 2) (fun h => h.delayRsp p f r)) :=
  s.run_live (fun h => h.recv p f crc (r / 256) (isFrame 0 2) (fun h => h.delayRsp p f r)) on

theorem exec_event (t : Nat) : exec (.event p f crc t) s = s.to (s.hw.recv p f crc t (isFrame 1 0) (fun h => h.eventRecv f)) :=
  s.run_live (fun h => h.recv p f crc t (isFrame 1 0) (fun h => h.eventRecv f)) on

theorem exec_rdRsp (t : Nat) : exec (.rdRsp p f crc t) s = s.to (s.hw.recv p f crc t (isAccess 1) (fun h => h.reqRsp f false)) :=
  s.run_live (fun h => h.recv p f crc t (isAccess 1) (fun h => h.reqRsp f false)) on

theorem exec_wrReq (t : Nat) : exec (.wrReq p f crc t) s = s.to (s.hw.recv p f crc t (isAccess 2) (fun h => h.wrReq p f)) :=
  s.run_live (fun h => h.recv p f crc t (isAccess 2) (fun h => h.wrReq p f)) on

theorem exec_wrRsp (t : Nat) : exec (.wrRsp p f crc t) s = s.to (s.hw.recv p f crc t (isAccess 3) (fun h => h.reqRsp f true)) :=
  s.run_live (fun h => h.recv p f crc t (isAccess 3) (fun h => h.reqRsp f true)) on

theorem exec_notice (t : Nat) : exec (.notice p f crc t) s = s.to (s.hw.recv p f crc t (isFrame 2 4) (fun h => h.noticeRecv f)) :=
  s.run_live (fun h => h.recv p f crc t (isFrame 2 4) (fun h => h.noticeRecv f)) on

theorem exec_announce (t : Nat) : exec (.announce p f crc t) s = s.to (s.hw.recv p f crc t (isFrame 2 5) (fun h => h.announceRecv p f t)) :=
  s.run_live (fun h => h.recv p f crc t (isFrame 2 5) (fun h => h.announceRecv p f t)) on

theorem exec_assign (t : Nat) : exec (.assign p f crc t) s = s.to (s.hw.recv p f crc t (isFrame 2 6) (fun h => h.assignRecv f)) :=
  s.run_live (fun h => h.recv p f crc t (isFrame 2 6) (fun h => h.assignRecv f)) on

theorem exec_hello (t : Nat) : exec (.hello p f crc t) s = s.to (s.hw.recv p f crc t (isFrame 2 7) (fun h => h.helloRecv f t)) :=
  s.run_live (fun h => h.recv p f crc t (isFrame 2 7) (fun h => h.helloRecv f t)) on

theorem exec_lost (t : Nat) : exec (.lost p f crc t) s = s.to (s.hw.recv p f crc t (isFrame 2 8) (fun h => h.lostRecv f t)) :=
  s.run_live (fun h => h.recv p f crc t (isFrame 2 8) (fun h => h.lostRecv f t)) on

theorem exec_outer (t : Nat) (hd : Shown) : exec (.outer p f crc t hd) s = s.to (s.hw.recv p f crc t (isFrame 1 1)
    (fun h => if h.dark then h else h.outerRecv f.words f.src { hd with ir := hd.ir % 16, vr := hd.vr % 4 })) :=
  s.run_live (fun h => h.recv p f crc t (isFrame 1 1)
    (fun h => if h.dark then h else h.outerRecv f.words f.src { hd with ir := hd.ir % 16, vr := hd.vr % 4 })) on

theorem exec_report (t : Nat) (r : Reported) : exec (.report p r crc t) s =
    s.to (s.hw.recv p r.frame crc t (isFrame 1 2) (fun h => if h.dark then h else h.reportRecv r.frame.words r.frame.src r)) :=
  s.run_live (fun h => h.recv p r.frame crc t (isFrame 1 2) (fun h => if h.dark then h else h.reportRecv r.frame.words r.frame.src r)) on

theorem exec_rdReq (t : Nat) (ecc : List (Nat × Bool)) :
    exec (.rdReq p f crc t ecc) s = s.to ((s.hw.meets ecc).recv p f crc t (isAccess 0) (fun h => h.rdReq p f)) :=
  s.run_live (fun h => (h.meets ecc).recv p f crc t (isAccess 0) (fun h => h.rdReq p f)) on

end

/-! ### The frames that a command receives (R387) -/

section
variable {f : Frame} {k : Nat} (ty : f.ty = k)
include ty

theorem Frame.row_time (lane : f.lane = 0) (hk : k ≤ 2) : isFrame 0 k f = true ∧ Frame.listed f = true := by
  simp [isFrame, Frame.listed, lane, ty, hk]

theorem Frame.row_ctrl (lane : f.lane = 1) (hk : k ≤ 2) : isFrame 1 k f = true ∧ Frame.listed f = true := by
  simp [isFrame, Frame.listed, lane, ty, hk]

theorem Frame.row_mgmt (lane : f.lane = 2) (hk : k ≤ 8) : isFrame 2 k f = true ∧ Frame.listed f = true := by
  simp [isFrame, Frame.listed, lane, ty, hk]

theorem Frame.row_access (lane : f.lane = 2 ∨ f.lane = 3) (hk : k ≤ 3) : isAccess k f = true ∧ Frame.listed f = true := by
  rcases lane with lane | lane <;> simp [isAccess, Frame.listed, lane, ty] <;> omega

end

/-! ### A frame that arrives (R386, R391, R392) -/

/-- The port with a frame taken: the lane's last SEQ is the frame's, and a bad copy of CTRL before it counts no longer. -/
def Hw.frameTaken (h : Hw) (p : Nat) (f : Frame) : Hw :=
  h.modP p (fun x => { x with rxSeq := tset x.rxSeq f.lane f.seq, badCtrl := if f.lane = 1 then none else x.badCtrl })

section
variable {h : Hw} {p t : Nat} {f : Frame} {row : Frame → Bool} {act : Hw → Hw} (up : h.tweedUp p = true) (ht : h.now ≤ t)
include up ht

theorem Hw.recv_taken (own : row f = true ∧ Frame.listed f = true) (takes : (h.port p).takes f = true) :
    h.recv p f .good t row act = (({ h with now := t } : Hw).frameTaken p f).routeFrame p f act := by
  rw [Hw.recv, if_neg (by simp [up, ht, own.1])]
  simp [Hw.port_of_now, takes, own.2, Hw.frameTaken]

theorem Hw.recv_unlisted (other : Frame.listed f = false) (takes : (h.port p).takes f = true) :
    h.recv p f .good t row act = ((({ h with now := t } : Hw).frameTaken p f).inc TW_PORT_ERR_COUNT p).creditRet p f.lane := by
  rw [Hw.recv, if_neg (by simp [up, ht, other])]
  simp [Hw.port_of_now, takes, other, Hw.frameTaken]

variable (own : row f = true)
include own

theorem Hw.recv_refused (refuses : (h.port p).takes f = false) : h.recv p f .good t row act = { h with now := t } := by
  rw [Hw.recv, if_neg (by simp [up, ht, own])]
  simp [Hw.port_of_now, refuses]

theorem Hw.recv_badHeader : h.recv p f .badHeader t row act =
    if f.lane = 1 then (({ h with now := t } : Hw).inc TW_PORT_ERR_COUNT p).ctrlBad p f.seq else ({ h with now := t } : Hw).inc TW_PORT_ERR_COUNT p :=
  if_neg (by simp [up, ht, own])

theorem Hw.recv_badFrame : h.recv p f .badFrame t row act =
    if f.lane = 1 then (({ h with now := t } : Hw).cutFrame p f).ctrlBad p f.seq else ({ h with now := t } : Hw).cutFrame p f :=
  if_neg (by simp [up, ht, own])

end

/-! ### Bad copies of CTRL (R392) -/

section
variable {h : Hw} {p sq : Nat} (new : tget (h.port p).rxSeq 1 0 ≠ sq)
include new

theorem Hw.ctrlBad_second (first : (h.port p).badCtrl = some sq) :
    h.ctrlBad p sq = ((h.modP p (fun x => { x with badCtrl := none })).inc TW_PORT_CTRL_LOST_COUNT p).creditRet p 1 :=
  (if_neg new).trans (if_pos first)

theorem Hw.ctrlBad_first (none_ : (h.port p).badCtrl ≠ some sq) : h.ctrlBad p sq = h.modP p (fun x => { x with badCtrl := some sq }) :=
  (if_neg new).trans (if_neg none_)

end

/-- Settles O53: each command's frames are listed and its own; what a frame does follows from its header, its order and its kind. -/
theorem framesActByTheirKind : Obligations.FramesActByTheirKind := by
  intro s p t f hd r ecc on up ht at_
  have instant : t * 256 / 256 = t := Nat.mul_div_cancel t (by decide)
  have taken {row : Frame → Bool} {act : Hw → Hw} (takes : (s.hw.port p).takes f = true) (own : row f = true ∧ Frame.listed f = true) :
      s.hw.recv p f .good t row act = (at_ s.hw t).routeFrame p f act := Hw.recv_taken up ht own takes
  have takenTime {row : Frame → Bool} {act : Hw → Hw} (takes : (s.hw.port p).takes f = true) (own : row f = true ∧ Frame.listed f = true) :
      s.hw.recv p f .good (t * 256 / 256) row act = (at_ s.hw t).routeFrame p f act := by rw [instant, taken takes own]
  refine ⟨fun takes => ⟨fun lane ty => ?sync, fun lane ty => ?delayReq, fun lane ty => ?delayRsp, fun lane ty => ?event, fun lane ty => ?outer,
      fun lane ty frame => ?report, fun lane => ⟨fun ty => ?rdReq, fun ty => ?rdRsp, fun ty => ?wrReq, fun ty => ?wrRsp⟩, fun lane ty => ?notice,
      fun lane ty => ?announce, fun lane ty => ?assign, fun lane ty => ?hello, fun lane ty => ?lost, fun lane above => ?unlisted⟩,
    fun refuses lane ty => ?refused, fun lane ty => ⟨?ctrlHeader, ?ctrlFrame⟩, fun h sq new => ⟨Hw.ctrlBad_second new, Hw.ctrlBad_first new⟩,
    fun lane ty => ?header, fun lane ty => ?frame⟩
  case sync => rw [exec_sync on, takenTime takes (Frame.row_time ty lane (by decide))]
  case delayReq => rw [exec_delayReq on, takenTime takes (Frame.row_time ty lane (by decide))]
  case delayRsp => rw [exec_delayRsp on, takenTime takes (Frame.row_time ty lane (by decide))]
  case event => rw [exec_event on, taken takes (Frame.row_ctrl ty lane (by decide))]
  case outer => rw [exec_outer on, taken takes (Frame.row_ctrl ty lane (by decide))]
  case report =>
    subst frame
    rw [exec_report on, taken takes (Frame.row_ctrl ty lane (by decide))]
  case rdReq =>
    rw [exec_rdReq on, Hw.recv_taken (h := s.hw.meets ecc) up ht (Frame.row_access ty lane (by decide)) takes]
    rfl
  case rdRsp => rw [exec_rdRsp on, taken takes (Frame.row_access ty lane (by decide))]
  case wrReq => rw [exec_wrReq on, taken takes (Frame.row_access ty lane (by decide))]
  case wrRsp => rw [exec_wrRsp on, taken takes (Frame.row_access ty lane (by decide))]
  case notice => rw [exec_notice on, taken takes (Frame.row_mgmt ty lane (by decide))]
  case announce => rw [exec_announce on, taken takes (Frame.row_mgmt ty lane (by decide))]
  case assign => rw [exec_assign on, taken takes (Frame.row_mgmt ty lane (by decide))]
  case hello => rw [exec_hello on, taken takes (Frame.row_mgmt ty lane (by decide))]
  case lost => rw [exec_lost on, taken takes (Frame.row_mgmt ty lane (by decide))]
  case unlisted =>
    have other : Frame.listed f = false := by simp [Frame.listed, lane, above]
    rw [exec_notice on, Hw.recv_unlisted up ht other takes, lane]
    rfl
  case refused => rw [exec_notice on, Hw.recv_refused up ht (Frame.row_mgmt ty lane (by decide)).1 refuses]
  case ctrlHeader => rw [exec_event on, Hw.recv_badHeader up ht (Frame.row_ctrl ty lane (by decide)).1, if_pos lane]
  case ctrlFrame => rw [exec_event on, Hw.recv_badFrame up ht (Frame.row_ctrl ty lane (by decide)).1, if_pos lane]
  case header => rw [exec_notice on, Hw.recv_badHeader up ht (Frame.row_mgmt ty lane (by decide)).1, if_neg (by omega)]
  case frame => rw [exec_notice on, Hw.recv_badFrame up ht (Frame.row_mgmt ty lane (by decide)).1, if_neg (by omega)]

/-! ### Delivery, forwarding and drops (R390, R393, R394, R397) -/

section
variable {h : Hw} {f : Frame} (p : Nat) (act : Hw → Hw)

theorem Hw.routeFrame_early (early : h.get STN_BOOT_STEP 0 < 3) : h.routeFrame p f act = h.creditRet p f.lane := if_pos (.inl early)

theorem Hw.routeFrame_off (far : f.loc = false) (off : h.flag TW_LINE_CFG_EN 0 = false) : h.routeFrame p f act = h.creditRet p f.lane :=
  if_pos (.inr (.inl (by simp [far, off])))

variable (booted : 3 ≤ h.get STN_BOOT_STEP 0) (oneStation : f.group = false) (oneOnly : f.bcast = false)
include booted oneStation oneOnly

theorem Hw.routeFrame_local (loc : f.loc = true) : h.routeFrame p f act = act (h.creditRet p f.lane) := by
  simp [Hw.routeFrame, Nat.not_lt.mpr booted, oneStation, oneOnly, loc]

section
variable (en : h.flag TW_LINE_CFG_EN 0 = true) (far : f.loc = false) (valid : h.flag TW_LINE_STAT_NUM_VALID 0 = true)
include en far valid

theorem Hw.routeFrame_own (own : f.dest = h.ownNum) : h.routeFrame p f act = act (h.creditRet p f.lane) := by
  simp [Hw.routeFrame, Nat.not_lt.mpr booted, oneStation, oneOnly, far, en, valid, own]

variable (other : f.dest ≠ h.ownNum)
include other

theorem Hw.routeFrame_spent (spent : f.hops = 0) : h.routeFrame p f act = h.creditRet p f.lane := by
  simp [Hw.routeFrame, Nat.not_lt.mpr booted, oneStation, oneOnly, far, en, valid, other, spent]

theorem Hw.routeFrame_lost (hops : f.hops ≠ 0) (noWay : h.outPorts f (some p) = []) :
    h.routeFrame p f act = if Frame.isReq f then (h.creditRet p f.lane).respond p f [2] else h.creditRet p f.lane := by
  simp [Hw.routeFrame, Nat.not_lt.mpr booted, oneStation, oneOnly, far, en, valid, other, hops, noWay]

end

end

/-- Settles O54: the cases of where a frame goes. -/
theorem framesAreDeliveredOrDropped : Obligations.FramesAreDeliveredOrDropped := by
  refine fun h p f act => ⟨Hw.routeFrame_early p act, Hw.routeFrame_off p act, fun booted loc group bcast => ?here,
    fun booted en far group bcast valid => ⟨fun own => ?own, fun other spent => ?spent, fun other hops noWay => ?noWay⟩⟩
  case here => exact Hw.routeFrame_local p act booted group bcast loc
  case own => exact Hw.routeFrame_own p act booted group bcast en far valid own
  case spent => exact Hw.routeFrame_spent p act booted group bcast en far valid other spent
  case noWay => exact Hw.routeFrame_lost p act booted group bcast en far valid other hops noWay

end Sys2Proof.Machine
end

section
/-! Line time, and how stations join the Line and are missed (R397, R399 to R401, R403, R404, R406). -/

namespace Sys2Proof.Machine

/-! ### The commands -/

section
variable {s : State} (on : s.on) (t : Nat)
include on

theorem exec_syncSend : exec (.syncSend t) s = s.to (s.hw.syncSend t) := s.run_live (fun h => h.syncSend t) on

theorem exec_delayExchange (p : Nat) : exec (.delayExchange p t) s = s.to (s.hw.delayExchange p t) := s.run_live (fun h => h.delayExchange p t) on

theorem exec_timeStep : exec (.timeStep t) s = s.to (s.hw.timeStep t) := s.run_live (fun h => h.timeStep t) on

theorem exec_lineLocked : exec .lineLocked s = s.to s.hw.lineLocked := s.run_live (fun h => h.lineLocked) on

theorem exec_lineTimeLost : exec (.lineTimeLost t) s = s.to (s.hw.lineLost t) := s.run_live (fun h => h.lineLost t) on

theorem exec_masterTakeover : exec (.masterTakeover t) s = s.to (s.hw.takeover t) := s.run_live (fun h => h.takeover t) on

theorem exec_announceSend : exec (.announceSend t) s = s.to (s.hw.announceSend t) := s.run_live (fun h => h.announceSend t) on

theorem exec_helloSend : exec (.helloSend t) s = s.to (s.hw.helloSend t) := s.run_live (fun h => h.helloSend t) on

theorem exec_helloTimeout (n : Nat) : exec (.helloTimeout n t) s = s.to (s.hw.helloTimeout n t) := s.run_live (fun h => h.helloTimeout n t) on

theorem exec_accessTimeout (n : Nat) : exec (.accessTimeout n t) s = s.to (s.hw.reqTimeout n t) := s.run_live (fun h => h.reqTimeout n t) on

end

/-! ### Line time (R403, R404, R406) -/

section
variable {h : Hw} {t : Nat}

theorem Hw.syncSend_between (between : t % 4096 ≠ 0) : h.syncSend t = h := if_pos (.inl between)

theorem Hw.lineLocked_short (short : h.line.okRun < 16) : h.lineLocked = h := if_pos (by simp [short])

theorem Hw.lineLost_unlocked (unlocked : h.flag TW_LINE_STAT_LOCKED 0 = false) : h.lineLost t = h := if_pos (by simp [unlocked])

theorem Hw.takeover_no_candidate (no : h.flag TW_LINE_CFG_MASTER 0 = false) : h.takeover t = h := if_pos (by simp [no])

theorem Hw.lineLocked_good (serves : h.serves = true) (en : h.flag TW_LINE_CFG_EN 0 = true) (slave : h.flag TW_LINE_STAT_IS_MASTER 0 = false)
    (unlocked : h.flag TW_LINE_STAT_LOCKED 0 = false) (good : 16 ≤ h.line.okRun) (hears : (h.upstream h.now).isSome = true) :
    h.lineLocked = (((({ h with line := { h.line with everLocked := true } } : Hw).put TW_LINE_STAT_LOCKED 0 1).showLat).metroLine).joinLine :=
  if_neg (by simp [serves, en, slave, unlocked, Nat.not_lt.mpr good, Option.isSome_iff_ne_none.mp hears])

section
variable (ht : h.now ≤ t)
include ht

/-- A Line master's SYNC goes to every port that is UP, with its count, its number, no hops and its LINE_LAT. -/
theorem Hw.syncSend_master (multiple : t % 4096 = 0) (en : h.flag TW_LINE_CFG_EN 0 = true) (master : h.flag TW_LINE_STAT_IS_MASTER 0 = true)
    (once : h.line.sentAt ≠ some t) :
    let g := { h with now := t, line := { h.line with sentAt := some t } }
    h.syncSend t = g.each g.upPorts (fun k p => k.localSend p { lane := 0, ty := 0, words :=
      [t % 2 ^ 32, t / 2 ^ 32 % 2 ^ 32, g.ownNum * 256 + 0 % 32 * 2 ^ 20, max 1 (g.get TW_LINE_CFG_LINE_LAT 0) % 256] }) := by
  rw [Hw.syncSend, if_neg (by simp [multiple, en, master, once, ht])]
  simp only [master, if_true]

theorem Hw.delayExchange_first {p : Nat} (up : h.tweedUp p = true) (first : (h.port p).reqAt = none) :
    h.delayExchange p t = (({ h with now := t } : Hw).modP p (fun x => { x with reqAt := some t, reqT1 := none })).localSend p { lane := 0, ty := 1 } :=
  if_neg (by simp [up, first, ht])

theorem Hw.timeStep_due (multiple : t % 4096 = 0) (may : h.maySync t = true) :
    h.timeStep t = ({ h with now := t, line := { h.line with stepped := true } } : Hw).stepCount (((t : Int) * 256 + h.line.ofs) / 256).toNat :=
  if_neg (by simp [multiple, may, ht])

theorem Hw.lineLost_silent (locked : h.flag TW_LINE_STAT_LOCKED 0 = true) (slave : h.flag TW_LINE_STAT_IS_MASTER 0 = false)
    (silent : h.line.syncAt = none) :
    let g := (((((({ h with now := t, line := { h.line with okRun := 0, stepped := false } } : Hw).put TW_LINE_STAT_LOCKED 0 0).put
      TW_LINE_STAT_LOCK_LOST 0 1).attnSrc 2).showUpstream t).showLat)
    h.lineLost t = if g.get STN_METRO_STAT_ACT_SRC 0 = 1 then g.srcLost else g :=
  if_neg (by simp [locked, slave, silent, ht])

/-! ### The master that takes over (R399) -/

/-- The Line's state with this station the first in the table of numbers. -/
def Hw.mastered (h : Hw) (t : Nat) : Hw :=
  let others := h.line.table.filter (fun (x : Nat × Nat) => x.2 != h.ownNum && x.1 != h.get TW_SERIAL_SERIAL 0)
  { h with now := t, line := { h.line with stopped := false, table := (h.get TW_SERIAL_SERIAL 0, h.ownNum) :: others } }

theorem Hw.takeover_candidate (serves : h.serves = true) (en : h.flag TW_LINE_CFG_EN 0 = true) (candidate : h.flag TW_LINE_CFG_MASTER 0 = true)
    (bound : h.flag STN_BIND_BOUND 0 = true) (slave : h.flag TW_LINE_STAT_IS_MASTER 0 = false) (lowest : h.line.lowAt = none)
    (locked : h.flag TW_LINE_STAT_LOCKED 0 = true) (old : h.line.appliedAt = none) :
    h.takeover t =
      (((((h.mastered t).put TW_LINE_STAT_IS_MASTER 0 1).put TW_LINE_STAT_MASTER 0 h.ownNum).put TW_LINE_STAT_ANNOUNCED 0 1).showLat).joinLine :=
  if_neg (by simp [serves, en, candidate, bound, slave, lowest, locked, old, ht])

/-! ### Joining, and being missed (R400, R401) -/

theorem Hw.announceSend_first (booted : 3 ≤ h.get STN_BOOT_STEP 0) (en : h.flag TW_LINE_CFG_EN 0 = true)
    (new : h.flag TW_LINE_STAT_ANNOUNCED 0 = false) (slave : h.flag TW_LINE_STAT_IS_MASTER 0 = false) (goes : h.line.stopped = false)
    (first : h.line.annAt = none) : h.announceSend t = ({ h with now := t } : Hw).announce t :=
  if_neg (by simp [booted, en, new, slave, goes, first, ht])

theorem Hw.helloSend_due {a : Nat} (en : h.flag TW_LINE_CFG_EN 0 = true) (announced : h.flag TW_LINE_STAT_ANNOUNCED 0 = true)
    (slave : h.flag TW_LINE_STAT_IS_MASTER 0 = false) (last : h.line.helloAt = some a) (due : a + t1ms ≤ t) :
    let g := { h with now := t, line := { h.line with helloAt := some t } }
    h.helloSend t = g.lineSend { lane := 2, ty := 7, dest := g.get TW_LINE_STAT_MASTER 0 } :=
  if_neg (by simp [en, announced, slave, last, due, ht])

end

theorem Hw.announceSend_announced (announced : h.flag TW_LINE_STAT_ANNOUNCED 0 = true) : h.announceSend t = h := if_pos (by simp [announced])

theorem Hw.helloSend_early {a : Nat} (last : h.line.helloAt = some a) (early : t < a + t1ms) : h.helloSend t = h :=
  if_pos (by simp [last, early])

section
variable {n a : Nat} (greeted : tfind h.line.hello n = some a)
include greeted

theorem Hw.helloTimeout_missed (ht : h.now ≤ t) (en : h.flag TW_LINE_CFG_EN 0 = true) (master : h.flag TW_LINE_STAT_IS_MASTER 0 = true)
    (late : a + 3 * t1ms ≤ t) :
    h.helloTimeout n t = (({ h with now := t, line := { h.line with hello := tdel h.line.hello n } } : Hw).lineSend
      { lane := 2, ty := 8, bcast := true, words := [n] }).lostActs [n] t := by
  simp only [Hw.helloTimeout, greeted]
  exact if_pos (by simp [en, master, ht, late])

theorem Hw.helloTimeout_early (early : t < a + 3 * t1ms) : h.helloTimeout n t = h := by
  simp only [Hw.helloTimeout, greeted]
  exact if_neg (by simp [early])

end

/-! ### Requests without an answer (R397) -/

section
variable {n : Nat} {r : LineReq} (waits : h.line.reqs.find? (fun q => q.tag == n) = some r)
include waits

theorem Hw.reqTimeout_late (ht : h.now ≤ t) (late : r.at_ + 2 * t1ms ≤ t) :
    h.reqTimeout n t = ({ h with now := t, line := { h.line with reqs := h.line.reqs.erase r } } : Hw).accessDone r.m 3 [] := by
  simp only [Hw.reqTimeout, waits]
  exact if_pos ⟨ht, late⟩

theorem Hw.reqTimeout_early (early : t < r.at_ + 2 * t1ms) : h.reqTimeout n t = h := by
  simp only [Hw.reqTimeout, waits]
  exact if_neg fun due => Nat.not_lt.mpr due.2 early

end

end

/-- Settles O55, command by command: SYNC, delay and step, lock and its loss, takeover, and what is sent to join and to be heard. -/
theorem lineIsTimedAndJoined : Obligations.LineIsTimedAndJoined := by
  refine ⟨fun s p t on ht => ⟨fun multiple en master once => ?sync, fun between => ?between, fun up first => ?delay, fun multiple may => ?step,
      fun serves en slave unlocked good hears => ?lock, fun short => ?short, fun locked slave silent => ?lost, fun unlocked => ?unlocked,
      fun no => ?noCandidate, fun serves en candidate bound slave lowest locked old => ?takeover⟩,
    fun s t n a r on ht => ⟨fun booted en new slave goes first => ?announce, fun announced => ?announced,
      fun en announced slave last due => ?hello, fun last early => ?helloEarly, fun greeted en master late => ?missed,
      fun greeted early => ?greeted, fun waits late => ?timeout, fun waits early => ?waits⟩⟩
  case sync => rw [exec_syncSend on, Hw.syncSend_master ht multiple en master once]
  case between => rw [exec_syncSend on, Hw.syncSend_between between]
  case delay => rw [exec_delayExchange on, Hw.delayExchange_first ht up first]
  case step => rw [exec_timeStep on, Hw.timeStep_due ht multiple may]
  case lock => rw [exec_lineLocked on, Hw.lineLocked_good serves en slave unlocked good hears]
  case short => rw [exec_lineLocked on, Hw.lineLocked_short short]
  case lost => rw [exec_lineTimeLost on, Hw.lineLost_silent ht locked slave silent]
  case unlocked => rw [exec_lineTimeLost on, Hw.lineLost_unlocked unlocked]
  case noCandidate => rw [exec_masterTakeover on, Hw.takeover_no_candidate no]
  case takeover =>
    rw [exec_masterTakeover on, Hw.takeover_candidate ht serves en candidate bound slave lowest locked old]
    rfl
  case announce => rw [exec_announceSend on, Hw.announceSend_first ht booted en new slave goes first]
  case announced => rw [exec_announceSend on, Hw.announceSend_announced announced]
  case hello => rw [exec_helloSend on, Hw.helloSend_due ht en announced slave last due]
  case helloEarly => rw [exec_helloSend on, Hw.helloSend_early last early]
  case missed => rw [exec_helloTimeout on, Hw.helloTimeout_missed greeted ht en master late]
  case greeted => rw [exec_helloTimeout on, Hw.helloTimeout_early greeted early]
  case timeout => rw [exec_accessTimeout on, Hw.reqTimeout_late waits ht late]
  case waits => rw [exec_accessTimeout on, Hw.reqTimeout_early waits early]

end Sys2Proof.Machine
end

section
/-! Ethernet: sessions and their requests, ARP, ICMP and PTP (R412 to R414); and the state of reset. -/

namespace Sys2Proof.Machine

/-! ### The commands -/

section
variable {s : State} (on : s.on) (p k : Nat) (src : Src) (sq t : Nat)
include on

theorem exec_ethOpen (note : Bool) : exec (.ethOpen p k src sq note t) s = s.to (s.hw.ethOpen p k src sq t note) :=
  s.run_live (fun h => h.ethOpen p k src sq t note) on

theorem exec_ethClose : exec (.ethClose p k src sq t) s = s.to (s.hw.ethClose p k src sq t) :=
  s.run_live (fun h => h.ethClose p k src sq t) on

theorem exec_ethRead (a n : Nat) (ecc : List (Nat × Bool)) :
    exec (.ethRead p k src sq a n t ecc) s = s.to ((s.hw.meets ecc).ethRead p k src sq a n t) :=
  s.run_live (fun h => (h.meets ecc).ethRead p k src sq a n t) on

theorem exec_ethWrite (a : Nat) (data : List Nat) : exec (.ethWrite p k src sq a data t) s = s.to (s.hw.ethWrite p k src sq a data t) :=
  s.run_live (fun h => h.ethWrite p k src sq a data t) on

theorem exec_ethSessionIdle : exec (.ethSessionIdle p k t) s = s.to (s.hw.ethIdle p k t) := s.run_live (fun h => h.ethIdle p k t) on

theorem exec_icmpEcho (ip : Nat) : exec (.icmpEcho p ip) s = s.to (s.hw.icmpEcho p ip) := s.run_live (fun h => h.icmpEcho p ip) on

theorem exec_arpRequest (ip n mac : Nat) : exec (.arpRequest p ip n mac t) s = s.to (s.hw.arpRequest p ip n mac t) :=
  s.run_live (fun h => h.arpRequest p ip n mac t) on

theorem exec_ptpMessage (ofs : Int) (ns : Nat) (lock : Bool) : exec (.ptpMessage p t ofs ns lock) s = s.to (s.hw.ptpMessage p t ofs ns lock) :=
  s.run_live (fun h => h.ptpMessage p t ofs ns lock) on

end

/-! ### A request of a session (R414) -/

/-- The port with a datagram received and counted. -/
def Hw.ethHeard (h : Hw) (p t : Nat) : Hw := ({ h with now := t } : Hw).inc ETH_RX_COUNT p

/-- The response without data to a request of a session. -/
def statusRsp (k op st sq : Nat) (src : Src) : Dgram := { op := op, rsp := true, session := k, status := st, seq := sq, data := [], peer := some src }

/-- A session in which its source was heard. -/
def SessS.heard (x : SessS) (t : Nat) : SessS := { x with at_ := t, idle := false }

/-- A session that a source has taken. -/
def SessS.taken (x : SessS) (src : Src) (t : Nat) : SessS := { x with owner := some src, note := false, last := none, at_ := t, idle := false }

theorem Hw.heard_eq (h : Hw) (p t : Nat) : ({ h with now := t } : Hw).inc ETH_RX_COUNT p = h.ethHeard p t := rfl

theorem Hw.ethHeard_session (h : Hw) (p t j : Nat) : (h.ethHeard p t).session j = h.session j := rfl

theorem Hw.ethHeard_isOwn (h : Hw) (p t : Nat) (stn : Option Nat) : (h.ethHeard p t).isOwn stn = h.isOwn stn := by
  have num : (h.ethHeard p t).ownNum = h.ownNum := Hw.get_put_ne _ _ _ _ _ _ _ _ (Fld.Apart.key_ne (by decide) _ _ _)
  cases stn with
  | none => rfl
  | some n => simp only [Hw.isOwn, num]

/-- A port that receives in IPv4, and the session and the instant of a datagram. -/
structure Hw.EthHears (h : Hw) (p k t : Nat) : Prop where
  up : h.ethUp p = true
  ip : h.get ETH_IP_ADDR p ≠ 0
  session : k < 4
  instant : h.now ≤ t

section
variable {h : Hw} {p k t : Nat} (hears : h.EthHears p k t) {src : Src} {op sq : Nat} {act : Hw → Hw}
include hears

theorem Hw.EthHears.goes_on : ¬ (!h.ethUp p || h.get ETH_IP_ADDR p == 0 || decide (3 < k) || decide (t < h.now)) = true := by
  obtain ⟨up, ip, session, instant⟩ := hears
  simp [up, ip, Nat.not_lt.mpr (Nat.le_of_lt_succ session), instant]

section
variable (free : h.session (p * 4 + k) = {})
include free

theorem Hw.ethReq_opens : h.ethReq p k src 1 sq t act = act ((h.ethHeard p t).modSess (p * 4 + k) (fun x => x.taken src t)) := by
  rw [Hw.ethReq, if_neg hears.goes_on]
  simp [Hw.heard_eq, Hw.ethHeard_session, free, SessS.taken]

theorem Hw.ethReq_closed (other : op ≠ 1) :
    h.ethReq p k src op sq t act = (h.ethHeard p t).ethSend (p * 4 + k) (statusRsp k op 4 sq src) := by
  rw [Hw.ethReq, if_neg hears.goes_on]
  simp [Hw.heard_eq, Hw.ethHeard_session, free, other, statusRsp]

end

theorem Hw.ethReq_foreign {o : Src} (owner : (h.session (p * 4 + k)).owner = some o) (other : o ≠ src)
    (used : (h.session (p * 4 + k)).idle = false) :
    h.ethReq p k src op sq t act = (h.ethHeard p t).ethSend (p * 4 + k) (statusRsp k op 5 sq src) := by
  rw [Hw.ethReq, if_neg hears.goes_on]
  simp [Hw.heard_eq, Hw.ethHeard_session, owner, other, used, statusRsp]

section
variable (owner : (h.session (p * 4 + k)).owner = some src) (new : (h.session (p * 4 + k)).last = none)
  (ready : (h.session (p * 4 + k)).wait = none)
include owner new ready

theorem Hw.ethReq_own : h.ethReq p k src op sq t act = act ((h.ethHeard p t).modSess (p * 4 + k) (fun x => x.heard t)) := by
  rw [Hw.ethReq, if_neg hears.goes_on]
  simp [Hw.heard_eq, Hw.ethHeard_session, owner, new, ready, SessS.heard]

/-! ### Reads and writes of the owner (R397, R414) -/

theorem Hw.ethRead_long {n : Nat} (a : Nat) (long : 8192 < n) :
    h.ethRead p k src sq a n t = ((h.ethHeard p t).modSess (p * 4 + k) (fun x => x.heard t)).ethDone (p * 4 + k) 3 sq 4 [] := by
  rw [Hw.ethRead, Hw.ethReq_own hears owner new ready]
  exact if_pos long

theorem Hw.ethRead_here {a n : Nat} (fits : n ≤ 8192) (here : h.isOwn (some (a / 2 ^ 40 % 2 ^ 12)) = true) :
    h.ethRead p k src sq a n t =
      ((((h.ethHeard p t).modSess (p * 4 + k) (fun x => x.heard t)).modSess (p * 4 + k) (fun x => { x with wait := some (3, sq) })).runJob
        { eth := true, from_ := p * 4 + k, seq := sq, addr := a % 2 ^ 40, left := n }).settle := by
  rw [Hw.ethRead, Hw.ethReq_own hears owner new ready]
  exact (if_neg (Nat.not_lt.mpr fits)).trans (if_pos ((h.ethHeard_isOwn p t _).trans here))

section
variable {a : Nat} {data : List Nat}

theorem Hw.ethWrite_long (long : 8192 < data.length) :
    h.ethWrite p k src sq a data t = ((h.ethHeard p t).modSess (p * 4 + k) (fun x => x.heard t)).ethDone (p * 4 + k) 4 sq 4 [] := by
  simp only [Hw.ethWrite, List.length_map]
  rw [Hw.ethReq_own hears owner new ready]
  exact if_pos long

variable (fits : data.length ≤ 8192)
include fits

theorem Hw.ethWrite_here (here : h.isOwn (some (a / 2 ^ 40 % 2 ^ 12)) = true) :
    h.ethWrite p k src sq a data t =
      ((((h.ethHeard p t).modSess (p * 4 + k) (fun x => x.heard t)).modSess (p * 4 + k) (fun x => { x with wait := some (4, sq) })).runJob
        { eth := true, from_ := p * 4 + k, seq := sq, addr := a % 2 ^ 40, left := data.length, write := true, data := data.map (· % 256) }).settle := by
  simp only [Hw.ethWrite, List.length_map]
  rw [Hw.ethReq_own hears owner new ready]
  exact (if_neg (Nat.not_lt.mpr fits)).trans (if_pos ((h.ethHeard_isOwn p t _).trans here))

theorem Hw.ethWrite_far (far : h.isOwn (some (a / 2 ^ 40 % 2 ^ 12)) = false) :
    h.ethWrite p k src sq a data t =
      (((h.ethHeard p t).modSess (p * 4 + k) (fun x => x.heard t)).modSess (p * 4 + k) (fun x => { x with wait := some (4, sq) })).reqSend
        { m := .eth p k, tag := 0, write := true, at_ := t, stn := a / 2 ^ 40 % 2 ^ 12, addr := a % 2 ^ 40, data := data.map (· % 256) } := by
  simp only [Hw.ethWrite, List.length_map]
  rw [Hw.ethReq_own hears owner new ready]
  exact (if_neg (Nat.not_lt.mpr fits)).trans (if_neg (ne_true_of_eq_false ((h.ethHeard_isOwn p t _).trans far)))

end

end

end

/-! ### Sessions that fall idle (R414), ARP and ICMP (R412), PTP (R413) -/

section
variable {h : Hw} {p k t ip : Nat}

theorem Hw.ethIdle_silent {src : Src} (ht : h.now ≤ t) (owner : (h.session (p * 4 + k)).owner = some src)
    (silent : (h.session (p * 4 + k)).at_ + 10000 * t1ms ≤ t) :
    h.ethIdle p k t = ({ h with now := t } : Hw).modSess (p * 4 + k) (fun x => { x with idle := true }) :=
  if_pos (by simp [owner, ht, silent])

variable (up : h.ethUp p = true)
include up

theorem Hw.icmpEcho_own (own : h.get ETH_IP_ADDR p = ip) (some_ : ip ≠ 0) : h.icmpEcho p ip = (h.inc ETH_RX_COUNT p).inc ETH_TX_COUNT p := by
  subst own
  simp [Hw.icmpEcho, up, some_]

theorem Hw.icmpEcho_other (other : h.get ETH_IP_ADDR p ≠ ip) : h.icmpEcho p ip = h.ethDropped p := by
  simp [Hw.icmpEcho, up, other]

variable (ht : h.now ≤ t)
include ht

theorem Hw.arpRequest_other (other : h.get ETH_IP_ADDR p ≠ ip) (n mac : Nat) :
    h.arpRequest p ip n mac t = ({ h with now := t } : Hw).ethDropped p := by
  rw [Hw.arpRequest, if_neg (by simp [up, ht])]
  exact if_neg fun own => other own.2

/-- The sender of a request for the port's address enters the port's empty cache. -/
theorem Hw.arpRequest_own (own : h.get ETH_IP_ADDR p = ip) (some_ : ip ≠ 0) (empty : tget h.line.arp p [] = []) (n mac : Nat) :
    h.arpRequest p ip n mac t =
      (({ h with now := t, line := { h.line with arp := tset h.line.arp p [(n, mac, t)] } } : Hw).inc ETH_RX_COUNT p).inc ETH_TX_COUNT p := by
  rw [Hw.arpRequest, if_neg (by simp [up, ht])]
  refine (if_pos ⟨own ▸ some_, own⟩).trans ?_
  simp only [empty, List.filter_nil, List.drop_nil, List.nil_append]

theorem Hw.ptpMessage_unlocked (en : h.flag ETH_PTP_EN p = true) (ofs : Int) (ns : Nat) :
    h.ptpMessage p t ofs ns false = ((h.ethHeard p t).putC ETH_PTP_OFS_NS p (sat32 ofs)).putB ETH_PTP_LOCK p false :=
  if_neg (by simp [up, ht, en])

end

theorem Hw.ptpMessage_off {h : Hw} {p : Nat} (off : h.flag ETH_PTP_EN p = false) (t : Nat) (ofs : Int) (ns : Nat) (lock : Bool) :
    h.ptpMessage p t ofs ns lock = h := if_pos (by simp [off])

/-- Settles O56: what a session answers, by who holds it; the session that falls idle; ARP, ICMP and PTP. -/
theorem ethernetServesItsSessions : Obligations.EthernetServesItsSessions := by
  intro s p k sq t a n ip mac ns src note data ofs ecc on up hip hk ht h j rsp
  have hears : s.hw.EthHears p k t := ⟨up, hip, hk, ht⟩
  have hearsRead : (s.hw.meets ecc).EthHears p k t := ⟨up, hip, hk, ht⟩
  refine ⟨fun free => ?opens, fun free => ⟨?closeFree, ?readFree, ?writeFree⟩, fun o owner other used => ⟨?openForeign, ?closeForeign, ?writeForeign⟩,
    fun owner new ready => ⟨?closes, fun long => ?readLong, fun fits here => ?readHere, fun long => ?writeLong, fun fits here => ?writeHere,
      fun fits far => ?writeFar⟩, fun owner silent => ?idle, fun own some_ => ?echo, fun other => ⟨?echoOther, ?arpOther⟩,
    fun own some_ empty => ?arp, fun en => ?ptp, fun off => ?ptpOff⟩
  case opens => rw [exec_ethOpen on, Hw.ethOpen, Hw.ethReq_opens hears free]; rfl
  case closeFree => rw [exec_ethClose on, Hw.ethClose, Hw.ethReq_closed hears free (by decide)]; rfl
  case readFree => rw [exec_ethRead on, Hw.ethRead, Hw.ethReq_closed hearsRead free (by decide)]; rfl
  case writeFree => rw [exec_ethWrite on, Hw.ethWrite, Hw.ethReq_closed hears free (by decide)]; rfl
  case openForeign => rw [exec_ethOpen on, Hw.ethOpen, Hw.ethReq_foreign hears owner other used]; rfl
  case closeForeign => rw [exec_ethClose on, Hw.ethClose, Hw.ethReq_foreign hears owner other used]; rfl
  case writeForeign => rw [exec_ethWrite on, Hw.ethWrite, Hw.ethReq_foreign hears owner other used]; rfl
  case closes => rw [exec_ethClose on, Hw.ethClose, Hw.ethReq_own hears owner new ready]; rfl
  case readLong => rw [exec_ethRead on, Hw.ethRead_long hearsRead owner new ready a long]; rfl
  case readHere => rw [exec_ethRead on, Hw.ethRead_here hearsRead owner new ready fits here]; rfl
  case writeLong => rw [exec_ethWrite on, Hw.ethWrite_long hears owner new ready long]; rfl
  case writeHere => rw [exec_ethWrite on, Hw.ethWrite_here hears owner new ready fits here]; rfl
  case writeFar => rw [exec_ethWrite on, Hw.ethWrite_far hears owner new ready fits far]; rfl
  case idle => rw [exec_ethSessionIdle on, Hw.ethIdle_silent ht owner silent]
  case echo => rw [exec_icmpEcho on, Hw.icmpEcho_own up own some_]
  case echoOther => rw [exec_icmpEcho on, Hw.icmpEcho_other up other]
  case arpOther => rw [exec_arpRequest on, Hw.arpRequest_other up ht other]
  case arp => rw [exec_arpRequest on, Hw.arpRequest_own up ht own some_ empty]
  case ptp => rw [exec_ptpMessage on, Hw.ptpMessage_unlocked up ht en]; rfl
  case ptpOff => rw [exec_ptpMessage on, Hw.ptpMessage_off off]

/-! ### Reset (R421) -/

/-- Settles O5: at reset memory is empty, and no command has been begun. -/
theorem resetIsSound : Obligations.ResetIsSound := ⟨rfl, rfl, rfl⟩

end Sys2Proof.Machine
end

section
/-! The arithmetic of the reference: rounding half away from zero, and the slew step (R82, R86, R87, R104, R182). -/

namespace Sys2Proof.Machine

/-! ### Rounding (R82, R104, R182) -/

/-- A magnitude rounds to the whole number `q` with `d * q` within half a `d` of it, above it where two are equally near. -/
theorem rdivN_near (n : Nat) {d : Nat} (hd : 0 < d) : 2 * (d * rdivN n d) ≤ 2 * n + d ∧ 2 * n < 2 * (d * rdivN n d) + d := by
  have whole : 2 * d * rdivN n d + (2 * n + d) % (2 * d) = 2 * n + d := Nat.div_add_mod (2 * n + d) (2 * d)
  have rest : (2 * n + d) % (2 * d) < 2 * d := Nat.mod_lt _ (by omega)
  rw [Nat.mul_assoc] at whole
  omega

theorem rdiv_natCast (n d : Nat) : rdiv n d = rdivN n d := by simp [rdiv, rdivN]

theorem rdiv_neg_natCast (n : Nat) {d : Nat} (hd : 0 < d) : rdiv (-n) d = -(rdivN n d : Int) := by
  rcases Nat.eq_zero_or_pos n with rfl | hn
  · have zero : rdivN 0 d = 0 := by rw [rdivN, Nat.mul_zero, Nat.zero_add, Nat.div_eq_of_lt (by omega)]
    rw [Nat.cast_zero, neg_zero, ← Nat.cast_zero, rdiv_natCast, zero]
    rfl
  · rw [rdiv, if_neg (by omega), Int.natAbs_neg, Int.natAbs_natCast, rdivN]

theorem rdiv_neg (a : Int) {d : Nat} (hd : 0 < d) : rdiv (-a) d = -rdiv a d := by
  obtain ⟨n, rfl | rfl⟩ := a.eq_nat_or_neg
  · rw [rdiv_neg_natCast n hd, rdiv_natCast]
  · rw [rdiv_neg_natCast n hd, neg_neg, neg_neg, rdiv_natCast]

/-- The magnitude of a rounding is the rounding of the magnitude, and its distance to the dividend is the magnitude's. -/
theorem rdiv_natAbs (a : Int) {d : Nat} (hd : 0 < d) :
    (rdiv a d).natAbs = rdivN a.natAbs d ∧ (d * rdiv a d - a).natAbs = ((d * rdivN a.natAbs d : Nat) - (a.natAbs : Int)).natAbs := by
  obtain ⟨n, rfl | rfl⟩ := a.eq_nat_or_neg
  · rw [rdiv_natCast, Int.natAbs_natCast, Int.natAbs_natCast, Nat.cast_mul]
    exact ⟨rfl, rfl⟩
  · rw [rdiv_neg_natCast n hd, Int.natAbs_neg, Int.natAbs_neg, Int.natAbs_natCast, Int.natAbs_natCast, mul_neg, ← neg_sub', Int.natAbs_neg,
      Nat.cast_mul]
    exact ⟨rfl, rfl⟩

/-- Settles O60: the magnitude's quotient is the nearest, the greater of two, and a negative number mirrors it. -/
theorem roundingIsHalfAwayFromZero : Obligations.RoundingIsHalfAwayFromZero := by
  intro a d hd
  obtain ⟨magnitude, distance⟩ := rdiv_natAbs a hd
  have near := rdivN_near a.natAbs hd
  rw [magnitude, distance]
  exact ⟨by omega, by omega, rdiv_neg a hd⟩

/-! ### The slew step (R86, R87) -/

theorem sx32_range (n : Nat) : -2 ^ 31 ≤ sx32 n ∧ sx32 n < 2 ^ 31 := by
  have := Nat.mod_lt n (show 0 < 2 ^ 32 by decide)
  unfold sx32
  split <;> omega

theorem Hw.code_range (h : Hw) (f : Fld) (i : Nat) : -2 ^ 31 ≤ h.code f i ∧ h.code f i < 2 ^ 31 := sx32_range _

/-- A code in range reads back from the word that stands for it (R1). -/
theorem sx32_u32 {x : Int} (low : -2 ^ 31 ≤ x) (high : x < 2 ^ 31) : sx32 (u32 x) = x := by
  unfold sx32 u32 toW
  split <;> omega

theorem Hw.code_putC_self (h : Hw) {f : Fld} (hf : f.width = 32) (i : Nat) {x : Int} (low : -2 ^ 31 ≤ x) (high : x < 2 ^ 31) :
    (h.putC f i x).code f i = x := by
  rw [Hw.code, Hw.putC, Hw.get_put_self, hf, sx32_mod, sx32_u32 low high]

section
variable {t r a b : Int}

theorem slewStep_up (below : r < t) : slewStep t r a b = r + min (t - r) a := if_pos below

theorem slewStep_down (above : t ≤ r) : slewStep t r a b = r - min (r - t) b := if_neg (by omega)

/-- A step with rates that are not negative ends between where it began and the target. -/
theorem slewStep_between (ha : 0 ≤ a) (hb : 0 ≤ b) : (r ≤ t → r ≤ slewStep t r a b ∧ slewStep t r a b ≤ t) ∧
    (t ≤ r → t ≤ slewStep t r a b ∧ slewStep t r a b ≤ r) := by
  rcases lt_or_ge r t with below | above
  · rw [slewStep_up below]; omega
  · rw [slewStep_down above]; omega

end

section
variable (h : Hw) {u : Nat}

theorem Hw.rates_ramp (ramp : (h.unit u).safe.ramp = true) :
    h.rates u = (min (h.get U_SLEW_SAFE_RATE u : Int) (h.get U_SLEW_CAP_RATE u), min (h.get U_SLEW_SAFE_RATE u : Int) (h.get U_SLEW_CAP_RATE u)) :=
  if_pos ramp

theorem Hw.rates_override {o : Nat} (off : (h.unit u).safe.ramp = false) (ovr : (h.unit u).ref.ovr = some o) :
    h.rates u = (min (o : Int) (h.get U_SLEW_CAP_RATE u), min (o : Int) (h.get U_SLEW_CAP_RATE u)) := by
  simp only [Hw.rates, off, ovr, Bool.false_eq_true, if_false]

theorem Hw.rates_set (off : (h.unit u).safe.ramp = false) (none_ : (h.unit u).ref.ovr = none) :
    h.rates u = (min (h.get U_SLEW_RISE_RATE u : Int) (h.get U_SLEW_CAP_RATE u), min (h.get U_SLEW_FALL_RATE u : Int) (h.get U_SLEW_CAP_RATE u)) := by
  simp only [Hw.rates, off, none_, Bool.false_eq_true, if_false]

variable (u)

theorem Hw.rates_nonneg : 0 ≤ (h.rates u).1 ∧ 0 ≤ (h.rates u).2 := by
  cases ramp : (h.unit u).safe.ramp with
  | true => rw [h.rates_ramp ramp]; omega
  | false => cases ovr : (h.unit u).ref.ovr with
    | none => rw [h.rates_set ramp ovr]; omega
    | some o => rw [h.rates_override ramp ovr]; omega

theorem Hw.slew_target (n : Nat) : (h.slew u n).code U_REF_TARGET_CODE u = h.code U_REF_TARGET_CODE u :=
  congrArg sx32 (h.get_put_pos u _ u (by decide))

theorem Hw.slew_slewed (n : Nat) : (h.slew u n).code U_REF_SLEWED_CODE u =
    slewStep (h.code U_REF_TARGET_CODE u) (h.code U_REF_SLEWED_CODE u) (h.rates u).1 (h.rates u).2 := by
  obtain ⟨rise, fall⟩ := h.rates_nonneg u
  have target := h.code_range U_REF_TARGET_CODE u
  have slewed := h.code_range U_REF_SLEWED_CODE u
  obtain ⟨up, down⟩ := slewStep_between (t := h.code U_REF_TARGET_CODE u) (r := h.code U_REF_SLEWED_CODE u) rise fall
  exact h.code_putC_self (f := U_REF_SLEWED_CODE) rfl u
    (x := slewStep (h.code U_REF_TARGET_CODE u) (h.code U_REF_SLEWED_CODE u) (h.rates u).1 (h.rates u).2) (by omega) (by omega)

end

/-- Settles O59: the code that a tick sets is the slew step's, which the rates bound and the target ends. -/
theorem slewedReferenceMovesTowardTheTarget : Obligations.SlewedReferenceMovesTowardTheTarget := by
  intro h u n t r cap r'
  have moved : r' = slewStep t r (h.rates u).1 (h.rates u).2 := h.slew_slewed u n
  have target : -2 ^ 31 ≤ t ∧ t < 2 ^ 31 := h.code_range _ u
  have slewed : -2 ^ 31 ≤ r ∧ r < 2 ^ 31 := h.code_range _ u
  obtain ⟨rise, fall⟩ := h.rates_nonneg u
  obtain ⟨up, down⟩ := slewStep_between (t := t) (r := r) rise fall
  rw [moved]
  refine ⟨⟨by omega, by omega⟩, fun d => slewStep_up (by omega), fun d => slewStep_down (by omega), ?same, up, down, h.rates_ramp,
    fun o => h.rates_override, h.rates_set, ?hold, ?reach, h.slew_target u n⟩
  case same => intro same; omega
  case hold =>
    intro zero
    rcases lt_or_ge r t with below | above
    · rw [slewStep_up below, zero]; omega
    · rw [slewStep_down above, zero]; omega
  case reach =>
    intro full
    rcases lt_or_ge r t with below | above
    · rw [slewStep_up below, full]; omega
    · rw [slewStep_down above, full]; omega

end Sys2Proof.Machine
end

section
/-! A host's references: the push into a unit's queue and the flush of what it holds (R50, R75 to R79). -/

namespace Sys2Proof.Machine

section
variable {s : State} {m : Master} {u : Nat} (hs : s.hears m) (hr : s.hw.reaches u = true)
include hs hr

theorem exec_refPush (v : Nat) : exec (.refPush m u v) s = s.wrote m (s.hw.unitWrite u 0x44 v) := State.run_unitWrite hs hr 0x44 v

theorem exec_refFlush : exec (.refFlush m u) s = s.wrote m (s.hw.unitWrite u 0x54 1) := State.run_unitWrite hs hr 0x54 1

end

section
variable {h : Hw} {u v : Nat}

theorem Hw.unitWrite_push (hm : (h.passGuard u).isMember u = false) : h.unitWrite u 0x44 v = (h.passGuard u).refPush u v := by
  simp [Hw.unitWrite, hm]

theorem Hw.unitWrite_flush (hm : (h.passGuard u).isMember u = false) : h.unitWrite u 0x54 1 = (h.passGuard u).refFlush u := by
  simp [Hw.unitWrite, hm, bit]

/-- The unit with a reference behind the others of its queue. -/
def UnitS.pushed (v : Nat) (x : UnitS) : UnitS := { x with ref := { x.ref with q := x.ref.q ++ [{ value := sx32 v }] } }

section
variable (hr : h.reaches u = true) (hm : h.isMember u = false)
include hr hm

theorem Hw.refPush_ignored (host : h.ttOwns u = true ∨ (h.unit u).safe.ramp = true) : h.refPush u v = h.put U_REF_STAT_HOST_IGN u 1 := by
  rw [Hw.refPush, if_neg (by simp [hr]), if_neg (by simp [hm]), if_pos (by simpa using host)]

section
variable (tt : h.ttOwns u = false) (ramp : (h.unit u).safe.ramp = false)
include tt ramp

theorem Hw.refPush_enters (room : (h.unit u).ref.q.length < 32) : h.refPush u v = h.modU u (UnitS.pushed v) := by
  rw [Hw.refPush, if_neg (by simp [hr]), if_neg (by simp [hm]), if_neg (by simp [tt, ramp]), if_neg (by omega)]
  rfl

theorem Hw.refPush_drops (full : 32 ≤ (h.unit u).ref.q.length) : h.refPush u v = (h.put U_REF_STAT_FULL u 1).inc U_REF_DROP_COUNT u := by
  rw [Hw.refPush, if_neg (by simp [hr]), if_neg (by simp [hm]), if_neg (by simp [tt, ramp]), if_pos full]

end

section
variable (idle : h.flag U_REF_CMD_FLUSH u = false)
include idle

theorem Hw.refFlush_waits (runs : h.runs u = true) :
    h.refFlush u = (h.put U_REF_CMD_FLUSH u 1).modU u (fun x => { x with ref := { x.ref with flush := x.ref.q.length } }) := by
  rw [Hw.refFlush, if_neg (by simp [hr]), if_neg (by simp [hm]), if_neg (by simp [idle]), if_pos runs]

theorem Hw.refFlush_empties (stands : h.runs u = false) :
    h.refFlush u = h.modU u (fun x => { x with ref := { x.ref with q := [], ready := 0 } }) := by
  rw [Hw.refFlush, if_neg (by simp [hr]), if_neg (by simp [hm]), if_neg (by simp [idle]), if_neg (by simp [stands])]

end

end

/-- A push leaves every unit as it was, or finds room in its unit's queue and enters it. -/
theorem Hw.refPush_units (h : Hw) (u v : Nat) :
    (h.refPush u v).units = h.units ∨ ((h.unit u).ref.q.length < 32 ∧ h.refPush u v = h.modU u (UnitS.pushed v)) := by
  by_cases change : (h.unit u).ref.q.length < 32 ∧ h.refPush u v = h.modU u (UnitS.pushed v)
  · exact .inr change
  · left
    cases reach : h.reaches u with
    | false => rw [Hw.refPush, if_pos (by simp [reach])]
    | true => cases member : h.isMember u with
      | true => rw [Hw.refPush, if_neg (by simp [reach]), if_pos member]; rfl
      | false =>
        by_cases host : h.ttOwns u = true ∨ (h.unit u).safe.ramp = true
        · rw [Hw.refPush_ignored reach member host]; rfl
        · obtain ⟨tt, ramp⟩ : h.ttOwns u = false ∧ (h.unit u).safe.ramp = false := by simpa using host
          rcases Nat.lt_or_ge (h.unit u).ref.q.length 32 with room | full
          · exact absurd ⟨room, Hw.refPush_enters reach member tt ramp room⟩ change
          · rw [Hw.refPush_drops reach member tt ramp full]; rfl

end

/-- Settles O20: the push and the flush case by case, and the queue's bound from the room that a push finds. -/
theorem referencesQueueInOrder : Obligations.ReferencesQueueInOrder := by
  refine ⟨fun s m u v hs hr => ?host, fun h u v w bound => ?queue⟩
  case host =>
    intro h reach
    refine ⟨fun hm tt ramp => ⟨fun room => ?enters, fun full => ?drops⟩, fun hm host => ?ignored, fun hm => ⟨?pushMember, ?flushMember⟩,
      fun hm idle runs => ?waits, fun hm idle stands => ?empties⟩
    case enters =>
      rw [exec_refPush hs hr, Hw.unitWrite_push hm, Hw.refPush_enters reach hm tt ramp room]
      rfl
    case drops => rw [exec_refPush hs hr, Hw.unitWrite_push hm, Hw.refPush_drops reach hm tt ramp full]
    case ignored => rw [exec_refPush hs hr, Hw.unitWrite_push hm, Hw.refPush_ignored reach hm host]
    case pushMember => rw [exec_refPush hs hr, Hw.unitWrite_member hm (by decide)]
    case flushMember => rw [exec_refFlush hs hr, Hw.unitWrite_member hm (by decide)]
    case waits => rw [exec_refFlush hs hr, Hw.unitWrite_flush hm, Hw.refFlush_waits reach hm idle runs]
    case empties => rw [exec_refFlush hs hr, Hw.unitWrite_flush hm, Hw.refFlush_empties reach hm idle stands]
  case queue =>
    rcases h.refPush_units u v with stand | ⟨room, entered⟩
    · have same : (h.refPush u v).unit w = h.unit w := by rw [Hw.unit, stand, Hw.unit]
      rw [same]
      exact ⟨bound w, .inl rfl⟩
    · rw [entered]
      by_cases hw : w = u
      · subst hw
        rw [Hw.modU_unit_self, UnitS.pushed, List.length_append]
        exact ⟨room, .inr ⟨rfl, rfl⟩⟩
      · rw [h.modU_unit_ne u _ w hw]
        exact ⟨bound w, .inl rfl⟩

end Sys2Proof.Machine
end

section
/-! Faults of a unit: its supervisions at their thresholds, and its drive buffer's temperature comparator (R92, R122, R135 to R137, R340). -/

namespace Sys2Proof.Machine

/-! ### Supervisions (R122, R135 to R137, R340) -/

section
variable {s : State} {u : Nat} (on : s.on) (tail : (s.hw.unit (s.hw.headOf u)).tail = true)
include on tail

/-- A supervision of a unit whose tick is not finished is made, and the rest of the tick may follow. -/
theorem State.run_faultRow (f : Hw → Hw) : s.run (fun h => h.faultRow u f) = s.to ((f s.hw).tailIf (s.hw.headOf u)) :=
  (s.run_live _ on).trans (congrArg s.to (if_pos tail))

theorem exec_lateFault : exec (.lateFault u) s = s.to ((s.hw.lateFault u).tailIf (s.hw.headOf u)) := State.run_faultRow on tail (·.lateFault u)

theorem exec_feFault : exec (.feFault u) s = s.to ((s.hw.feFault u).tailIf (s.hw.headOf u)) := State.run_faultRow on tail (·.feFault u)

theorem exec_senseFault : exec (.senseFault u) s = s.to ((s.hw.senseFault u).tailIf (s.hw.headOf u)) := State.run_faultRow on tail (·.senseFault u)

theorem exec_frozenFault : exec (.frozenFault u) s = s.to ((s.hw.frozenFault u).tailIf (s.hw.headOf u)) :=
  State.run_faultRow on tail (·.frozenFault u)

theorem exec_ceilFault : exec (.ceilFault u) s = s.to ((s.hw.ceilFault u).tailIf (s.hw.headOf u)) := State.run_faultRow on tail (·.ceilFault u)

end

section
variable {h : Hw} {u : Nat}

theorem Hw.lateFault_raises (new : (h.unit u).wat.rLate = false) (due : max 1 (h.get U_LATE_CFG_LATE_RUN u) ≤ h.get U_LATE_STAT_RUN u) :
    h.lateFault u = (h.modW u (fun w => { w with rLate := true })).raise u 1 := if_pos (by simp [new, due])

theorem Hw.lateFault_waits (short : h.get U_LATE_STAT_RUN u < max 1 (h.get U_LATE_CFG_LATE_RUN u)) : h.lateFault u = h :=
  if_neg (by simp only [Bool.and_eq_true, decide_eq_true_eq]; omega)

theorem Hw.feFault_raises (new : (h.unit u).wat.rFe = false) (due : max 1 (h.get U_FE_CFG_FE_TIME u) ≤ h.get U_SUP_STAT_FE_RUN u) :
    h.feFault u = (h.modW u (fun w => { w with rFe := true })).raise u 2 := if_pos (by simp [new, due])

theorem Hw.feFault_waits (short : h.get U_SUP_STAT_FE_RUN u < max 1 (h.get U_FE_CFG_FE_TIME u)) : h.feFault u = h :=
  if_neg (by simp only [Bool.and_eq_true, decide_eq_true_eq]; omega)

theorem Hw.senseFault_raises (new : (h.unit u).wat.rSlw = false) (due : max 1 (h.get U_SENSE_CFG_SLW_N u) ≤ h.get U_SUP_STAT_SLW_RUN u) :
    h.senseFault u = (h.modW u (fun w => { w with rSlw := true })).raise u 4 := if_pos (by simp [new, due])

theorem Hw.senseFault_waits (short : h.get U_SUP_STAT_SLW_RUN u < max 1 (h.get U_SENSE_CFG_SLW_N u)) : h.senseFault u = h :=
  if_neg (by simp only [Bool.and_eq_true, decide_eq_true_eq]; omega)

/-- A run of equal voltage samples with too wide a spread of the drive (R137). -/
theorem Hw.frozenFault_raises (new : (h.unit u).wat.rFrz = false) (long : max 2 (h.get U_FRZ_CFG_FRZ_N u) ≤ (h.unit u).wat.fv.shown)
    (wide : (h.get U_FRZ_D_CODE u : Int) < (h.unit u).wat.fv.hi - (h.unit u).wat.fv.lo) :
    h.frozenFault u = (h.modW u (fun w => { w with rFrz := true })).raise u 3 := if_pos (by simp [Hw.frzDue, new, long, wide])

theorem Hw.ceilFault_raises (hu : isPlain u = true) (new : (h.unit (h.headOf u)).wat.rCeil = false)
    (due : max 1 (h.get U_ILK_CFG_CEIL_N u) ≤ (h.unit u).wat.cv ∨ max 1 (h.get U_ILK_CFG_CEIL_N u) ≤ (h.unit u).wat.ci ∨
      max 1 (h.get U_ILK_CFG_CEIL_N u) ≤ (h.unit u).wat.cp) :
    h.ceilFault u = (h.modW (h.headOf u) (fun w => { w with rCeil := true })).raise u 5 :=
  if_pos (by simpa only [Hw.ceilDue, hu, new, Bool.not_false, Bool.true_and, Bool.or_eq_true, decide_eq_true_eq, or_assoc] using due)

end

/-! ### The comparator of a drive buffer (R92) -/

theorem exec_drvOtTrip {s : State} (on : s.on) (u : Nat) : exec (.drvOtTrip u) s = s.to (s.hw.drvOtTrip u) :=
  s.run_live (fun h => h.drvOtTrip u) on

theorem exec_drvOtRelease {s : State} (on : s.on) (u : Nat) : exec (.drvOtRelease u) s = s.to (s.hw.drvOtRelease u) :=
  s.run_live (fun h => h.drvOtRelease u) on

/-- The comparator that unit `m`'s DRV_OT shows stands tripped: its own buffer's, or that of the siding that serves it. -/
def Hw.hot (h : Hw) (m : Nat) : Bool := (h.unit m).ot || (match h.servedBy m with | some s => (h.unit s).ot | none => false)

/-- Unit `u` with its buffer's comparator as given. -/
def Hw.setOt (h : Hw) (u : Nat) (b : Bool) : Hw := h.modU u (fun x => { x with ot := b })

section
variable (h : Hw) (m : Nat)

theorem Hw.otShow_eq : h.otShow m = if h.hot m = true then (h.putB U_DRV_STAT_DRV_OT m (h.hot m)).put U_DRV_STAT_DRV_OT_SEEN m 1
    else h.putB U_DRV_STAT_DRV_OT m (h.hot m) := rfl

theorem Hw.otShow_units : (h.otShow m).units = h.units := by
  rw [h.otShow_eq]
  split <;> rfl

theorem Hw.otShow_hot (k : Nat) : (h.otShow m).hot k = h.hot k := by
  have same : (h.otShow m).unit = h.unit := by
    funext j
    rw [Hw.unit, h.otShow_units, Hw.unit]
  unfold Hw.hot Hw.servedBy
  rw [same]

/-- A field set for one unit or die reads as the value there, and as before for every other. -/
theorem Hw.get_put_inst (f : Fld) (v k : Nat) : (h.put f m v).get f k = if k = m then v % 2 ^ f.width else h.get f k := by
  rw [h.get_put]
  simp only [Fld.key, RegKey.mk.injEq, true_and, and_true]

/-- DRV_OT of a unit shown is its comparator's; every other unit's stands. -/
theorem Hw.otShow_flag (k : Nat) : (h.otShow m).flag U_DRV_STAT_DRV_OT k = if k = m then h.hot m else h.flag U_DRV_STAT_DRV_OT k := by
  have shown : (h.putB U_DRV_STAT_DRV_OT m (h.hot m)).flag U_DRV_STAT_DRV_OT k = if k = m then h.hot m else h.flag U_DRV_STAT_DRV_OT k := by
    split
    · next hk => rw [hk, Hw.flag_putB_self _ _ _ _ rfl]
    · next hk => rw [Hw.flag, Hw.putB, h.get_put_inst, if_neg hk, Hw.flag]
  rw [h.otShow_eq]
  split
  · rw [Hw.flag, Hw.get_put_pos _ _ _ _ (by decide)]
    exact shown
  · exact shown

/-- DRV_OT_SEEN stays, and is set where the comparator stands tripped. -/
theorem Hw.otShow_seen (k : Nat) : (h.otShow m).flag U_DRV_STAT_DRV_OT_SEEN k = (h.flag U_DRV_STAT_DRV_OT_SEEN k || (decide (k = m) && h.hot m)) := by
  have stands : (h.putB U_DRV_STAT_DRV_OT m (h.hot m)).get U_DRV_STAT_DRV_OT_SEEN k = h.get U_DRV_STAT_DRV_OT_SEEN k :=
    h.get_put_pos _ _ _ (by decide)
  rw [h.otShow_eq]
  split
  · next hot =>
    rw [Hw.flag, Hw.get_put_inst, stands, hot]
    by_cases hk : k = m <;> simp [hk, Hw.flag, show U_DRV_STAT_DRV_OT_SEEN.width = 1 from rfl]
  · next hot => rw [Hw.flag, stands, Bool.eq_false_iff.mpr hot, Bool.and_false, Bool.or_false, Hw.flag]

end

section
variable (h : Hw) {u : Nat}

theorem Hw.setOt_unit_ot (u : Nat) (b : Bool) : ((h.setOt u b).unit u).ot = b := by rw [Hw.setOt, Hw.modU_unit_self]

theorem Hw.setOt_sid (u : Nat) (b : Bool) (k : Nat) : ((h.setOt u b).unit k).sid = (h.unit k).sid := by
  by_cases hk : k = u
  · subst hk
    rw [Hw.setOt, Hw.modU_unit_self]
  · rw [Hw.setOt, h.modU_unit_ne u _ k hk]

/-- The channel that a siding serves is served by it. -/
theorem Hw.servedUnit_cases (u : Nat) : h.servedUnit u = u ∨ h.servedBy (h.servedUnit u) = some u := by
  unfold Hw.servedUnit
  split
  · cases found : ((List.range 32).map (· + ownDie u * 32)).find? (fun m => h.servedBy m == some u) with
    | none => exact .inl rfl
    | some m => exact .inr (by simpa using List.find?_some found)
  · exact .inl rfl

/-- A buffer that trips is shown tripped for the unit and for the channel whose buffer it is. -/
theorem Hw.setOt_hot (k : Nat) (hk : k = u ∨ k = h.servedUnit u) : (h.setOt u true).hot k = true := by
  have served : k = u ∨ h.servedBy k = some u := by
    rcases hk with rfl | rfl
    · exact .inl rfl
    · exact h.servedUnit_cases u
  rcases served with rfl | served
  · rw [Hw.hot, h.setOt_unit_ot k, Bool.true_or]
  · have by_ : (h.setOt u true).servedBy k = some u := (h.setOt_sid u true k).trans served
    simp only [Hw.hot, by_, h.setOt_unit_ot, Bool.or_true]

theorem Hw.setOt_not_hot (none_ : h.servedBy u = none) : (h.setOt u false).hot u = false := by
  have by_ : (h.setOt u false).servedBy u = none := (h.setOt_sid u false u).trans none_
  simp only [Hw.hot, by_, h.setOt_unit_ot, Bool.or_false]

/-- What a trip and a release show of a unit's buffer, of the unit and of the channel whose buffer it is. -/
def Hw.otShown (u : Nat) (b : Bool) : Hw := ((h.setOt u b).otShow u).otShow (h.servedUnit u)

theorem Hw.otShown_trip (k : Nat) (hk : k = u ∨ k = h.servedUnit u) :
    (h.otShown u true).flag U_DRV_STAT_DRV_OT k = true ∧ (h.otShown u true).flag U_DRV_STAT_DRV_OT_SEEN k = true := by
  have hot := h.setOt_hot k hk
  have other := h.setOt_hot (u := u) (h.servedUnit u) (.inr rfl)
  have own := h.setOt_hot (u := u) u (.inl rfl)
  simp only [Hw.otShown, Hw.otShow_flag, Hw.otShow_seen, Hw.otShow_hot, other, own]
  rcases hk with rfl | rfl <;> simp

theorem Hw.otShown_release (none_ : h.servedBy u = none) (self : h.servedUnit u = u) : (h.otShown u false).flag U_DRV_STAT_DRV_OT u = false := by
  rw [Hw.otShown, self, Hw.otShow_flag, if_pos rfl, Hw.otShow_hot, h.setOt_not_hot none_]

theorem Hw.otShown_seen (b : Bool) (k : Nat) (seen : h.flag U_DRV_STAT_DRV_OT_SEEN k = true) :
    (h.otShown u b).flag U_DRV_STAT_DRV_OT_SEEN k = true := by
  have stands : (h.setOt u b).flag U_DRV_STAT_DRV_OT_SEEN k = true := seen
  rw [Hw.otShown, Hw.otShow_seen, Hw.otShow_seen, stands, Bool.true_or, Bool.true_or]

theorem Hw.drvOtTrip_trips (hu : isPlain u = true) (up : h.dieUp (ownDie u) = true) (new : (h.unit u).ot = false) :
    h.drvOtTrip u = (h.otShown u true).faultLater (h.servedUnit u) 6 9 := if_neg (by simp [hu, up, new])

theorem Hw.drvOtTrip_stands (tripped : (h.unit u).ot = true) : h.drvOtTrip u = h := if_pos (by simp [tripped])

theorem Hw.drvOtRelease_plain (hu : isPlain u = true) : h.drvOtRelease u = h.otShown u false := if_pos hu

end

/-- Settles O18: each supervision at and below its threshold, and the comparator by what its trip and its release show. -/
theorem faultsOfAUnitAreRaised : Obligations.FaultsOfAUnitAreRaised := by
  refine ⟨fun s u on tail => ?supervisions, fun s u on hu => ⟨?trip, fun tripped => ?stands, ?release⟩⟩
  case supervisions =>
    refine ⟨fun new due => ?late, fun short => ?lateNot, fun new due => ?fe, fun short => ?feNot, fun new due => ?slw, fun short => ?slwNot,
      fun new due => ?frz, fun hu new due => ?ceil⟩
    case late => rw [exec_lateFault on tail, Hw.lateFault_raises new due]
    case lateNot => rw [exec_lateFault on tail, Hw.lateFault_waits short]
    case fe => rw [exec_feFault on tail, Hw.feFault_raises new due]
    case feNot => rw [exec_feFault on tail, Hw.feFault_waits short]
    case slw => rw [exec_senseFault on tail, Hw.senseFault_raises new due]
    case slwNot => rw [exec_senseFault on tail, Hw.senseFault_waits short]
    case frz =>
      obtain ⟨long, wide⟩ := due
      rw [exec_frozenFault on tail, Hw.frozenFault_raises new long wide]
    case ceil => rw [exec_ceilFault on tail, Hw.ceilFault_raises hu new due]
  case trip =>
    intro h up new
    exact ⟨by rw [exec_drvOtTrip on, s.hw.drvOtTrip_trips hu up new]; rfl, s.hw.otShown_trip⟩
  case stands => rw [exec_drvOtTrip on, s.hw.drvOtTrip_stands tripped]
  case release =>
    intro h
    exact ⟨by rw [exec_drvOtRelease on, s.hw.drvOtRelease_plain hu]; rfl, s.hw.otShown_release, s.hw.otShown_seen false⟩

end Sys2Proof.Machine
end

section
/-! Points and ranges: the points bus, a write of U_RANGE_SEL, and what a range change does before and after its unit's ticks (R98, R189 to
R193, R199 to R207). -/

namespace Sys2Proof.Machine

/-! ### The points bus (R98, R191 to R193) -/

section
variable {s : State} (on : s.on) (d t : Nat)
include on

theorem exec_pointsInit (rbs : List Nat) : exec (.pointsInit d rbs) s = s.to (s.hw.pointsInit d rbs) := s.run_live (fun h => h.pointsInit d rbs) on

theorem exec_pointsLatch : exec (.pointsLatch d t) s = s.to (s.hw.ptsLatch d t) := s.run_live (fun h => h.ptsLatch d t) on

theorem exec_pointsReadback (rb : Nat) : exec (.pointsReadback d t rb) s = s.to (s.hw.ptsReadback d t rb) :=
  s.run_live (fun h => h.ptsReadback d t rb) on

end

section
variable {h : Hw} {d t rb : Nat} {op : PtsOp}

/-- The 33 operations of the power-up sequence take 1650 PBCLK periods. -/
theorem Hw.pointsInit_begins {rbs : List Nat} (up : h.dieUp d = true) (early : h.now ≤ t1ms) (boot : h.get STN_BOOT_STEP 0 ≤ 5)
    (idle : (h.die d).pts.cur = none) :
    h.pointsInit d rbs =
      ({ h.modD d (fun x => { x with pts := { x.pts with initAt := some (max h.now t100us) } }) with
        now := max h.now t100us + 1650 * h.pbTicks d } : Hw).ptsInit d rbs := by
  rw [Hw.pointsInit, if_pos (by simp [up, early, boot, idle])]
  rfl

/-- The bus as an operation's pattern is latched. -/
def Hw.latchShown (h : Hw) (d t : Nat) (op : PtsOp) : Hw :=
  (({ h with now := max h.now t } : Hw).put U_PTS_STAT_PAT (posUnit d op.ch) op.pat).setPts d { (h.die d).pts with latched := true, lam := t }

/-- A readback is shown. -/
def Hw.readShown (h : Hw) (d t rb : Nat) (op : PtsOp) : Hw := ({ h with now := max h.now t } : Hw).put U_PTS_STAT_RB (posUnit d op.ch) rb

theorem Hw.ptsLatch_latches (cur : (h.die d).pts.cur = some op) (new : (h.die d).pts.latched = false) (due : t = h.ptsLam d) :
    h.ptsLatch d t = (h.latchShown d t op).ptsLatched d t op := by
  simp only [Hw.ptsLatch, Hw.latchShown, cur]
  rw [if_neg (by simp [new, due])]

theorem Hw.ptsLatch_nothing (other : (h.die d).pts.cur = none ∨ t ≠ h.ptsLam d) : h.ptsLatch d t = h := by
  cases cur : (h.die d).pts.cur with
  | none => simp only [Hw.ptsLatch, cur]
  | some op =>
    have wrong : t ≠ h.ptsLam d := by simpa [cur] using other
    simp only [Hw.ptsLatch, cur]
    exact if_pos (by simp [wrong])

theorem Hw.ptsReadback_nothing (other : (h.die d).pts.cur = none ∨ t ≠ h.ptsEnd d) : h.ptsReadback d t rb = h := by
  cases cur : (h.die d).pts.cur with
  | none => simp only [Hw.ptsReadback, cur]
  | some op =>
    have wrong : t ≠ h.ptsEnd d := by simpa [cur] using other
    simp only [Hw.ptsReadback, cur]
    exact if_pos (by simp [wrong])

section
variable (cur : (h.die d).pts.cur = some op) (latched : (h.die d).pts.latched = true) (due : t = h.ptsEnd d)
include cur latched due

theorem Hw.ptsReadback_differs (differs : rb % 65536 ≠ op.pat) :
    h.ptsReadback d t rb = ((h.readShown d t rb op).ptsMismatch d t op).ptsNext d := by
  simp only [Hw.ptsReadback, cur, if_neg differs]
  rw [if_neg (by simp [latched, due])]
  rfl

theorem Hw.ptsReadback_image (same : rb % 65536 = op.pat) (image : op.why = .image) :
    h.ptsReadback d t rb = ((h.readShown d t rb op).modU (posUnit d op.ch) (fun x => { x with safeLatched := true })).ptsNext d := by
  simp only [Hw.ptsReadback, cur, if_pos same, image]
  rw [if_neg (by simp [latched, due])]
  rfl

end

end

/-! ### A write of U_RANGE_SEL (R207) -/

theorem exec_rangeSelWrite {s : State} {m : Master} {u : Nat} (hs : s.hears m) (hr : s.hw.reaches u = true) (v : Nat) :
    exec (.rangeSelWrite m u v) s = s.wrote m (s.hw.unitWrite u 0x400 v) := State.run_unitWrite hs hr 0x400 v

theorem Hw.unitWrite_rangeSel (h : Hw) {u v : Nat} (hm : (h.passGuard u).isMember u = false) :
    h.unitWrite u 0x400 v = (h.passGuard u).rangeSel u v := by
  simp [Hw.unitWrite, hm]

theorem Hw.rangeSel_waits {h : Hw} {u v : Nat} (hr : h.reaches u = true) (hm : h.isMember u = false) (plain : bit v 9 = false)
    (runs : h.runs u = true) :
    h.rangeSel u v = h.modU u (fun x => { x with pend := x.pend ++ [{ act := .range (bits v 3 0) (bits v 5 4) (7 + 8 * bits v 8 8) }] }) := by
  simp only [Hw.rangeSel, hr, hm, plain, runs, Bool.not_true, Bool.false_eq_true, if_false, if_true]

/-! ### Before and after a unit's ticks (R199 to R203) -/

/-- What follows the last tick of a unit whose tick is finished, before the period's work is planned again. -/
theorem Hw.postTick_due {h : Hw} {u : Nat} (hu : isUnit u = true) (runs : h.runs u = true) (head : h.headOf u = u)
    (ticked : (h.unit u).clk.ticked = true) (tail : (h.unit u).tail = false) (f : Hw → Hw) : h.postTick u f = ((f h).plan u).tkoReactAll u := by
  rw [Hw.postTick, if_pos (by simp [hu, runs, head, ticked]), Hw.finishTick_of_done tail]

/-- What precedes tick `n` of a unit whose last tick is finished. -/
theorem Hw.preTick_finished {h : Hw} {u n : Nat} (due : h.tickOk u n = true) (tail : (h.unit u).tail = false) (f : Hw → Hw) :
    h.preTick u n f = (f h).tkoReactAll u := by
  rw [Hw.preTick_due due, Hw.finishTick_of_done tail]

section
variable {s : State} (on : s.on) (u n : Nat)
include on

theorem exec_autorangeDown : exec (.autorangeDown u) s =
    s.to (s.hw.postTick u fun h => if h.downDue u then h.startChange u (h.ient u (h.irng u)).dn (h.unit u).clk.last else h) :=
  s.run_live (fun h => h.postTick u _) on

theorem exec_armingExpire : exec (.armingExpire u) s =
    s.to (s.hw.postTick u fun h => if h.armDue u then h.refuteArm u (h.unit u).clk.last else h) := s.run_live (fun h => h.postTick u _) on

theorem exec_changeDesignate : exec (.changeDesignate u n) s = s.to (s.hw.preTick u n fun h => if h.desDue u n then h.designate u n else h) :=
  s.run_live (fun h => h.preTick u n _) on

theorem exec_changeRetarget : exec (.changeRetarget u n) s = s.to (s.hw.preTick u n fun h => if h.retargetDue u n then h.retargetIs u n else h) :=
  s.run_live (fun h => h.preTick u n _) on

theorem exec_changeBreak : exec (.changeBreak u n) s = s.to (s.hw.preTick u n fun h => if h.breakDue u n then h.requestBreak u n else h) :=
  s.run_live (fun h => h.preTick u n _) on

theorem exec_changeReturn : exec (.changeReturn u n) s = s.to (s.hw.preTick u n fun h => if h.returnDue u n then h.returnIs u n else h) :=
  s.run_live (fun h => h.preTick u n _) on

end

/-- Settles O27: the bus by its latch and its readback, and each phase of a change by whether it is due. -/
theorem pointsAndRangesChangeInPhases : Obligations.PointsAndRangesChangeInPhases := by
  refine ⟨fun s d t rb rbs op on => ⟨fun up early boot idle => ?init, fun cur new due => ?latch, fun cur latched due differs => ?differs,
    fun cur latched due same image => ?image, fun other => ?noLatch, fun other => ?noRead⟩, fun s m u v n on => ⟨?select,
    fun hu runs head ticked tail => ?after, fun due tail => ?before⟩⟩
  case init => exact (exec_pointsInit on d rbs).trans (congrArg s.to (Hw.pointsInit_begins up early boot idle))
  case latch => exact (exec_pointsLatch on d t).trans (congrArg s.to (Hw.ptsLatch_latches cur new due))
  case differs => exact (exec_pointsReadback on d t rb).trans (congrArg s.to (Hw.ptsReadback_differs cur latched due differs))
  case image => exact (exec_pointsReadback on d t rb).trans (congrArg s.to (Hw.ptsReadback_image cur latched due same image))
  case noLatch => rw [exec_pointsLatch on, Hw.ptsLatch_nothing other]
  case noRead => rw [exec_pointsReadback on, Hw.ptsReadback_nothing other]
  case select =>
    intro h serves hr reach hm plain runs
    rw [exec_rangeSelWrite ⟨on, serves⟩ hr, Hw.unitWrite_rangeSel _ hm, Hw.rangeSel_waits reach hm plain runs]
  case after =>
    rw [exec_autorangeDown on, exec_armingExpire on, Hw.postTick_due hu runs head ticked tail, Hw.postTick_due hu runs head ticked tail]
    exact ⟨fun down => by rw [if_pos down], fun arm => by rw [if_pos arm], fun down => by rw [down, if_neg (by decide)],
      fun arm => by rw [arm, if_neg (by decide)]⟩
  case before =>
    rw [exec_changeDesignate on, exec_changeRetarget on, exec_changeBreak on, exec_changeReturn on, Hw.preTick_finished due tail,
      Hw.preTick_finished due tail, Hw.preTick_finished due tail, Hw.preTick_finished due tail]
    exact ⟨fun des => by rw [if_pos des], fun target => by rw [if_pos target], fun brk => by rw [if_pos brk], fun back => by rw [if_pos back],
      fun des => by rw [des, if_neg (by decide)]⟩

end Sys2Proof.Machine
end

section
/-! What a unit's tick has left to do, and its guard instant, leave memory as it stands: the bytes that they write enter it when the command
ends (R8). One lemma for each operation of the model that they are made of, in the model's order; an operation of a few updates that only one
other uses is unfolded with that one. -/

namespace Sys2Proof.Machine

/-- What memory holds. The name keeps `simp` from seeing through an operation to the field that it leaves alone: it rewrites by the lemma about
the operation. -/
def Hw.stored (h : Hw) : List Host.Cell := h.mem

theorem Hw.stored_congr {h g : Hw} (same : g.mem = h.mem) : g.stored = h.stored := by rw [Hw.stored, same, Hw.stored]

@[simp] theorem Hw.ite_stored {c : Prop} [Decidable c] (g k : Hw) : (if c then g else k).stored = if c then g.stored else k.stored :=
  apply_ite Hw.stored c g k

@[simp] theorem Hw.each_stored {α : Type} {l : List α} {f : Hw → α → Hw} (hf : ∀ x a, (f x a).stored = x.stored) (h : Hw) :
    (h.each l f).stored = h.stored :=
  Hw.each_keeps (P := fun g => g.stored = h.stored) rfl fun x a hx => (hf x a).trans hx

section
variable (h : Hw)

@[simp] theorem Hw.put_stored (f : Fld) (i v k : Nat) : (h.put f i v k).stored = h.stored := Hw.stored_congr rfl

@[simp] theorem Hw.modU_stored (u : Nat) (f : UnitS → UnitS) : (h.modU u f).stored = h.stored := Hw.stored_congr rfl

@[simp] theorem Hw.modE_stored (e : Nat) (f : EngS → EngS) : (h.modE e f).stored = h.stored := Hw.stored_congr rfl

@[simp] theorem Hw.modD_stored (d : Nat) (f : DieS → DieS) : (h.modD d f).stored = h.stored := Hw.stored_congr rfl

@[simp] theorem Hw.modC_stored (c : Nat) (f : CapS → CapS) : (h.modC c f).stored = h.stored := Hw.stored_congr rfl

@[simp] theorem Hw.modP_stored (p : Nat) (f : PortS → PortS) : (h.modP p f).stored = h.stored := Hw.stored_congr rfl

/-! ### Registers and bytes -/

@[simp] theorem Hw.putC_stored (f : Fld) (inst : Nat) (x : Int) (i : Nat) : (h.putC f inst x i).stored = h.stored := by simp [Hw.putC]

@[simp] theorem Hw.putB_stored (f : Fld) (inst : Nat) (b : Bool) (i : Nat) : (h.putB f inst b i).stored = h.stored := by simp [Hw.putB]

@[simp] theorem Hw.inc_stored (f : Fld) (inst i : Nat) : (h.inc f inst i).stored = h.stored := by simp [Hw.inc]

@[simp] theorem Hw.incSat_stored (f : Fld) (inst i : Nat) : (h.incSat f inst i).stored = h.stored := by simp [Hw.incSat]

@[simp] theorem Hw.wrLE_stored (a v n : Nat) : (h.wrLE a v n).stored = h.stored := by rw [h.wrLE_eq, Hw.stored, Hw.stored]

@[simp] theorem Hw.wrWords_stored (h : Hw) (a : Nat) (ws : List Nat) : (h.wrWords a ws).stored = h.stored := by
  induction ws generalizing h a with
  | nil => rfl
  | cons w ws ih => rw [Hw.wrWords, ih, Hw.wrLE_stored]

/-! ### The law's setpoints and the plan of a period (R70, R89, R187) -/

@[simp] theorem Hw.clampSp_stored (u : Nat) : (h.clampSp u).stored = h.stored := by simp [Hw.clampSp]

@[simp] theorem Hw.deriveSp_stored (u : Nat) (l : List Nat) : (h.deriveSp u l).stored = h.stored := by simp [Hw.deriveSp]

@[simp] theorem Hw.recalcSp_stored (u : Nat) : (h.recalcSp u).stored = h.stored := by simp [Hw.recalcSp]

@[simp] theorem Hw.recalc_stored (u : Nat) : (h.recalc u).stored = h.stored := by simp [Hw.recalc, Hw.recalcCeil]

@[simp] theorem Hw.planMembers_stored (f : Nat) (h : Hw) (c : Nat) (out target : Int) : (Hw.planMembers f h c out target).stored = h.stored := by
  induction f generalizing h c out target with
  | zero => rfl
  | succ f ih => exact Hw.each_stored (fun g m => by simp [ih]) h

@[simp] theorem Hw.plan_stored (u : Nat) : (h.plan u).stored = h.stored := by
  unfold Hw.plan
  dsimp only
  (repeat' split) <;> simp [Hw.holdMembers]

/-! ### Bins, corrections and measured values (R154 to R173, R293 to R296) -/

@[simp] theorem Hw.offer_stored (u b : Nat) (s : Int) (t w rng : Nat) (flagged marked sided : Bool) :
    (h.offer u b s t w rng flagged marked sided).stored = h.stored := by
  simp [Hw.offer]

@[simp] theorem Hw.closeBins_stored (u m t : Nat) (restarted : Bool) : (h.closeBins u m t restarted).stored = h.stored := by
  simp [Hw.closeBins, Hw.routeRec, Hw.closeBin]

@[simp] theorem Hw.openBins_stored (u m t : Nat) : (h.openBins u m t).stored = h.stored := by simp [Hw.openBins, Hw.openBin]

@[simp] theorem Hw.calEnd_stored (d ch outcome reason : Nat) : (h.calEnd d ch outcome reason).stored = h.stored := by simp [Hw.calEnd]

@[simp] theorem Hw.extPush_stored (u path : Nat) (y : Int) : (h.extPush u path y).stored = h.stored := by
  unfold Hw.extPush
  dsimp only
  (repeat' split) <;> simp [Hw.calWait, Hw.calApply, Hw.extResult]

@[simp] theorem Hw.modM_stored (u path : Nat) (f : MdecS → MdecS) : (h.modM u path f).stored = h.stored := by simp [Hw.modM]

@[simp] theorem Hw.c32Update_stored (g path : Nat) (v : Int) (ovr : Bool) (rng : Nat) : (h.c32Update g path v ovr rng).stored = h.stored := by
  unfold Hw.c32Update
  split <;> simp

@[simp] theorem Hw.measOffer_stored (u path x : Nat) (v : Int) (ovr : Bool) : (h.measOffer u path x v ovr).stored = h.stored :=
  Hw.each_stored (fun g b => by dsimp only; rw [Hw.ite_stored, Hw.offer_stored, ite_self]) h

@[simp] theorem Hw.measDeliver_stored (u path x : Nat) (y : Int) (ovr : Bool) : (h.measDeliver u path x y ovr).stored = h.stored := by
  simp [Hw.measDeliver, Hw.measConsist, Hw.measPlain]

@[simp] theorem Hw.measHeld_stored (u n : Nat) : (h.measHeld u n).stored = h.stored := by
  refine Hw.each_stored (fun g m => Hw.each_stored (fun k path => ?_) g) h
  split <;> simp

/-! ### Points and ranges (R189 to R207) -/

@[simp] theorem Hw.setPts_stored (d : Nat) (p : PtsS) : (h.setPts d p).stored = h.stored := by
  unfold Hw.setPts
  split <;> simp

@[simp] theorem Hw.opGone_stored (o : PtsOp) : (h.opGone o).stored = h.stored := by
  unfold Hw.opGone
  split <;> simp

@[simp] theorem Hw.ptsReq_stored (d : Nat) (op : PtsOp) : (h.ptsReq d op).stored = h.stored := by
  unfold Hw.ptsReq
  dsimp only
  (repeat' split) <;> simp

@[simp] theorem Hw.reqSafe_stored (u : Nat) (err : Bool) : (h.reqSafe u err).stored = h.stored := by simp [Hw.reqSafe, Hw.dropOps, Hw.safeOp]

@[simp] theorem Hw.restartDec_stored (u path n : Nat) : (h.restartDec u path n).stored = h.stored := by simp [Hw.restartDec]

@[simp] theorem Hw.shOne_stored (m r n : Nat) : (h.shOne m r n).stored = h.stored := by
  unfold Hw.shOne
  dsimp only
  split <;> simp

@[simp] theorem Hw.setIs_stored (u r n : Nat) : (h.setIs u r n).stored = h.stored := by simp [Hw.setIs, Hw.isOne]

@[simp] theorem Hw.setSh_stored (u r n : Nat) : (h.setSh u r n).stored = h.stored := by simp [Hw.setSh]

@[simp] theorem Hw.setArm_stored (u : Nat) (b : Bool) : (h.setArm u b).stored = h.stored := by simp [Hw.setArm]

@[simp] theorem Hw.convRef_stored (u : Nat) (f : Int → Int) : (h.convRef u f).stored = h.stored := by simp [Hw.convRef]

@[simp] theorem Hw.setIrng_stored (u r : Nat) : (h.setIrng u r).stored = h.stored := by simp [Hw.setIrng]

@[simp] theorem Hw.setVrng_stored (u r n : Nat) : (h.setVrng u r n).stored = h.stored := by simp [Hw.setVrng]

@[simp] theorem Hw.modR_stored (u : Nat) (f : RngS → RngS) : (h.modR u f).stored = h.stored := by simp [Hw.modR]

@[simp] theorem Hw.setPhase_stored (u p : Nat) : (h.setPhase u p).stored = h.stored := by simp [Hw.setPhase]

@[simp] theorem Hw.refuteArm_stored (u n : Nat) : (h.refuteArm u n).stored = h.stored := by simp [Hw.refuteArm]

@[simp] theorem Hw.startChange_stored (u b t : Nat) : (h.startChange u b t).stored = h.stored := by
  unfold Hw.startChange
  split <;> simp

@[simp] theorem Hw.reqPats_stored (u rank : Nat) (why : PtsWhy) (pat : Nat → Nat) : (h.reqPats u rank why pat).1.stored = h.stored := by
  simp [Hw.reqPats]

@[simp] theorem Hw.doWalk_stored (u t : Nat) : (h.doWalk u t).stored = h.stored := by
  unfold Hw.doWalk
  (repeat' split) <;> simp

@[simp] theorem Hw.rangeGo_stored (u n : Nat) (ir vr : Option Nat) : (h.rangeGo u n ir vr).stored = h.stored := by
  unfold Hw.rangeGo
  (repeat' split) <;> simp [Hw.unsettle, Hw.openApply, Hw.openChange]

@[simp] theorem Hw.rangeAct_stored (u n : Nat) (ir vr : Option Nat) : (h.rangeAct u n ir vr).stored = h.stored := by
  unfold Hw.rangeAct
  dsimp only
  (repeat' split) <;> simp

@[simp] theorem Hw.rangeWrite_stored (u n : Nat) (ir vr ar : Option Nat) : (h.rangeWrite u n ir vr ar).stored = h.stored := by
  unfold Hw.rangeWrite
  split <;> simp

@[simp] theorem Hw.heldTick_stored (u n : Nat) : (h.heldTick u n).stored = h.stored := by simp [Hw.heldTick, Hw.applyHeld]

@[simp] theorem Hw.abandon_stored (u n : Nat) : (h.abandon u n).stored = h.stored := by
  simp [Hw.abandon, Hw.showChange, Hw.dropChangeOps, Hw.setDes]

@[simp] theorem Hw.autorange_stored (u t : Nat) : (h.autorange u t).stored = h.stored := by
  unfold Hw.autorange
  dsimp only
  (repeat' split) <;> simp

/-! ### States and faults (R123, R138 to R142, R333) -/

@[simp] theorem Hw.dropEng_stored (u : Nat) : (h.dropEng u).stored = h.stored := by simp [Hw.dropEng]

@[simp] theorem Hw.haltEng_stored (e why n : Nat) : (h.haltEng e why n).stored = h.stored := by simp [Hw.haltEng]

@[simp] theorem Hw.haltOf_stored (u n : Nat) (own : Bool) : (h.haltOf u n own).stored = h.stored := by
  unfold Hw.haltOf
  split <;> simp

@[simp] theorem Hw.setSt_stored (u s : Nat) : (h.setSt u s).stored = h.stored := by simp [Hw.setSt]

@[simp] theorem Hw.setLoop_stored (u : Nat) (b : Bool) : (h.setLoop u b).stored = h.stored := by simp [Hw.setLoop]

@[simp] theorem Hw.setIsoFlag_stored (u v : Nat) : (h.setIsoFlag u v).stored = h.stored := by simp [Hw.setIsoFlag]

@[simp] theorem Hw.openLoop_stored (u : Nat) : (h.openLoop u).stored = h.stored := by simp [Hw.openLoop]

@[simp] theorem Hw.zeroRef_stored (u : Nat) : (h.zeroRef u).stored = h.stored := by simp [Hw.zeroRef]

@[simp] theorem Hw.modS_stored (u : Nat) (f : SafeS → SafeS) : (h.modS u f).stored = h.stored := by simp [Hw.modS]

@[simp] theorem Hw.startRamp_stored (u n : Nat) : (h.startRamp u n).stored = h.stored := by simp [Hw.startRamp]

@[simp] theorem Hw.enterSafing_stored (u n : Nat) (fin : RampEnd) (dl : Option Nat) (own : Bool) :
    (h.enterSafing u n fin dl own).stored = h.stored := by
  simp [Hw.enterSafing]

@[simp] theorem Hw.recordFault_stored (u code t : Nat) : (h.recordFault u code t).stored = h.stored := by simp [Hw.recordFault]

@[simp] theorem Hw.restoreFault_stored (u : Nat) (p : PreFault) : (h.restoreFault u p).stored = h.stored := by simp [Hw.restoreFault]

@[simp] theorem Hw.loseFeedback_stored (u : Nat) : (h.loseFeedback u).stored = h.stored := by simp [Hw.loseFeedback]

@[simp] theorem Hw.applyAct_stored (u t base code act : Nat) : (h.applyAct u t base code act).stored = h.stored := by
  simp [Hw.applyAct, Hw.ownCourse, Hw.isoMark, Hw.faultIsolated, Hw.isolateNow, Hw.faultConnected]

@[simp] theorem Hw.capHit_stored (u : Nat) (p : Nat → Nat → Bool) : (h.capHit u p).stored = h.stored := by simp [Hw.capHit]

@[simp] theorem Hw.raiseAt_stored (u0 code : Nat) (own : Option Nat) (t : Nat) : (h.raiseAt u0 code own t).stored = h.stored := by
  unfold Hw.raiseAt
  extract_lets u recorded lost act f same pre act' lost' noted shown hit undo restored defer lostF plain acted
  have again : restored.stored = hit.stored := by
    unfold restored
    split
    · split <;> simp
    · rfl
  have before : lostF.stored = h.stored := by simp [lostF, again, hit, shown, noted, recorded]
  simp [acted, plain, before]

@[simp] theorem Hw.specBlock_stored (u : Nat) : (h.specBlock u).stored = h.stored := by simp [Hw.specBlock]

@[simp] theorem Hw.raise_stored (u code : Nat) : (h.raise u code).stored = h.stored := by simp [Hw.raise, Hw.raiseAct]

@[simp] theorem Hw.modW_stored (u : Nat) (f : WatchS → WatchS) : (h.modW u f).stored = h.stored := by simp [Hw.modW]

@[simp] theorem Hw.isolateReq_stored (u n dl cause : Nat) (own : Bool) : (h.isolateReq u n dl cause own).stored = h.stored := by
  simp [Hw.isolateReq]

/-! ### Words of the window, loop commands and connections (R106, R123, R327, R446) -/

@[simp] theorem Hw.writeFields_stored (b : Blk) (inst off val : Nat) (p : Fld → Bool) : (h.writeFields b inst off val p).stored = h.stored :=
  Hw.each_stored (fun g x => by (repeat' split) <;> simp) h

@[simp] theorem Hw.copyLaw_stored (u s : Nat) : (h.copyLaw u s).stored = h.stored := by simp [Hw.copyLaw, Hw.putLawWord]

@[simp] theorem Hw.loopCmd_stored (u cmd mode law : Nat) : (h.loopCmd u cmd mode law).stored = h.stored := by
  unfold Hw.loopCmd
  split <;> simp [Hw.closeLoop, Hw.loadLaw]

@[simp] theorem Hw.wordAtTick_stored (u off val : Nat) : (h.wordAtTick u off val).stored = h.stored := by
  unfold Hw.wordAtTick
  dsimp only
  (repeat' split) <;> simp [Hw.setCause, Hw.fixmaskAt]

@[simp] theorem Hw.lawWrite_stored (u l : Nat) : (h.lawWrite u l).stored = h.stored := by simp [Hw.lawWrite]

@[simp] theorem Hw.connReq_stored (u n : Nat) : (h.connReq u n).2.stored = h.stored := by
  unfold Hw.connReq
  dsimp only
  split <;> simp [Hw.takeRanges, Hw.isoRelease, Hw.chkEnter, Hw.chkLatchReq, Hw.chkSettled, Hw.connAccept]

@[simp] theorem Hw.connAtTick_stored (u n cmd : Nat) : (h.connAtTick u n cmd).stored = h.stored := by simp [Hw.connAtTick]

/-! ### Captures, tokens and events (R35, R145 to R151, R240 to R244) -/

@[simp] theorem Hw.capTick_stored (u : Nat) : (h.capTick u).stored = h.stored := by
  unfold Hw.capTick
  split <;> simp [Hw.capStore, Hw.capEntry]

@[simp] theorem Hw.armTick_stored (u : Nat) : (h.armTick u).stored = h.stored := by simp [Hw.armTick, Hw.armExam]

@[simp] theorem Hw.auxWait_stored (r : Res) (new : List Req) : (h.auxWait r new).stored = h.stored := by
  unfold Hw.auxWait
  split <;> simp

@[simp] theorem Hw.setArb_stored (r : Res) (a : ArbS) : (h.setArb r a).stored = h.stored := by
  unfold Hw.setArb
  split <;> simp

@[simp] theorem Hw.tokReq_stored (r : Res) (q : Req) : (h.tokReq r q).stored = h.stored := by
  unfold Hw.tokReq
  split <;> simp

@[simp] theorem Hw.withdrawBound_stored (u : Nat) : (h.withdrawBound u).stored = h.stored := by simp [Hw.withdrawBound]

@[simp] theorem Hw.evSchedule_stored (ev due : Nat) : (h.evSchedule ev due).stored = h.stored := by
  have waits : ({ h with evs := h.evs ++ [(ev, due)] } : Hw).stored = h.stored := Hw.stored_congr rfl
  simp [Hw.evSchedule, waits]

/-! ### Timetable engines (R210 to R267) -/

@[simp] theorem Hw.setPc_stored (e a : Nat) : (h.setPc e a).stored = h.stored := by simp [Hw.setPc]

@[simp] theorem Hw.setStacks_stored (e : Nat) (l : List LoopLv) (c : List (Nat × Nat)) : (h.setStacks e l c).stored = h.stored := by
  simp [Hw.setStacks]

@[simp] theorem Hw.engRegs_stored (e : Nat) (b : EngBack) : (h.engRegs e b).stored = h.stored := by simp [Hw.engRegs]

@[simp] theorem Hw.stallFor_stored (e line : Nat) (data : Bool) : (h.stallFor e line data).stored = h.stored := by simp [Hw.stallFor]

@[simp] theorem Hw.engPush_stored (u : Nat) (r : RefEntry) : (h.engPush u r).stored = h.stored := by simp [Hw.engPush]

@[simp] theorem Hw.setS_stored (e n : Nat) : (h.setS e n).stored = h.stored := by simp [Hw.setS]

@[simp] theorem Hw.engState_stored (e s : Nat) : (h.engState e s).stored = h.stored := by simp [Hw.engState]

@[simp] theorem Hw.engRewind_stored (e : Nat) : (h.engRewind e).stored = h.stored := by
  unfold Hw.engRewind
  split <;> simp

@[simp] theorem Hw.waitOver_stored (e : Nat) : (h.waitOver e).stored = h.stored := by
  unfold Hw.waitOver
  split <;> simp

@[simp] theorem Hw.slotPolicy_stored (e k : Nat) : (h.slotPolicy e k).stored = h.stored := by
  unfold Hw.slotPolicy
  dsimp only
  (repeat' split) <;> simp [Hw.redirect, Hw.jumpRequest]

@[simp] theorem Hw.streamGo_stored (e : Nat) : (h.streamGo e).stored = h.stored := by
  unfold Hw.streamGo
  split <;> simp

@[simp] theorem Hw.playErr_stored (e code : Nat) : (h.playErr e code).stored = h.stored := by
  unfold Hw.playErr
  split <;> simp

@[simp] theorem Hw.streamGuard_stored (e : Nat) : (h.streamGuard e).stored = h.stored := by
  unfold Hw.streamGuard
  dsimp only
  (repeat' split) <;> simp

@[simp] theorem Hw.playPush_stored (e : Nat) : (h.playPush e).stored = h.stored := by
  unfold Hw.playPush
  dsimp only
  (repeat' split) <;> simp

@[simp] theorem Hw.engGuard_stored (e : Nat) (late : Bool) : (h.engGuard e late).2.stored = h.stored := by
  unfold Hw.engGuard
  dsimp only
  (repeat' split) <;> simp [Hw.watchSeen, Hw.predLate]

@[simp] theorem Hw.engLate_stored (e n : Nat) : (h.engLate e n).stored = h.stored := by simp [Hw.engLate]

@[simp] theorem Hw.engStalled_stored (e n : Nat) : (h.engStalled e n).stored = h.stored := by simp [Hw.engStalled, Hw.slipStalled]

@[simp] theorem Hw.juncCommit_stored (e u : Nat) (a : StepAcc) : (h.juncCommit e u a).stored = h.stored := by
  unfold Hw.juncCommit
  extract_lets juncs
  have junc : juncs.stored = h.stored := Hw.each_stored (fun g j => by dsimp only; split <;> simp) h
  simp [junc]

@[simp] theorem Hw.jumpLand_stored (e n : Nat) : (h.jumpLand e n).stored = h.stored := by
  unfold Hw.jumpLand
  split <;> simp

@[simp] theorem Hw.engMode_stored (u mo law : Nat) (cl : Bool) : (h.engMode u mo law cl).2.stored = h.stored := by
  unfold Hw.engMode
  dsimp only
  (repeat' split) <;> simp

@[simp] theorem Hw.engApply1_stored (e n : Nat) (a : StepAcc) (cl : Bool) : (h.engApply1 e n a cl).stored = h.stored := by
  unfold Hw.engApply1
  (repeat' split) <;> simp [Hw.stepCommit, Hw.engFault, Hw.engAsk]

@[simp] theorem Hw.engLoops_stored (e n : Nat) (cl : Bool) : (h.engLoops e n cl).stored = h.stored := by
  unfold Hw.engLoops
  dsimp only
  (repeat' split) <;> simp [Hw.engClose]

@[simp] theorem Hw.engOpens_stored (e n : Nat) : (h.engOpens e n).stored = h.stored := by
  unfold Hw.engOpens
  split <;> simp

@[simp] theorem Hw.engApply2_stored (e n : Nat) : (h.engApply2 e n).stored = h.stored := by
  unfold Hw.engApply2
  dsimp only
  (repeat' split) <;> simp [Hw.lineEvent, Hw.portSend, Hw.lineSend, Hw.evRaise]

@[simp] theorem Hw.streamTick_stored (e n : Nat) : (h.streamTick e n).stored = h.stored := by
  unfold Hw.streamTick
  dsimp only
  split <;> simp [Hw.streamMissing]

@[simp] theorem Hw.putNow_stored (u : Nat) (r : RefEntry) : (h.putNow u r).stored = h.stored := by simp [Hw.putNow]

@[simp] theorem Hw.engDo_stored (e n : Nat) (cl : Bool) : (h.engDo e n cl).stored = h.stored := by
  unfold Hw.engDo
  dsimp only
  (repeat' split) <;> simp

@[simp] theorem Hw.engRun_stored (e n : Nat) (late cl : Bool) : (h.engRun e n late cl).stored = h.stored := by
  unfold Hw.engRun
  dsimp only
  (repeat' split) <;> simp

@[simp] theorem Hw.usePart_stored (e : Nat) (b : EngBack) : (h.usePart e b).stored = h.stored := by simp [Hw.usePart]

@[simp] theorem Hw.engPre_stored (e n : Nat) (late cl : Bool) : (h.engPre e n late cl).stored = h.stored := by
  unfold Hw.engPre
  dsimp only
  (repeat' split) <;> simp [Hw.binsUnder, Hw.startWaits]

@[simp] theorem Hw.engPost_stored (e n : Nat) : (h.engPost e n).stored = h.stored := by
  unfold Hw.engPost
  dsimp only
  (repeat' split) <;> simp

@[simp] theorem Hw.engWaits_stored (e : Nat) : (h.engWaits e).stored = h.stored := by
  unfold Hw.engWaits
  split <;> simp

@[simp] theorem Hw.engIsoCheck_stored (e n : Nat) : (h.engIsoCheck e n).stored = h.stored := by
  unfold Hw.engIsoCheck
  split <;> simp

/-! ### The tick and the guard instant (R26, R70, R124) -/

@[simp] theorem Hw.lateFault_stored (u : Nat) : (h.lateFault u).stored = h.stored := by simp [Hw.lateFault]

@[simp] theorem Hw.clearAtTick_stored (u n : Nat) : (h.clearAtTick u n).stored = h.stored := by simp [Hw.clearAtTick, Hw.clearRegs]

@[simp] theorem Hw.pop_stored (u : Nat) : (h.pop u).stored = h.stored := by
  unfold Hw.pop
  dsimp only
  (repeat' split) <;> simp

@[simp] theorem Hw.rampTick_stored (u : Nat) : (h.rampTick u).stored = h.stored := by
  unfold Hw.rampTick
  dsimp only
  (repeat' split) <;> simp [Hw.rampFaulted]

@[simp] theorem Hw.pendRun_stored {f : Hw → PendAct → Hw} (hf : ∀ x a, (f x a).stored = x.stored) (h : Hw) (u : Nat) (sel : PendAct → Bool) :
    (h.pendRun u sel f).stored = h.stored := by
  simp [Hw.pendRun, hf]

@[simp] theorem Hw.runWord_stored (u : Nat) (a : PendAct) : (h.runWord u a).stored = h.stored := by
  unfold Hw.runWord
  split <;> simp

@[simp] theorem Hw.rangesTick_stored (u n : Nat) : (h.rangesTick u n).stored = h.stored :=
  Hw.pendRun_stored (fun g a => by split <;> simp) h u _

@[simp] theorem Hw.settingsTick_stored (u n : Nat) : (h.settingsTick u n).stored = h.stored := by
  unfold Hw.settingsTick
  extract_lets cleared ranged asked law written
  have conn : asked.stored = ranged.stored := Hw.pendRun_stored (fun g a => by split <;> simp) ranged u _
  have all : written.stored = h.stored := by simp [written, conn, ranged, cleared]
  clear_value law
  cases law <;> simp [all]

@[simp] theorem Hw.loopsOf_stored (u : Nat) (sel : Nat → Bool) : (h.loopsOf u sel).stored = h.stored :=
  Hw.pendRun_stored (fun g a => by split <;> simp) h u _

@[simp] theorem Hw.stepMake_stored (u n : Nat) (late cl : Bool) : (h.stepMake u n late cl).stored = h.stored := by
  unfold Hw.stepMake
  dsimp only
  (repeat' split) <;> simp

@[simp] theorem Hw.stepPick_stored (h : Hw) (u e n : Nat) (cl : Bool) (l : List EngBack) : (h.stepPick u e n cl l).stored = h.stored := by
  induction l with
  | nil => simp [Hw.stepPick]
  | cons b l ih =>
    unfold Hw.stepPick
    dsimp only
    split
    · rw [Hw.ite_stored, ih, Hw.usePart_stored, ite_self]
    · simp

@[simp] theorem Hw.stepTick_stored (u n : Nat) (late : Bool) : (h.stepTick u n late).stored = h.stored := by
  unfold Hw.stepTick
  split <;> simp

@[simp] theorem Hw.tickRest_stored (u : Nat) : (h.tickRest u).stored = h.stored := by
  unfold Hw.tickRest
  dsimp only
  (repeat' split) <;> simp [Hw.ffJudge, Hw.recRefs, Hw.slew, Hw.doFlush, Hw.reclamp, Hw.popTick]

@[simp] theorem Hw.finishTick_stored (u : Nat) : (h.finishTick u).stored = h.stored := by
  simp [Hw.finishTick, Hw.ceilFault, Hw.frozenFault, Hw.senseFault, Hw.measTail, Hw.tickTail, Hw.feFault]

@[simp] theorem Hw.ffGuard_stored (u : Nat) (late : Bool) : (h.ffGuard u late).stored = h.stored := by simp [Hw.ffGuard]

@[simp] theorem Hw.guardInstant_stored (u : Nat) (late stepLate : Bool) : (h.guardInstant u late stepLate).stored = h.stored := by
  unfold Hw.guardInstant
  extract_lets done timed late' stepLate' readied traced
  have timed_same : timed.stored = done.stored := Hw.stored_congr rfl
  have readied_same : readied.stored = timed.stored := Hw.each_stored (fun g m => by dsimp only; split <;> simp) timed
  have traced_same : traced.stored = readied.stored := by simp [traced]
  have done_same : done.stored = h.stored := by simp [done]
  rw [Hw.ite_stored, done_same]
  split
  · dsimp only
    split <;> simp [traced_same, readied_same, timed_same, done_same]
  · rfl

@[simp] theorem Hw.passGuard_stored (u : Nat) : (h.passGuard u).stored = h.stored := by simp [Hw.passGuard]

theorem Hw.passGuard_mem (u : Nat) : (h.passGuard u).mem = h.mem := h.passGuard_stored u

end

end Sys2Proof.Machine
end

section
/-! What a host's command to a unit leaves unchanged (R26, R50, R77, R79, R125, R143, R325, R327). -/

namespace Sys2Proof.Machine

/-- `g` is `h` but for unit `u`'s state and for the fields of `u` in which a host's command shows itself. -/
structure Hw.ShowsAt (u : Nat) (h g : Hw) : Prop where
  rest : g = { h with regs := g.regs, units := g.units }
  unit : ∀ w, w ≠ u → g.unit w = h.unit w
  get : ∀ (f : Fld) (i k : Nat), (∀ F ∈ unitCommandFields, f.key i k ≠ F.key u 0) → g.get f i k = h.get f i k

namespace Hw.ShowsAt

variable {u : Nat} {h g : Hw}

theorem refl (u : Nat) (h : Hw) : ShowsAt u h h := ⟨rfl, fun _ _ => rfl, fun _ _ _ _ => rfl⟩

theorem put (k : ShowsAt u h g) {f : Fld} {v : Nat} (hf : f ∈ unitCommandFields := by decide) : ShowsAt u h (g.put f u v) :=
  ⟨congrArg (fun x : Hw => { x with regs := (g.put f u v).regs }) k.rest, k.unit,
    fun F i n hF => (g.get_put_ne f u v 0 F i n (hF f hf)).trans (k.get F i n hF)⟩

theorem modU (k : ShowsAt u h g) {f : UnitS → UnitS} : ShowsAt u h (g.modU u f) :=
  ⟨congrArg (fun x : Hw => { x with units := (g.modU u f).units }) k.rest, fun w hw => (g.modU_unit_ne u f w hw).trans (k.unit w hw), k.get⟩

theorem ite {x : Hw} {c : Prop} [Decidable c] (a : ShowsAt u h g) (b : ShowsAt u h x) : ShowsAt u h (if c then g else x) :=
  Hw.ite_keeps a b

/-- Whatever of the hardware is neither register nor unit reads as before. -/
theorem same {α : Type} (k : ShowsAt u h g) (p : Hw → α) : p g = p { h with regs := g.regs, units := g.units } := congrArg p k.rest

/-! The operations of the commands. -/

theorem refPush (k : ShowsAt u h g) {v : Nat} : ShowsAt u h (g.refPush u v) := k.ite (k.put.ite (k.put.ite (k.put.put.ite k.modU)))

theorem refFlush (k : ShowsAt u h g) : ShowsAt u h (g.refFlush u) := k.ite (k.put.ite (k.ite (k.put.modU.ite k.modU)))

theorem loopWrite (k : ShowsAt u h g) {c mode law : Nat} : ShowsAt u h (g.loopWrite u c mode law) :=
  k.put.ite (k.put.put.ite (k.put.put.put.ite (k.put.put.put.put.modU.ite k.put.put.put.put)))

theorem connWrite (k : ShowsAt u h g) {c : Nat} : ShowsAt u h (g.connWrite u c) :=
  k.put.put.ite (k.put.ite (k.put.ite (k.put.put.modU.ite (k.put.put.ite k.put.put))))

theorem clearWrite (k : ShowsAt u h g) (runs : g.runs u = true) : ShowsAt u h (g.clearWrite u) := by
  rw [Hw.clearWrite, if_pos runs]
  exact k.put.ite (k.put.ite k.put.modU)

theorem ilkCfg (k : ShowsAt u h g) (runs : g.runs u = true) {v : Nat} : ShowsAt u h (g.ilkCfg u v) := by
  rw [Hw.ilkCfg, Hw.pendWord, if_pos runs]
  exact k.ite (k.put.ite k.modU)

end Hw.ShowsAt

/-- The words of a unit's window, by offset and value, that its host commands write. -/
def isHostWord (off v : Nat) : Prop :=
  off = 0x44 ∨ (off = 0x54 ∧ v = 1) ∨ (off = 0x614 ∧ v = 1) ∨ off = 0x640 ∨ off = 0xA4 ∨ off = 0x648

theorem Hw.unitWrite_ilk {h : Hw} {u v : Nat} (hm : (h.passGuard u).isMember u = false) : h.unitWrite u 0x640 v = (h.passGuard u).ilkCfg u v := by
  simp [Hw.unitWrite, hm]

/-- After the guard instant that has passed (R26), the write of such a word shows itself at its unit. -/
theorem Hw.unitWrite_showsAt {h : Hw} {u off v : Nat} (runs : (h.passGuard u).runs u = true) (word : isHostWord off v) :
    ShowsAt u (h.passGuard u) (h.unitWrite u off v) := by
  have start := ShowsAt.refl u (h.passGuard u)
  cases hm : (h.passGuard u).isMember u with
  | true =>
    obtain rfl | ⟨rfl, rfl⟩ | ⟨rfl, rfl⟩ | rfl | rfl | rfl := word
    case inr.inr.inr.inr.inl => exact start.loopWrite
    case inr.inr.inr.inr.inr => exact start.connWrite
    all_goals
      rw [Hw.unitWrite_member hm (by decide)]
      exact start.put
  | false =>
    obtain rfl | ⟨rfl, rfl⟩ | ⟨rfl, rfl⟩ | rfl | rfl | rfl := word
    · rw [Hw.unitWrite_push hm]
      exact start.refPush
    · rw [Hw.unitWrite_flush hm]
      exact start.refFlush
    · rw [Hw.unitWrite_clear hm]
      exact start.clearWrite runs
    · rw [Hw.unitWrite_ilk hm]
      exact start.ilkCfg runs
    · exact start.loopWrite
    · exact start.connWrite

/-- A host's command to a unit writes a word of the unit. -/
theorem exec_unitCommand {s : State} {m : Master} {u : Nat} {c : Instr} (hs : s.hears m) (hr : s.hw.reaches u = true)
    (hc : unitCommand m u c = true) : ∃ off v, exec c s = s.wrote m (s.hw.unitWrite u off v) ∧ isHostWord off v := by
  unfold unitCommand at hc
  split at hc
  case h_11 => exact absurd hc Bool.false_ne_true
  all_goals
    simp only [Bool.and_eq_true, beq_iff_eq] at hc
    obtain ⟨rfl, rfl⟩ := hc
    exact ⟨_, _, State.run_unitWrite hs hr _ _, by simp [isHostWord]⟩

/-- A station that was quiet before a command that shows itself at a unit is quiet after it. -/
theorem State.quiet.showsAt {s : State} {u : Nat} {x : Hw} (hq : s.quiet) (k : Hw.ShowsAt u s.hw x) : State.quiet { s with hw := x } := by
  have step : x.get STN_BOOT_STEP 0 = s.hw.get STN_BOOT_STEP 0 :=
    k.get _ _ _ fun F hF same => (by decide : ∀ F ∈ unitCommandFields, F.blk ≠ .stn) F hF (congrArg RegKey.blk same).symm
  obtain ⟨jobs, waits, snaps, remote, boot⟩ := hq
  refine ⟨?_, ?_, ?_, ?_, by rwa [step]⟩ <;> rw [k.rest]
  · exact jobs
  · exact waits
  · exact snaps
  · exact remote

/-- Settles O57: a host's command writes a word of its unit, which shows itself there alone, and nothing waits to follow it. -/
theorem hostCommandsToAUnitChangeOnlyThatUnit : Obligations.HostCommandsToAUnitChangeOnlyThatUnit := by
  intro s t m u c hs hr hc g h sound quiet runs ht
  obtain ⟨off, v, wrote, word⟩ := exec_unitCommand hs hr hc
  have shows : Hw.ShowsAt u h (s.hw.unitWrite u off v) := Hw.unitWrite_showsAt runs word
  have done : exec c s = s.to ((s.hw.unitWrite u off v).answer m 0 []) :=
    wrote.trans (congrArg s.to ((quiet.showsAt shows).congr (.answer _ m 0 [])).settle)
  obtain rfl : s.commit ((s.hw.unitWrite u off v).answer m 0 []) = t := Host.Outcome.next.inj (done.symm.trans ht)
  have wrq : (s.hw.unitWrite u off v).wrq = [] := (shows.same Hw.wrq).trans sound.2.1
  have bytes : ∀ a, (s.commit ((s.hw.unitWrite u off v).answer m 0 [])).hw.byte a = h.byte a := fun a => by
    have mem : (s.commit ((s.hw.unitWrite u off v).answer m 0 [])).hw.mem = h.mem := by
      rw [State.commit_mem, Hw.answer, wrq, s.hw.passGuard_mem u]
      rfl
    rw [Hw.byte, mem, Hw.byte, sound.2.1]
    rfl
  exact ⟨rfl, bytes, shows.same Hw.now, shows.unit, shows.same Hw.engs, shows.same Hw.dies,
    shows.same Hw.caps, shows.same Hw.ques, shows.same Hw.ths, shows.same Hw.sids,
    shows.same Hw.visits, shows.same Hw.evs, shows.same Hw.ports, shows.same Hw.line,
    shows.same Hw.nv, shows.get⟩

end Sys2Proof.Machine
end
